-- ==== Sys2Proof/Word.lean ====
section
/-! DEFINITION. The plain types every file uses: a byte, a list of bytes, and a sparse table. -/

namespace Sys2Proof

/-- One byte. -/
abbrev Byte := BitVec 8

/-- A row of bytes, lowest address first. -/
abbrev Bytes := List Byte

/-- A sparse table from numbers to values: keys strictly rising, no entry equal to what an unlisted key reads as. -/
abbrev Tbl (α : Type) := List (Nat × α)

end Sys2Proof
end

