-- ==== Sys2Proof/Syntax.lean ====
section
/-! DEFINITION. The commands the block takes (one constructor per row of the spec's table of operations and events) and
the plain data they carry. The table gives no operand fields: which operands a command carries is the model's choice,
read off the rule that the row names (DESIGN CHOICE, log 3). -/

namespace Sys2Proof

/-- A pen, 0 to 15. -/
abbrev PenId := Fin 16
/-- A stall, 0 to 191 (R15). -/
abbrev StallId := Fin 192
/-- A memory hub, 0 to 7 (R13). -/
abbrev HubId := Fin 8
/-- A link, 0 to 17 (R16). -/
abbrev LinkId := Fin 18
/-- A tenant, 0 to 63 (Table 2.8). -/
abbrev TenantId := Fin 64
/-- A function: 0 the PF, 1 to 63 the VFs (Table 2.8). -/
abbrev FnId := Fin 64
/-- A peg group, 0 to 63 (R289). -/
abbrev GroupId := Fin 64

/-- The engines of a stall (R56) and of a hub; the order of the engine numbers of Table 13.2. -/
inductive EngKind where
  | tda | lut | tse | lnu | vpu | sampler | dma | cde | scarf | kvm
deriving DecidableEq, Repr

/-- One engine: of a stall, or one pen's queue set of a hub engine (Section 2 of 03_frames.md). -/
inductive Eng where
  | stall (n : StallId) (k : EngKind)
  | hub (m : HubId) (k : EngKind) (p : PenId)
deriving DecidableEq, Repr

/-- The queue a task's commands go to (R61). -/
inductive QClass where
  | u0 | head | body | tail
deriving DecidableEq, Repr

/-- One task of a frame plan's task graph (R61). The layout of the task table inside a plan is not given, so the
command that ends the checks carries the graph decoded (log 10). `unit` is a relative stall of the pen, or a hub;
`pos` is the bind position whose context the task belongs to; `cmds` holds the bytes of each command, in order; `cond` is the
device physical address of the task's condition word (R157); `slots` are buffer slots the task writes in its own stall beside those
that its commands' bytes name. -/
structure Task where
  eng     : EngKind
  unit    : Nat
  cls     : QClass
  preds   : List Nat
  pos     : Option Nat
  cmds    : List Bytes
  cond    : Option Nat
  slack   : Nat
  slots   : List Nat
deriving DecidableEq, Repr

/-- A bit error that has struck memory: one flipped bit, two in one code word, or an uncorrectable error in the hub cache's copy
of the line (R171, R199, R204, R211, R395). -/
inductive UpsetKind where
  | single | double | cached
deriving DecidableEq, Repr

/-- An upset of one line, numbered by address / 64. `word` is the 8 B word it struck, which matters in a scratchpad row alone:
there SECDED covers each word (R171), elsewhere the line (R204, R211). -/
structure Upset where
  line : Nat
  kind : UpsetKind
  word : Fin 8 := 0
deriving DecidableEq, Repr

/-- What a command met at the ports of its stall's scratchpad: the bank of its first lost cycle with the number of cycles lost
(R173), its yields (R174) and its same-row events (R175); `far` holds the yields and same-row events that its remote writes met
in the stall they go to (R174, R175). The model keeps no cycle-by-cycle schedule, so the command carries them (log 3). -/
structure Ports where
  lost    : Option (Fin 32 × Nat) := none
  yields  : Nat := 0
  sameRow : Nat := 0
  far     : Nat × Nat := (0, 0)
deriving DecidableEq, Repr

/-- Bytes that a write brings to a scratchpad, with what they meet at its banks. -/
structure Landing where
  bytes : Bytes
  met   : Ports := {}
deriving DecidableEq, Repr

/-- Where the records of a swap set come to lie in the pen's scratchpads, in order, with what their writes met at the banks of the
first one's stall. -/
structure SwapPlaces where
  addrs : List Nat
  met   : Ports := {}
deriving DecidableEq, Repr

/-- Where an engine command comes from: the stall or hub side is the command's own operand; `frame` and `task` name the
task (Table 13.2 numbers it), `pos` the bind position whose context it belongs to, `u0` its queue (R56). `ports` is what it
met at its ports, `upsets` the bit errors that have struck memory by the time it runs. -/
structure Issue where
  frame  : Nat
  task   : Nat
  pos    : Option (Fin 32)
  u0     : Bool
  ports  : Ports := {}
  upsets : List Upset := []
deriving DecidableEq, Repr

/-- The fields of TRIT_COMBINE (R109), for which the spec gives no byte layout; the regions are those R176 has every
command name. -/
structure TritCombine where
  planes   : Nat
  tM1      : Nat
  n        : Nat
  inRegion : Nat
  inOff    : Nat
  planeStride : Nat
  inStride : Nat
  oRegion  : Nat
  oOff     : Nat
  oStride  : Nat
  outFmt   : Nat
  boundCyc : Nat
  slotIn   : Nat
  slotOut  : Nat
deriving DecidableEq, Repr

/-- The fields of CVD_LOAD (R129): no byte layout is given. -/
structure CvdLoad where
  index  : Nat
  region : Nat
  off    : Nat
deriving DecidableEq, Repr

/-- How a host read ends (R394): with data, with an error completion, or in a completion timeout. -/
inductive Completion where
  | ok | error | timeout
deriving DecidableEq, Repr

/-- The register space an access goes to: PF BAR0 (Table 15.3), the carrier function's BAR0 (R388), a VF's BAR0 view (R397), the
MSI-X table of a function (BAR2) or a function's MSI-X control word. -/
inductive Space where
  | bar0
  | cf
  | vf (f : FnId)
  | bar2 (f : FnId)
  | msixCtl (f : FnId)
deriving DecidableEq, Repr

/-- What the power estimate counts: the activities of Table 12.4, in its order, and the idle array cycles of R98. -/
inductive Activity where
  | planeSlot | tileRow | tableWord | laneOp | rowAccess | flitHop | hbmLine | hbmRefresh | linkFlit | laneActive | loftLine | loftRefresh | idleCycle
deriving DecidableEq, Repr

/-- The pen and task an activity count carries (R321): none (stalls in no pen, refresh, patrol scrub, transit), a pen without a task
(its hub-engine queues, recompute work and ZLT traffic), or a task of a pen in a frame, by its queue class and bind position. -/
inductive ActBy where
  | none
  | pen (p : PenId)
  | task (p : PenId) (frame : Nat) (cls : QClass) (pos : Option Nat)
deriving DecidableEq, Repr

/-- An activity count of the last microsecond as a die reports it to MG (R321). -/
structure ActCount where
  act   : Activity
  who   : ActBy
  count : Nat
deriving DecidableEq, Repr

/-- A unit with trip and critical comparators (Table 12.6). -/
inductive ThermUnit where
  | ct (d : Fin 24)
  | zone (m : HubId)
  | lk (k : Fin 4)
  | td (k : Fin 2)
  | hx
  | mg
deriving DecidableEq, Repr

/-- An input level at which a condition's release timer starts (Table 12.1): 52.0 V, 48.0 V or 65.0 V. -/
inductive InLevel where
  | v52 | v48 | v65
deriving DecidableEq, Repr

/-- One image of a firmware package with its manifest (R367, R368). -/
structure FwImage where
  manifest : Bytes
  image    : Bytes
deriving DecidableEq, Repr

/-- A firmware package: the images present, the addendum (empty where there is none), and the vendor public keys stored beside
the bank header, one a key slot (R367, R369, R370). The bank header's layout is not given, so its parts come as data (log 12). -/
structure FwPackage where
  images   : List FwImage
  addendum : Bytes
  vkeys    : List Bytes
deriving DecidableEq, Repr

/-- What a patrol scrubber reads: a hub's two stacks, or the loft lines of a TD die (R205, R211). -/
inductive ScrubUnit where
  | hub (m : HubId)
  | loft (k : Fin 2)
deriving DecidableEq, Repr

/-- How the management pair carries a message: as an SMBus or as an I3C transaction (R364). -/
inductive Bus where
  | smbus | i3c
deriving DecidableEq, Repr

/-- A transport of the SPDM responder (R381). -/
inductive SpdmPort where
  | mctp (b : Bus)
  | doe
deriving DecidableEq, Repr

/-- A debug token (R383): its 64 B body, the DEV_BIND and the expiry boot count that the body names, and the signature with its
vendor key slot. The body's layout is not given, so its fields come as data (log 12). -/
structure DebugTok where
  body   : Bytes
  bind   : Bytes
  expiry : Nat
  slot   : Fin 4
  sig    : Bytes
deriving DecidableEq, Repr

/-- What a CXL_IDE_KM message does to a key of a port's stream (R385): it programs one, takes it into use or out of use. -/
inductive IdeOp where
  | prog (key : Bytes)
  | start
  | stop
deriving DecidableEq, Repr

/-- What a reset of one function names: the PF, the carrier function of port 1, or a VF (R388, R390). -/
inductive HostFn where
  | pf
  | cf
  | vf (f : FnId)
deriving DecidableEq, Repr

/-- A read that PLDM file transfer or a dump copy names: the flash log, a full-dump slot, a short-dump slot, a manifest of the
booted bank, or the certificate chain (Table 14.1). -/
inductive MgtFile where
  | log
  | full (i : Fin 2)
  | short (i : Fin 4)
  | manifest (k : Fin 4)
  | certs
deriving DecidableEq, Repr


/-- The commands of the block: one constructor per row of the table of operations and events, in its order. -/
inductive Instr where
  /-- FRAME_START (R53). The tick source reaches a frame start: the frame number increments and all frame-start work runs, including the sub-tick 0 sweep of every trough window. -/
  | frameStart
  /-- SUBTICK (R54). The tick source reaches one of sub-ticks 1–7, and the sweeper examines U0 STEP records only. -/
  | subtick
  /-- PAUSE_EXPIRY (R260). A mode 0 pause reaches its expiry instant; the context becomes LOST and its pages are freed. -/
  | pauseExpiry (p : PenId) (ctx : Nat)
  /-- FRAME_TAIL_DONE (R55). A frame's tail completes; FSQ_TAIL_DONE advances, memory of a replaced plan is released, and the yoke frame commit point occurs. -/
  | frameTailDone (p : PenId) (frame : Nat)
  /-- FRAME_OVERRUN (R79). A tail is not complete at the next frame start plus LAP_US (frame N+4 while suspended), and the pen is fenced. -/
  | frameOverrun (p : PenId) (frame : Nat)
  /-- COMMAND_BOUNDARY (R56). An engine's command completes, and the engine starts the oldest ready command from its U0, lap or main queue. -/
  | commandBoundary (e : Eng)
  /-- CMD_WATCHDOG (R78). A command's cycle count reaches twice its bound, and the engine's domain is fenced. -/
  | cmdWatchdog (e : Eng)
  /-- ENGINE_RESET_DONE (R347). A command engine reset completes, and the engine starts its next queued command. -/
  | engineResetDone (e : Eng)
  /-- STALL_HANG (R345). An engine reset is incomplete after 2 µs, or a second watchdog hits the engine in one frame; the stall is fenced. -/
  | stallHang (e : Eng)
  /-- SWAP_SET_DONE (R70). A swap set completes, and the swapped-in records are checked. -/
  | swapSetDone (p : PenId) (places : SwapPlaces)
  /-- TDA_MAC (R89). The dense array accumulates ternary weight tiles against activation bit planes. -/
  | tdaMac (n : StallId) (i : Issue) (cmd : Bytes)
  /-- LUT_ACC (R105). The table path accumulates a ternary layer by table lookup. -/
  | lutAcc (n : StallId) (i : Issue) (cmd : Bytes)
  /-- TRIT_COMBINE (R109). The VPU recombines trit-plane accumulators in Horner form. -/
  | tritCombine (n : StallId) (i : Issue) (f : TritCombine)
  /-- LNU_OP (R123). The LNU runs DOT, SOFTMAX, NORM, EW_MUL or EW_ADD in LNS arithmetic. -/
  | lnuOp (n : StallId) (i : Issue) (cmd : Bytes)
  /-- CVD_LOAD (R129). A conversion descriptor is loaded from scratchpad and validated. -/
  | cvdLoad (n : StallId) (i : Issue) (f : CvdLoad)
  /-- GEN_BIND (R138). A generator is bound to a consumer, key and counter range after the ledger check. -/
  | genBind (n : StallId) (i : Issue) (cmd : Bytes)
  /-- GEN_UNBIND (R140). A generator binding is released, and the counter is written back to the context. -/
  | genUnbind (n : StallId) (i : Issue) (gen : Nat)
  /-- TSE_MAC (R146). The sparse engine accumulates stored blocks of a block-bitmap tile. -/
  | tseMac (n : StallId) (i : Issue) (cmd : Bytes)
  /-- ROUTE_TOPK (R154). Experts are ranked per token, and per-expert lists and gates are written. -/
  | routeTopk (n : StallId) (i : Issue) (cmd : Bytes)
  /-- ANP_SELECT (R158). Predicted-active neurons are selected and the neuron list is written. -/
  | anpSelect (n : StallId) (i : Issue) (cmd : Bytes)
  /-- ANP_CHECK (R160). The shadow check finds missed neurons, computes up to 64 of them and extends the list. -/
  | anpCheck (n : StallId) (i : Issue) (cmd : Bytes)
  /-- SCARF_PACK (R165). The scarf engine merges CRB blocks into quintet tiles with input maps and writes them to a stall. -/
  | scarfPack (m : HubId) (p : PenId) (i : Issue) (cmd : Bytes)
  /-- CDE_CMD (R221). The compression engine runs UNPACK, PACK, KV_ENC or KV_DEC. -/
  | cdeCmd (m : HubId) (p : PenId) (i : Issue) (cmd : Bytes)
  /-- TERNARISE (R228). Latent LNS weights are thresholded into quintet bytes. -/
  | ternarise (n : StallId) (i : Issue) (cmd : Bytes)
  /-- WAIT_ARRIVALS (R186). A command waits until an arrival counter reaches TARGET, optionally consuming it. -/
  | waitArrivals (n : StallId) (e : EngKind) (i : Issue) (cmd : Bytes)
  /-- DMA_MOVE (R187). The DMA port copies, strides or gathers data between address spaces. -/
  | dmaMove (n : StallId) (i : Issue) (cmd : Bytes)
  /-- REMOTE_WRITE_ARRIVAL (R185). The last byte of an inbound remote write lands; the arrival counter increments and the slot write completes. -/
  | remoteWriteArrival (n : StallId) (off : Nat) (w : Landing) (poison : Nat) (ctr : Option (Fin 64)) (slot : Nat)
  /-- ZERO_FILL_DONE (R172). A stall's scratchpad zero-fill finishes, and held remote writes land. -/
  | zeroFillDone (n : StallId)
  /-- CRIB_EMIT (R244). A sequence's result data and sampler output are copied toward the crib. -/
  | cribEmit (n : StallId) (i : Issue) (cmd : Bytes)
  /-- DETACHED_WAIT_END (R191). A detached command's wait on host completions, buffer space or remote arrivals ends, and the command completes. -/
  | detachedWaitEnd (n : StallId) (d : Fin 8)
  /-- SAMPLE (R263). The sampler masks, filters and draws one token for a bind position. -/
  | sample (n : StallId) (i : Issue) (cmd : Bytes)
  /-- KV_PREFIX (R258). The KV manager looks up or inserts prefix-hash entries for a context. -/
  | kvPrefix (m : HubId) (p : PenId) (i : Issue) (cmd : Bytes)
  /-- KV_RQ (R255). A plan fetches a recompute ticket or marks a ticket's spans DONE. -/
  | kvRq (m : HubId) (p : PenId) (i : Issue) (cmd : Bytes)
  /-- KV_PREFETCH_SPAN (R254). Once enough free pages exist, a spilled span of a held record is copied back from the loft. -/
  | kvPrefetchSpan (p : PenId)
  /-- ZLT_PUT (R279). A scratchpad range is sent to another module as one ZLT message of DATA packets. -/
  | zltPut (n : StallId) (i : Issue) (cmd : Bytes)
  /-- PEG_SYNC (R290). A local arrival is added to a peg group, and the command waits for the release. -/
  | pegSync (n : StallId) (i : Issue) (cmd : Bytes)
  /-- PEG_ARRIVE (R291). A child's PEG_ARRIVE packet is counted toward the group's set. -/
  | pegArrive (l : LinkId) (raw : Bytes) (udpOk : Bool) (ce : Bool)
  /-- PEG_RELEASE (R291). A PEG_RELEASE packet is forwarded to children, releases local PEG_SYNCs and advances SEQ. -/
  | pegRelease (l : LinkId) (raw : Bytes) (udpOk : Bool) (ce : Bool)
  /-- PEER_TIMEOUT (R294). The peg timer expires before the release arrives; the group breaks and pending requests are answered PEER_TIMEOUT. -/
  | peerTimeout (g : GroupId)
  /-- PEG_ENABLE (R289). Enabling a peg group sets SEQ to 1, clears counts and makes it ACTIVE. -/
  | pegEnable (g : GroupId)
  /-- PEG_RESET (R289). A PEG_GCFG.RESET write resets the group to ACTIVE with SEQ 1. -/
  | pegReset (g : GroupId)
  /-- PEG_CONFIG_WRITE (R289). A write to a peg group's configuration is applied, or discarded with REJECT while an occurrence is in progress. -/
  | pegConfigWrite (g : GroupId) (reg : Fin 4) (value : BitVec 32)
  /-- ZLT_DATA_RX (R280). A received DATA packet is checked and written, forwarded in transit, or denied. -/
  | zltDataRx (l : LinkId) (raw : Landing) (udpOk : Bool) (ce : Bool)
  /-- ZLT_ACK_RX (R282). A received ACK retires packets, reports a DENIED message failure, or applies an ECE rate cut. -/
  | zltAckRx (l : LinkId) (raw : Bytes) (udpOk : Bool) (ce : Bool)
  /-- ZLT_ACK_TIMER (R282). 2 µs after the first unacknowledged packet, the receiver sends an ACK. -/
  | zltAckTimer (dev : BitVec 12) (tc : Fin 3)
  /-- ZLT_RETRANSMIT (R282). A packet's RTO expires, and it is resent or its message fails. -/
  | zltRetransmit (dev : BitVec 12) (tc : Fin 3) (psn : BitVec 32)
  /-- RATE_RECOVERY (R277). Each 10 µs without an ECE, a destination's rate rises by 1 Gbit/s. -/
  | rateRecovery (dev : BitVec 12)
  /-- LINK_CREDIT_RX (R272). A link header returns credits for a traffic class, and waiting packets may be sent. -/
  | linkCreditRx (l : LinkId) (tc : Fin 3) (n : BitVec 16)
  /-- FEC_UNCORRECTABLE (R272). An uncorrectable codeword drops every packet it touches. -/
  | fecUncorrectable (l : LinkId)
  /-- LINK_TRAINED (R267). A link completes training and becomes UP, and its port carries traffic. -/
  | linkTrained (l : LinkId) (lanes : Fin 256) (peerDev : BitVec 16) (peerLink : Fin 32) (split : Bool)
  /-- LINK_TRAIN_TIMEOUT (R267). A link not UP within 20 ms becomes DOWN and logs LINK_DOWN. -/
  | linkTrainTimeout (l : LinkId)
  /-- LINK_RETRY (R267). Every 100 ms a DOWN link retries training. -/
  | linkRetry (l : LinkId)
  /-- LANE_FAIL (R273). A lane loses lock or exceeds its SER threshold, and the link retrains narrower or goes DOWN. -/
  | laneFail (l : LinkId) (lane : Fin 8)
  /-- LINK_RETRAIN (R273). An LNK_CTRL.RETRAIN write retrains the link at the widest width its lanes allow. -/
  | linkRetrain (l : LinkId)
  /-- LINK_HANG (R284). The transport watchdog expires on a link with waiting traffic, and the link retrains or goes DOWN. -/
  | linkHang (l : LinkId)
  /-- ROUTE_COMMIT (R287). An LNK_RT_CTRL.COMMIT write schedules the shadow routing table for the next frame start. -/
  | routeCommit
  /-- HELLO (R301). A partner's HELLO is received, and digests and roles are compared for pairing. -/
  | hello (l : LinkId) (raw : Bytes) (udpOk : Bool) (ce : Bool)
  /-- HEARTBEAT_RX (R301). A partner HEARTBEAT refreshes liveness and is checked against the service digest. -/
  | heartbeatRx (l : LinkId) (raw : Bytes) (udpOk : Bool) (ce : Bool)
  /-- DIRECT (R302). A yoke DIRECT packet is written to its checked address, or dropped. -/
  | direct (l : LinkId) (raw : Bytes) (udpOk : Bool) (ce : Bool)
  /-- JOURNAL (R302). A yoke JOURNAL packet is staged into its commit's journal. -/
  | journal (l : LinkId) (raw : Bytes) (udpOk : Bool) (ce : Bool)
  /-- COMMIT (R304). The partner receives COMMIT, acknowledges it when every packet is held, and applies the journal. -/
  | commit (l : LinkId) (raw : Bytes) (udpOk : Bool) (ce : Bool)
  /-- COMMIT_ACK (R306). An acknowledged commit releases its held crib entries and can move SYNCING to MIRRORED. -/
  | commitAck (l : LinkId) (raw : Bytes) (udpOk : Bool) (ce : Bool)
  /-- YOKE_COMMIT_SEND (R304). Once every packet of a closed journal has been sent, the active module sends COMMIT. -/
  | yokeCommitSend (p : PenId)
  /-- FETCH_REQ (R314). A FETCH_REQ is served by returning memory as DIRECT packets and FETCH_DONE, or refused with FETCH_NAK. -/
  | fetchReq (l : LinkId) (raw : Bytes) (udpOk : Bool) (ce : Bool)
  /-- FETCH_DONE (R356). A yoke refetch completes, and the hub decodes the block again. -/
  | fetchDone (l : LinkId) (raw : Bytes) (udpOk : Bool) (ce : Bool)
  /-- FETCH_NAK (R355). A refused refetch moves the unavailable entry to HOST and raises the hub-error vector. -/
  | fetchNak (l : LinkId) (raw : Bytes) (udpOk : Bool) (ce : Bool)
  /-- YOKE_TAKEOVER (R311). A SHADOW pen's MISSED count reaches 3, or a partner reports UNPAIRED, and the pen takes over. -/
  | yokeTakeover (p : PenId)
  /-- YOKE_SOLO (R311). A MIRRORED pen's MISSED count reaches 3; it becomes SOLO and posts its held entries. -/
  | yokeSolo (p : PenId)
  /-- DEMOTE (R310). A YOK_CTRL.DEMOTE write disables the pen's functions and makes it standby. -/
  | demote (p : PenId)
  /-- TRS_START (R44). A TRS_CTRL.START write begins a truss load, or is refused with BUSY. -/
  | trsStart
  /-- QUIESCE (R46). A QUIESCE = 1 write makes the sweeper refuse all records from the next frame start. -/
  | quiesce
  /-- QUIESCE_CLEAR (R46). A QUIESCE = 0 write clears QUIESCED and restores normal intake at the next frame start. -/
  | quiesceClear
  /-- QUIESCED (R46). Every pen's FSQ becomes idle with all crib writes done, and QUIESCED is set. -/
  | quiesced
  /-- TRS_ABORT (R50). A TRS_CTRL.ABORT write cancels a load that has not reached COMMIT. -/
  | trsAbort
  /-- TRUSS_FETCH_DONE (R43). The image copy into the staging area completes and the loader moves to VERIFY. -/
  | trussFetchDone (res : Completion)
  /-- TRUSS_VERIFY_DONE (R43). Header, CRC, signature, compatibility and serial checks end, and the image is rejected or validated. -/
  | trussVerifyDone
  /-- TRUSS_VALIDATE_DONE (R43). Section checks end; a whole-device image starts COMMIT and a per-pen image becomes PENDING. -/
  | trussValidateDone
  /-- TRUSS_COMMIT_DONE (R46). Whole-device commit completes and SCRUB of reassigned memory and scratchpads begins. -/
  | trussCommitDone
  /-- PEN_HEAVY_COMMIT (R49). Once frame F−1's tail is done, a heavy per-pen image commits its resources and starts its scrub. -/
  | penHeavyCommit
  /-- TRUSS_SCRUB_DONE (R46). Scrub ends; the load reaches IDLE, sets DONE and restarts the tick or intake. -/
  | trussScrubDone
  /-- PLAN_START (R59). An FSQ_PLAN_CMD.START write begins a plan installation after the BUSY and PLACEMENT checks. -/
  | planStart (p : PenId) (slot : Fin 8)
  /-- PLAN_ABORT (R59). An FSQ_PLAN_CMD.ABORT write cancels an installation before staging. -/
  | planAbort (p : PenId)
  /-- PLAN_FETCH_DONE (R59). The plan copy into HBM completes and the digest begins. -/
  | planFetchDone (p : PenId) (res : Completion)
  /-- PLAN_DIGEST_DONE (R59). The plan digest completes and checks 3–8 begin. -/
  | planDigestDone (p : PenId)
  /-- PLAN_CHECK_DONE (R59). Installation checks end, and the plan is staged or rejected with FAIL. -/
  | planCheckDone (p : PenId) (tasks : List Task)
  /-- ROTA_APPLY (R62). An APPLY write captures the rota to take effect at the next frame start. -/
  | rotaApply (p : PenId) (lenM1 : Fin 16)
  /-- KVM_APPLY (R251). A KVM_CTRL.APPLY write installs a KV manager configuration, or sets REJECT. -/
  | kvmApply (p : PenId)
  /-- RETIRE_PAGE (R206). A retirement entry write retires an HBM page, or is refused. -/
  | retirePage (stack : Fin 16) (entry : Fin 1024) (value : BitVec 32)
  /-- LOFT_RETIRE (R211). A loft retirement entry write retires a loft granule, or is refused. -/
  | loftRetire (entry : Fin 4096) (value : BitVec 32)
  /-- PATROL_SCRUB (R205). A patrol scrub pass reads, corrects and rewrites every line of a hub's stacks. -/
  | patrolScrub (u : ScrubUnit) (upsets : List Upset)
  /-- ZONE_SAMPLE (R201). A thermal zone sample is taken, and the throttle level and hot refresh are updated. -/
  | zoneSample (m : HubId) (stack0 : Fin 256) (stack1 : Fin 256) (hub : Fin 256)
  /-- CT_TEMP_SAMPLE (R331). A CT die temperature sample is taken, and its level is updated. -/
  | ctTempSample (d : Fin 24) (t0 : Fin 256) (t1 : Fin 256) (t2 : Fin 256) (t3 : Fin 256)
  /-- THERMAL_TRIP (R332). A trip comparator fires; clocks and rates drop and the covered pens are suspended. -/
  | thermalTrip (u : ThermUnit)
  /-- TRIP_RELEASE (R333). After 100 samples below trip minus 5 °C, a trip leaves. -/
  | tripRelease (u : ThermUnit)
  /-- THERMAL_CRITICAL (R334). A sensor reaches its critical temperature, and a device-fatal supply-style reset runs. -/
  | thermalCritical (u : ThermUnit)
  /-- CRITICAL_COOLDOWN (R334). Every package sensor reads below 80 °C, and the boot release timing starts. -/
  | criticalCooldown
  /-- SAG_WARN (R317). Input below 51.0 V, or an external SAG_N low, enters SAG_WARN; pens are suspended and clocks are capped. -/
  | sagWarn (ext : Bool)
  /-- SAG_WARN_RELEASE (R317). The release timer expires and SAG_WARN leaves, pending the SAG_N check. -/
  | sagWarnRelease
  /-- SAG_N_SAMPLE_END (R408). After a 2 µs sample of SAG_N, an external low keeps SAG_WARN, otherwise it ends. -/
  | sagNSampleEnd (low : Bool)
  /-- SAG_RESET (R319). Input below 47.0 V triggers the supply reset sequence and the short dump. -/
  | sagReset
  /-- OV_RESET (R315). Input above 66.0 V triggers the supply reset sequence. -/
  | ovReset
  /-- POWER_ESTIMATE (R321). Every 1 µs P_est is formed and the cap loop may step the ACLK target. -/
  | powerEstimate (counts : List ActCount)
  /-- POWER_MEASURE (R322). Every 100 µs P_meas is formed and the loop may step down by two. -/
  | powerMeasure (vin : Fin 65536) (iin : Fin 65536) (mw : Nat)
  /-- POWER_CALIBRATE (R322). Every 10 ms the calibration gain G is updated, or PWR_CAL_RANGE is logged. -/
  | powerCalibrate
  /-- POWER_CAP_HELD (R325). P_est stays above the cap for 100 µs at 1,300 MHz, and CAP_HELD is set. -/
  | powerCapHeld
  /-- CAP_WRITE (R323). A PWR_CAP write sets the cap, clamped to 2,900–3,200 W. -/
  | capWrite (value : BitVec 32)
  /-- POWER_CLAMP (R326). Input current above 66 A clamps every stall to F_assured. -/
  | powerClamp
  /-- CLAMP_RELEASE (R326). 100 µs after the current falls below 62 A, the clamp ends. -/
  | clampRelease
  /-- POWER_OVERCURRENT (R327). Current still above 66 A 10 ms after a clamp triggers a device-fatal reset. -/
  | powerOvercurrent
  /-- DROOP_STRETCH (R329). A droop detector stretches the die's ACLK cycles. -/
  | droopStretch (d : Fin 24) (cycles : Fin 33)
  /-- DROOP_WINDOW (R330). At the end of each 100 µs window, DROOP_EXCESS is entered or left. -/
  | droopWindow (d : Fin 24) (aclk : Nat)
  /-- SUPPLY_ON (R315). Input reaches 36.0 V; the sheepdog supply and inrush charging start. -/
  | supplyOn
  /-- INRUSH_DONE (R404). Input capacitance charging completes, and the device-release timer may start. -/
  | inrushDone
  /-- SUPPLY_LOSS (R338). Input below 35.0 V makes the module dark. -/
  | supplyLoss
  /-- DEVICE_RELEASE (R320). After 10 ms of valid input with the cause cleared, the device rails sequence and die images are loaded and checked. -/
  | deviceRelease
  /-- DEVICE_BOOT_COMPLETE (R45). Every die image is loaded and checked; frame 0 starts and HX lets the CXL link train. -/
  | deviceBootComplete (ok : Bool)
  /-- CXL_LINK_TRAINED (R400). The CXL link finishes training and host access begins. -/
  | cxlLinkTrained (port : Fin 2) (lanes : Fin 17) (rate : Fin 3)
  /-- DIE_FATAL (R345). Uncorrectable state or clock loss in an MH, LK, TD or HX die forces a device reset. -/
  | dieFatal (die : Fin 40)
  /-- FABRIC_UE (R345). An uncorrectable die-to-die port error fences a CT die or resets the device. -/
  | fabricUe (die : Fin 40)
  /-- DRAIN_END (R348). Every engine of a fenced pen is idle; undelivered requests are answered HANG_FENCED and the domain reset starts. -/
  | drainEnd (p : PenId)
  /-- DRAIN_TIMEOUT (R345). A drain is incomplete at 100 µs, and the running engines' stalls are fenced. -/
  | drainTimeout (p : PenId)
  /-- PEN_RESET_DONE (R348). A fenced domain's reset completes, and the pen becomes HELD or awaits RUN. -/
  | penResetDone (p : PenId)
  /-- HOST_FENCE (R350). An ERR_PEN_CTRL.FENCE write fences the pen. -/
  | hostFence (p : PenId)
  /-- PEN_RESUME (R350). An ERR_PEN_CTRL.RESUME write returns a HELD pen to RUN at the next frame start. -/
  | penResume (p : PenId)
  /-- FUNCTION_DRAIN_END (R351). A function-disable drain ends; requests are answered FUNCTION_DISABLED and contexts freed. -/
  | functionDrainEnd (f : FnId)
  /-- HOST_RESET (R358). An ERR_DEV_CTRL.RESET write with the key starts a device reset. -/
  | hostReset (noDump : Bool)
  /-- CRASH_CAPTURE_DONE (R358). Crash capture into trough SRAM completes, and the dump write begins. -/
  | crashCaptureDone
  /-- DUMP_WRITE_DONE (R358). The full dump is written to flash, and the dies reset. -/
  | dumpWriteDone
  /-- DUMP_COPY (R361). An ERR_DUMP_CTRL.COPY write starts copying a dump to host memory, or is refused. -/
  | dumpCopy
  /-- DUMP_COPY_DONE (R361). A dump copy completes and COPY_DONE is set. -/
  | dumpCopyDone
  /-- REFETCH_GO (R355). An ERR_RF_CTRL.GO write starts a host refetch of a listed block. -/
  | refetchGo
  /-- HOST_REFETCH_DONE (R356). A host refetch completes, and the block is decoded again. -/
  | hostRefetchDone (m : HubId) (entry : Fin 64) (res : Completion)
  /-- REFETCH_TIMEOUT (R356). No refetch passes within 8 frames, and REFETCH_FAIL is logged. -/
  | refetchTimeout (m : HubId) (entry : Fin 64)
  /-- FLASH_LOG_WRITE (R342). MG writes a taken error record to the flash log. -/
  | flashLogWrite
  /-- PLATFORM_EVENT_SEND (R366). The sheepdog sends an error record as a PLDM PlatformEventMessage. -/
  | platformEventSend (room : Bool)
  /-- CE_STORM (R340). Once a second, a unit whose corrected count exceeds the threshold logs CE_STORM. -/
  | ceStorm (kind : Fin 8) (unit : Fin 192) (fec : Nat)
  /-- SDG_RESET (R345). The sheepdog watchdog is not serviced for 1 s, and the sheepdog domain resets. -/
  | sdgReset
  /-- SHEEPDOG_BOOT (R371). The boot ROM selects and verifies a bank, checks compatibility and starts the sheepdog firmware. -/
  | sheepdogBoot (addr : Fin 4)
  /-- FW_TRIAL_CONFIRM (R377). After 60 s of normal running, a trial bank becomes the active bank. -/
  | fwTrialConfirm
  /-- UPDATE_IDLE_TIMEOUT (R375). An update path idle for 60 s is released. -/
  | updateIdleTimeout
  /-- ARC_COMMIT (R378). A SEC_ARC_COMMIT write with the key starts burning ARC fuses, or is rejected. -/
  | arcCommit (key : BitVec 16)
  /-- ARC_FUSE_BURN (R378). One anti-rollback fuse finishes burning, and the next begins or ARC reaches its target. -/
  | arcFuseBurn
  /-- KEY_RECORD_APPLY (R380). A SEC_KEY_CTRL.APPLY write submits a key record for checking. -/
  | keyRecordApply
  /-- KEY_RECORD_DONE (R380). A key record is applied or refused, and PF vector 8 is raised. -/
  | keyRecordDone (res : Completion)
  /-- GET_FW_INFO (R399). The mailbox reports the firmware slots, active and pending. -/
  | getFwInfo
  /-- TRANSFER_FW (R374). The mailbox starts a background transfer of a firmware package to the non-running slot. -/
  | transferFw (slot : Fin 256) (p : FwPackage)
  /-- TRANSFER_FW_DONE (R376). A transferred package is checked, and its bank is kept or left empty. -/
  | transferFwDone
  /-- ACTIVATE_FW (R376). A checked bank becomes pending for the next device reset. -/
  | activateFw (slot : Fin 256) (online : Bool)
  /-- GET_TIMESTAMP (R399). The mailbox returns the timestamp. -/
  | getTimestamp
  /-- SET_TIMESTAMP (R399). The mailbox sets the timestamp for flash-log entries. -/
  | setTimestamp (t : BitVec 64)
  /-- GET_SUPPORTED_LOGS (R399). The mailbox lists the Command Effects Log. -/
  | getSupportedLogs
  /-- GET_LOG (R399). The mailbox returns the Command Effects Log. -/
  | getLog
  /-- REQUEST_UPDATE (R375). A PLDM RequestUpdate claims the update path out of band. -/
  | requestUpdate (b : Bus) (p : FwPackage)
  /-- ACTIVATE_FIRMWARE (R376). A PLDM ActivateFirmware makes a checked bank pending. -/
  | activateFirmware (b : Bus)
  /-- SET_EVENT_RECEIVER (R366). A PLDM controller enables error and sensor events. -/
  | setEventReceiver (b : Bus) (on : Bool)
  /-- EFFECTER_WRITE (R365). A write to PLDM effecter 1 sets PWR_CAP.CAP_W. -/
  | effecterWrite (b : Bus) (id : Nat) (w : Nat)
  /-- SENSOR_READ (R364). A PLDM request returns a sensor reading from Table 14.2. -/
  | sensorRead (b : Bus) (id : Nat) (now : Fin 256)
  /-- FRU_READ (R364). A PLDM FRU request returns the ordering code, serial, stepping and loft capacity. -/
  | fruRead (b : Bus)
  /-- PLDM_FILE_READ (R361). PLDM file transfer returns the flash log, dumps, manifests or certificates. -/
  | pldmFileRead (b : Bus) (file : MgtFile) (off : Nat) (len : Nat)
  /-- MCTP_EID_ASSIGN (R364). The bus owner assigns the sheepdog's MCTP endpoint ID. -/
  | mctpEidAssign (b : Bus) (eid : BitVec 8)
  /-- GET_VERSION (R381). SPDM returns its supported version. -/
  | getVersion (t : SpdmPort)
  /-- GET_CAPABILITIES (R381). SPDM returns its capabilities. -/
  | getCapabilities (t : SpdmPort)
  /-- NEGOTIATE_ALGORITHMS (R381). SPDM selects Ed448 and SHA3-512. -/
  | negotiateAlgorithms (t : SpdmPort) (offered : Bool)
  /-- GET_DIGESTS (R381). SPDM returns the certificate chain digests. -/
  | getDigests (t : SpdmPort)
  /-- GET_CERTIFICATE (R381). SPDM returns certificate slot 0. -/
  | getCertificate (t : SpdmPort) (slot : Fin 8) (off : Nat) (len : Nat)
  /-- CHALLENGE (R381). SPDM signs a challenge with the identity key. -/
  | challenge (t : SpdmPort) (slot : Fin 8)
  /-- GET_MEASUREMENTS (R382). SPDM returns the measurement indices, signed or unsigned. -/
  | getMeasurements (t : SpdmPort) (i : Fin 256) (sig : Bool)
  /-- KEY_EXCHANGE (R381). An SPDM session key exchange runs on CXL DOE. -/
  | keyExchange
  /-- FINISH (R381). An SPDM session handshake is finished on DOE. -/
  | finish
  /-- END_SESSION (R381). An SPDM session on DOE is ended. -/
  | endSession
  /-- COOLANT_THRESHOLD (R415). A coolant sensor crosses a threshold, and a sensor event is sent. -/
  | coolantThreshold (outlet : Bool) (t : Fin 256)
  /-- HDM_WRITE (R395). A host CXL.mem write to trough SRAM is applied, or filtered by port. -/
  | hdmWrite (port : Fin 2) (off : Nat) (bytes : Bytes) (poison : Bool) (ups : List Upset)
  /-- HDM_READ (R389). A host CXL.mem read of trough SRAM returns data, or zeros if filtered. -/
  | hdmRead (port : Fin 2) (off : Nat) (len : Nat) (ups : List Upset)
  /-- HOST_SNOOP (R385). A host snoop is answered as from a device holding no line. -/
  | hostSnoop (port : Fin 2) (addr : Nat)
  /-- HOST_READ_COMPLETION (R394). A completion for a device-issued host read arrives, or times out, and errors deliver poisoned data. -/
  | hostReadCompletion (n : StallId) (d : Fin 8) (res : Completion)
  /-- DMA_WINDOW_WRITE (R393). A host DMA window register write takes effect for checks begun 1 µs later. -/
  | dmaWindowWrite (f : FnId) (w : Fin 8) (limit : Bool) (value : BitVec 64)
  /-- MSIX_UNMASK (R398). Unmasking an MSI-X vector sends its pending message. -/
  | msixUnmask (f : FnId) (v : Fin 2048)
  /-- PERST_DEASSERT (R387). PERST_N[0] deasserts, and HOST_BIFUR is sampled. -/
  | perstDeassert (port : Fin 2) (bifur : Bool)
  /-- PERST_ASSERT (R390). PERST_N asserts, resetting the device (port 0) or disabling port 1 functions. -/
  | perstAssert (port : Fin 2)
  /-- FLR (R390). An FLR resets the device for the PF, or disables a VF or port 1 functions. -/
  | flr (f : HostFn)
  /-- CXL_RESET (R390). A CXL Reset of port 0 resets the device; of port 1 it disables that port's functions. -/
  | cxlReset (port : Fin 2)
  /-- CXL_LINK_DOWN_TIMEOUT (R390). A port link down for more than 1 ms disables that port's functions. -/
  | cxlLinkDownTimeout (port : Fin 2)
  /-- VF_ENABLE (R352). VF Enable brings VFs into service, and windows of disabled functions are reset. -/
  | vfEnable (port : Fin 2) (num : Fin 64)
  /-- VF_DISABLE (R352). VF disable clears the VFs' windows and disables them. -/
  | vfDisable (port : Fin 2)
  /-- D3HOT (R385). The PF entering D3hot disables every function. -/
  | d3hot
  /-- RC_FIELD_READ (R7). A read of an RC field returns its value and clears it, or sets it to all ones for a running minimum. -/
  | rcFieldRead (sp : Space) (addr : Nat) (size : Nat)
  /-- LOW_WORD_READ (R396). A 4 B read of a 64-bit register's low word latches its high word. -/
  | lowWordRead (sp : Space) (addr : Nat)
  /-- REGISTER_WRITE (R6). A write to a register without a row of its own acts as its access code states. -/
  | registerWrite (sp : Space) (addr : Nat) (size : Nat) (value : Nat)
  /-- SAG_N_RISE (R408). An externally driven low on SAG_N rises while SAG_WARN is held, and the 1 ms release timer restarts. -/
  | sagNRise
  /-- INPUT_RELEASE_LEVEL (R315). The input voltage crosses a release level (52.0 V, 48.0 V or 65.0 V) in either direction, starting or stopping that condition's release timer. -/
  | inputReleaseLevel (l : InLevel) (ok : Bool)
  /-- KV_SPILL_SPAN (R253). A background copy of a context's pages to loft pages completes, and its entries are marked STATE 1 (reclamation, or a mode 0 pause). -/
  | kvSpillSpan (p : PenId)
  /-- BULK_COPY_DONE (R309). The SYNCING active side finishes its background copy of context records, pages and directory to the partner. -/
  | bulkCopyDone (p : PenId)
  /-- DEBUG_TOKEN (R383). A debug token is delivered over the management pair and kept for the check at the next sheepdog boot. -/
  | debugToken (b : Bus) (t : DebugTok)
  /-- CXL_IDE_KM (R385). A CXL_IDE_KM message in an SPDM session on DOE programs or activates IDE keys for a port. -/
  | cxlIdeKm (port : Fin 2) (stream : Fin 2) (op : IdeOp)
  /-- DYNAMIC_ADDRESS_ASSIGN (R364). An I3C controller assigns the sheepdog a dynamic address, shown in SDG_MGMT.I3C_DA. -/
  | dynamicAddressAssign (addr : BitVec 7)
deriving DecidableEq, Repr

end Sys2Proof
end

