-- ==== Sys2Proof/Machine/Tbl.lean ====
section
/-! DEFINITION. Reading and writing a sparse table (device memory, host memory, poison marks, the register store and
every numbered unit of the module are such tables). -/

namespace Sys2Proof.Machine

variable {α : Type}

/-- The value at key `k`, `d` where nothing is listed. -/
def Tbl.get (d : α) (k : Nat) : Tbl α → α
  | [] => d
  | (a, x) :: t => if a = k then x else Tbl.get d k t

/-- The value at key `k`, if one is listed. -/
def Tbl.find? (k : Nat) : Tbl α → Option α
  | [] => none
  | (a, x) :: t => if a = k then some x else Tbl.find? k t

/-- The table without key `k`. -/
def Tbl.erase (k : Nat) (t : Tbl α) : Tbl α := t.filter fun kv => decide (kv.1 ≠ k)

/-- The table with `v` at key `k`, keys kept rising. -/
def Tbl.insert (k : Nat) (v : α) : Tbl α → Tbl α
  | [] => [(k, v)]
  | (a, x) :: t =>
    if k < a then (k, v) :: (a, x) :: t else if a = k then (k, v) :: t else (a, x) :: Tbl.insert k v t

/-- Writing `v` at key `k` of a table whose unlisted keys read `d`: writing `d` removes the entry, so that equal
tables are equal data. -/
def Tbl.set [DecidableEq α] (d : α) (k : Nat) (v : α) (t : Tbl α) : Tbl α :=
  if v = d then Tbl.erase k t else Tbl.insert k v t

/-- One value of the table changed by `f`. -/
def Tbl.modify [DecidableEq α] (d : α) (k : Nat) (f : α → α) (t : Tbl α) : Tbl α :=
  Tbl.set d k (f (Tbl.get d k t)) t

/-- Every listed key is above `b`, keys rise strictly and no listed value is `d`. -/
def Tbl.wfAbove [DecidableEq α] (d : α) : Option Nat → Tbl α → Bool
  | _, [] => true
  | none, (a, x) :: t => decide (x ≠ d) && Tbl.wfAbove d (some a) t
  | some b, (a, x) :: t => decide (b < a) && decide (x ≠ d) && Tbl.wfAbove d (some a) t

/-- The canonical form of a sparse table whose unlisted keys read `d`. -/
def Tbl.wf [DecidableEq α] (d : α) (t : Tbl α) : Bool := Tbl.wfAbove d none t

end Sys2Proof.Machine
end

