-- ==== Sys2Proof/Machine/Regs.lean ====
section
/-! DEFINITION. Every register field of the register tables (Tables 0.1, 2.12 to 15.7): its PF BAR0 place (Table 15.3),
access code (R6) and reset value. One row of the tables is one definition, named as the manual names register and field. -/

namespace Sys2Proof.Machine

/-- The access codes of Table 0.3 (R6). -/
inductive Acc where
  | RO | RW | W1C | RC | RWT | HW
deriving DecidableEq, Repr

/-- One field of a register table. `addr` is the PF BAR0 offset of its register's first instance; instance
`i * n2 + j` lies at `addr + i * s1 + j * s2`. `id` numbers the fields in table order. -/
structure Fld where
  id    : Nat
  addr  : Nat
  n1    : Nat
  s1    : Nat
  n2    : Nat
  s2    : Nat
  lo    : Nat
  width : Nat
  acc   : Acc
  reset : Nat
deriving DecidableEq, Repr

/-- The place of instance `i` of a field's register in PF BAR0 (Table 15.3). -/
def Fld.instAddr (f : Fld) (i : Nat) : Nat := f.addr + (i / f.n2) * f.s1 + (i % f.n2) * f.s2

/-- How many instances the field has. -/
def Fld.count (f : Fld) : Nat := f.n1 * f.n2

namespace R


/-! Table 0.1 (00_scope.md). -/

/-- Hardware stepping code. The firmware compatibility check in Sheepdog, Firmware and Security matches on this … Fused: DESIGN CHOICE, log 4. -/
def HIF_MODULE_ID_STEPPING : Fld := ⟨0, 0x0, 1, 0x0, 1, 0x0, 16, 8, .RO, 0x0⟩
/-- Loft capacity in TiB: 0x1 on IF-4016-ZA, 0x2 on IF-4016-ZL. Fused: DESIGN CHOICE, log 4. -/
def HIF_MODULE_ID_LOFT_TIB : Fld := ⟨1, 0x0, 1, 0x0, 1, 0x0, 12, 4, .RO, 0x1⟩
/-- 0x1 = IF-4016-ZA; 0x2 = IF-4016-ZL. All other values are reserved. Fused: DESIGN CHOICE, log 4. -/
def HIF_MODULE_ID_VARIANT : Fld := ⟨2, 0x0, 1, 0x0, 1, 0x0, 8, 4, .RO, 0x1⟩
/-- Module model identifier of the IF-4016. -/
def HIF_MODULE_ID_MODEL : Fld := ⟨3, 0x0, 1, 0x0, 1, 0x0, 0, 8, .RO, 0x40⟩

/-! Table 2.12 (02_truss_image.md). -/

/-- A write of 1 starts a load. Hardware clears it when the load leaves IDLE or is refused with BUSY. -/
def TRS_CTRL_START : Fld := ⟨4, 0x10000, 1, 0x0, 1, 0x0, 0, 1, .RW, 0x0⟩
/-- Requests quiescence (R46). Hardware clears it at a whole-device commit. -/
def TRS_CTRL_QUIESCE : Fld := ⟨5, 0x10000, 1, 0x0, 1, 0x0, 1, 1, .RW, 0x0⟩
/-- A write of 1 cancels a load under R50. Hardware clears it. -/
def TRS_CTRL_ABORT : Fld := ⟨6, 0x10000, 1, 0x0, 1, 0x0, 2, 1, .RW, 0x0⟩
/-- Host address of the image, bits [31:0]; bits [2:0] must be 0. The register keeps the value written; a load … -/
def TRS_SRC_ADDR_LO_ADDR_LO : Fld := ⟨7, 0x10008, 1, 0x0, 1, 0x0, 0, 32, .RW, 0x0⟩
/-- Host address, bits [63:32]. -/
def TRS_SRC_ADDR_HI_ADDR_HI : Fld := ⟨8, 0x1000c, 1, 0x0, 1, 0x0, 0, 32, .RW, 0x0⟩
/-- Image length in bytes. -/
def TRS_SRC_LEN_LEN : Fld := ⟨9, 0x10010, 1, 0x0, 1, 0x0, 0, 32, .RW, 0x0⟩
/-- 0 IDLE, 1 FETCH, 2 VERIFY, 3 VALIDATE, 4 PENDING, 5 COMMIT, 6 SCRUB. -/
def TRS_STATUS_STATE : Fld := ⟨10, 0x10018, 1, 0x0, 1, 0x0, 0, 4, .HW, 0x0⟩
/-- Device quiesced (R46). -/
def TRS_STATUS_QUIESCED : Fld := ⟨11, 0x10018, 1, 0x0, 1, 0x0, 4, 1, .HW, 0x0⟩
/-- A truss image is in force. -/
def TRS_STATUS_IN_FORCE : Fld := ⟨12, 0x10018, 1, 0x0, 1, 0x0, 5, 1, .HW, 0x0⟩
/-- The last load committed. -/
def TRS_STATUS_DONE : Fld := ⟨13, 0x10018, 1, 0x0, 1, 0x0, 6, 1, .W1C, 0x0⟩
/-- The last load was rejected or cancelled. -/
def TRS_STATUS_FAIL : Fld := ⟨14, 0x10018, 1, 0x0, 1, 0x0, 7, 1, .W1C, 0x0⟩
/-- Code from Table 2.9; 0x00 after a success. -/
def TRS_STATUS_ERR_CODE : Fld := ⟨15, 0x10018, 1, 0x0, 1, 0x0, 8, 8, .HW, 0x0⟩
/-- Directory index at fault; 0xFF for the header. -/
def TRS_STATUS_ERR_SECTION : Fld := ⟨16, 0x10018, 1, 0x0, 1, 0x0, 16, 8, .HW, 0x0⟩
/-- A non-critical unknown section was skipped. -/
def TRS_STATUS_SKIPPED : Fld := ⟨17, 0x10018, 1, 0x0, 1, 0x0, 24, 1, .W1C, 0x0⟩
/-- A START was refused with BUSY; no other status field reports the refusal (R43). -/
def TRS_STATUS_BUSY_REFUSED : Fld := ⟨18, 0x10018, 1, 0x0, 1, 0x0, 25, 1, .W1C, 0x0⟩
/-- Byte offset in the image of the failing field. -/
def TRS_ERR_DETAIL_OFFSET : Fld := ⟨19, 0x1001c, 1, 0x0, 1, 0x0, 0, 32, .HW, 0x0⟩
/-- IMAGE_SERIAL of the last committed image; updated at each commit. Read as two 32-bit words, low word first. -/
def TRS_SERIAL_SERIAL : Fld := ⟨20, 0x10020, 1, 0x0, 1, 0x0, 0, 64, .HW, 0x0⟩
/-- IMAGE_SERIAL of the last committed whole-device image; updated at each whole-device commit. -/
def TRS_BASE_SERIAL_BASE : Fld := ⟨21, 0x10028, 1, 0x0, 1, 0x0, 0, 64, .HW, 0x0⟩
/-- Frame number at which the last commit took effect. -/
def TRS_COMMIT_FRAME_FRAME : Fld := ⟨22, 0x10030, 1, 0x0, 1, 0x0, 0, 64, .HW, 0x0⟩
/-- T_frame in µs. Truss: log 5. -/
def TRS_TIMING_T_FRAME_US : Fld := ⟨23, 0x10038, 1, 0x0, 1, 0x0, 0, 14, .RWT, 0x3e8⟩
/-- Lap length in µs. Truss: log 5. -/
def TRS_TIMING_LAP_US : Fld := ⟨24, 0x10038, 1, 0x0, 1, 0x0, 16, 12, .RWT, 0x0⟩
/-- DEVICE_ID from Table 2.4; 0xFFFF while no image is in force (R45). Truss: log 5. -/
def TRS_DEVICE_DEVICE_ID : Fld := ⟨25, 0x1003c, 1, 0x0, 1, 0x0, 0, 16, .RWT, 0xffff⟩
/-- Loads rejected or cancelled, saturating at 0xFFFF. -/
def TRS_FAIL_COUNT_FAILS : Fld := ⟨26, 0x10040, 1, 0x0, 1, 0x0, 0, 16, .RC, 0x0⟩

/-! Table 2.13 (02_truss_image.md). -/

/-- The pen is defined by the image in force. -/
def PEN_STATE_PRESENT : Fld := ⟨27, 0x11000, 16, 0x100, 1, 0x0, 0, 1, .HW, 0x0⟩
/-- A per-pen image for this pen is PENDING or in COMMIT. -/
def PEN_STATE_LOAD_PENDING : Fld := ⟨28, 0x11000, 16, 0x100, 1, 0x0, 1, 1, .HW, 0x0⟩
/-- Intake is refused for a heavy commit (R49). -/
def PEN_STATE_REFUSING : Fld := ⟨29, 0x11000, 16, 0x100, 1, 0x0, 2, 1, .HW, 0x0⟩
/-- Effective KV policy: 1 spill to loft, 2 drop and recompute (R36). Truss: log 5. -/
def PEN_CTRL_KV_POLICY_EFF : Fld := ⟨30, 0x11004, 16, 0x100, 1, 0x0, 0, 2, .RWT, 0x0⟩
/-- PLAN_MASK. Truss: log 5. -/
def PEN_CTRL_PLAN_MASK : Fld := ⟨31, 0x11004, 16, 0x100, 1, 0x0, 8, 8, .RWT, 0x0⟩
/-- CTX_MAX. Truss: log 5. -/
def PEN_CTRL_CTX_MAX : Fld := ⟨32, 0x11004, 16, 0x100, 1, 0x0, 16, 13, .RWT, 0x0⟩
/-- STALL_QUADS [31:0]. Truss: log 5. -/
def PEN_QUADS_LO_QUADS_LO : Fld := ⟨33, 0x11008, 16, 0x100, 1, 0x0, 0, 32, .RWT, 0x0⟩
/-- STALL_QUADS [47:32]. Truss: log 5. -/
def PEN_QUADS_HI_QUADS_HI : Fld := ⟨34, 0x1100c, 16, 0x100, 1, 0x0, 0, 16, .RWT, 0x0⟩
/-- PORT_MASK. Truss: log 5. -/
def PEN_PORTS_PORT_MASK : Fld := ⟨35, 0x11010, 16, 0x100, 1, 0x0, 0, 18, .RWT, 0x0⟩
/-- Byte m is the share on MH m, in MiB. Truss: log 5. -/
def PEN_HUB_SHARE_SHARE : Fld := ⟨36, 0x11018, 16, 0x100, 1, 0x0, 0, 64, .RWT, 0x0⟩
/-- IMAGE_SERIAL of the image that last set this pen; updated at each commit that sets it. -/
def PEN_SERIAL_SERIAL : Fld := ⟨37, 0x11020, 16, 0x100, 1, 0x0, 0, 64, .HW, 0x0⟩
/-- [31:0] START and [63:32] COUNT of HBM range i, i = 0–7; 0 when unused. Truss: log 5. -/
def PEN_HBM_RANGE_RANGE : Fld := ⟨38, 0x11040, 16, 0x100, 8, 0x8, 0, 64, .RWT, 0x0⟩
/-- [31:0] START and [63:32] COUNT of loft range j, j = 0–3; 0 when unused. Truss: log 5. -/
def PEN_LOFT_RANGE_RANGE : Fld := ⟨39, 0x11080, 16, 0x100, 4, 0x8, 0, 64, .RWT, 0x0⟩
/-- SAVE_RANGE index. Truss: log 5. -/
def PEN_SAVE_SAVE_RANGE : Fld := ⟨40, 0x110a0, 16, 0x100, 1, 0x0, 0, 3, .RWT, 0x0⟩
/-- PLAN_ABI in force for the pen (R51). Truss: log 5. -/
def PEN_SAVE_PLAN_ABI : Fld := ⟨41, 0x110a0, 16, 0x100, 1, 0x0, 16, 16, .RWT, 0x0⟩

/-! Table 3.8 (03_frames.md). -/

/-- Current frame number (R53). Read as two 32-bit words, low word first; the high word is latched by the … -/
def FSQ_FRAME_FRAME : Fld := ⟨42, 0x12000, 1, 0x0, 1, 0x0, 0, 64, .HW, 0x0⟩
/-- Current sub-tick, 0–7. -/
def FSQ_TICK_SUBTICK : Fld := ⟨43, 0x12008, 1, 0x0, 1, 0x0, 0, 3, .HW, 0x0⟩
/-- Whole µs since the current frame start. -/
def FSQ_TICK_ELAPSED_US : Fld := ⟨44, 0x12008, 1, 0x0, 1, 0x0, 8, 14, .HW, 0x0⟩
/-- Resident contexts per pen (32). -/
def FSQ_CAPS_RESIDENT : Fld := ⟨45, 0x1200c, 1, 0x0, 1, 0x0, 0, 8, .RO, 0x20⟩
/-- Plan slots per pen. -/
def FSQ_CAPS_SLOTS : Fld := ⟨46, 0x1200c, 1, 0x0, 1, 0x0, 8, 8, .RO, 0x8⟩
/-- Highest PLAN_ABI supported by the sequencer microcode (R418). Fused: DESIGN CHOICE, log 4. -/
def FSQ_CAPS_PLAN_ABI_MAX : Fld := ⟨47, 0x1200c, 1, 0x0, 1, 0x0, 16, 16, .RO, 0x1⟩
/-- Lowest PLAN_ABI supported by the sequencer microcode (R418). Fused: DESIGN CHOICE, log 4. -/
def FSQ_CAPS2_PLAN_ABI_MIN : Fld := ⟨48, 0x12010, 1, 0x0, 1, 0x0, 0, 16, .RO, 0x1⟩

/-! Table 3.9 (03_frames.md). -/

/-- Slot of the current frame (R62). -/
def FSQ_STATE_SLOT_SEL : Fld := ⟨49, 0x12100, 16, 0x100, 1, 0x0, 0, 3, .HW, 0x0⟩
/-- The current frame is idle (R64). -/
def FSQ_STATE_IDLE_FRAME : Fld := ⟨50, 0x12100, 16, 0x100, 1, 0x0, 3, 1, .HW, 0x0⟩
/-- The current frame is slipped (R80). -/
def FSQ_STATE_SLIPPED : Fld := ⟨51, 0x12100, 16, 0x100, 1, 0x0, 4, 1, .HW, 0x0⟩
/-- The pen is in the guarantee-suspended state (R75). -/
def FSQ_STATE_SUSPENDED : Fld := ⟨52, 0x12100, 16, 0x100, 1, 0x0, 5, 1, .HW, 0x0⟩
/-- Cause: thermal trip. -/
def FSQ_STATE_SUSP_THERMAL : Fld := ⟨53, 0x12100, 16, 0x100, 1, 0x0, 6, 1, .HW, 0x0⟩
/-- Cause: SAG_WARN. -/
def FSQ_STATE_SUSP_SAG : Fld := ⟨54, 0x12100, 16, 0x100, 1, 0x0, 7, 1, .HW, 0x0⟩
/-- Cause: yoke takeover replay. -/
def FSQ_STATE_SUSP_TAKEOVER : Fld := ⟨55, 0x12100, 16, 0x100, 1, 0x0, 8, 1, .HW, 0x0⟩
/-- Cause: another clock-floor breach named in Power, Supply Sag and Thermal Control. -/
def FSQ_STATE_SUSP_OTHER : Fld := ⟨56, 0x12100, 16, 0x100, 1, 0x0, 9, 1, .HW, 0x0⟩
/-- Resident contexts, 0–32. -/
def FSQ_STATE_RESIDENT : Fld := ⟨57, 0x12100, 16, 0x100, 1, 0x0, 16, 6, .HW, 0x0⟩
/-- Resident contexts in BLOCKED, 0–32. -/
def FSQ_STATE_BLOCKED : Fld := ⟨58, 0x12100, 16, 0x100, 1, 0x0, 22, 6, .HW, 0x0⟩
/-- Rota length minus 1. -/
def FSQ_ROTA_CTRL_LEN_M1 : Fld := ⟨59, 0x12104, 16, 0x100, 1, 0x0, 0, 4, .RW, 0x0⟩
/-- A write of 1 applies the rota at the next frame start (R62). Hardware clears it when the rota takes effect or … -/
def FSQ_ROTA_CTRL_APPLY : Fld := ⟨60, 0x12104, 16, 0x100, 1, 0x0, 4, 1, .RW, 0x0⟩
/-- The last APPLY was rejected (R63). -/
def FSQ_ROTA_CTRL_REJECT : Fld := ⟨61, 0x12104, 16, 0x100, 1, 0x0, 5, 1, .W1C, 0x0⟩
/-- Entry i in bits [4i+2:4i], i = 0–7; bit 4i+3 reserved. -/
def FSQ_ROTA_LO_ENTRY0_7 : Fld := ⟨62, 0x12108, 16, 0x100, 1, 0x0, 0, 32, .RW, 0x0⟩
/-- Entry 8+i in bits [4i+2:4i]; bit 4i+3 reserved. -/
def FSQ_ROTA_HI_ENTRY8_15 : Fld := ⟨63, 0x1210c, 16, 0x100, 1, 0x0, 0, 32, .RW, 0x0⟩
/-- Frame at which the rota in force took effect. -/
def FSQ_ROTA_FRAME_F_A : Fld := ⟨64, 0x12110, 16, 0x100, 1, 0x0, 0, 64, .HW, 0x0⟩
/-- Host address of the plan; bits [2:0] must be 0. The register keeps the value written; an installation started … -/
def FSQ_PLAN_SRC_SRC : Fld := ⟨65, 0x12118, 16, 0x100, 1, 0x0, 0, 64, .RW, 0x0⟩
/-- Device physical address for the plan; bits [11:0] must be 0. -/
def FSQ_PLAN_DST_DST : Fld := ⟨66, 0x12120, 16, 0x100, 1, 0x0, 0, 48, .RW, 0x0⟩
/-- Plan length in bytes. -/
def FSQ_PLAN_LEN_LEN : Fld := ⟨67, 0x12128, 16, 0x100, 1, 0x0, 0, 32, .RW, 0x0⟩
/-- Target slot. -/
def FSQ_PLAN_CMD_SLOT : Fld := ⟨68, 0x1212c, 16, 0x100, 1, 0x0, 0, 3, .RW, 0x0⟩
/-- A write of 1 starts an installation. Hardware clears it once it has acted on the write: when the installation … -/
def FSQ_PLAN_CMD_START : Fld := ⟨69, 0x1212c, 16, 0x100, 1, 0x0, 3, 1, .RW, 0x0⟩
/-- A write of 1 cancels an installation before staging. Hardware clears it. -/
def FSQ_PLAN_CMD_ABORT : Fld := ⟨70, 0x1212c, 16, 0x100, 1, 0x0, 4, 1, .RW, 0x0⟩
/-- 0 IDLE, 1 FETCH, 2 DIGEST, 3 CHECK, 4 STAGED. -/
def FSQ_PLAN_STATUS_STATE : Fld := ⟨71, 0x12130, 16, 0x100, 1, 0x0, 0, 3, .HW, 0x0⟩
/-- The last installation took effect (R59). -/
def FSQ_PLAN_STATUS_DONE : Fld := ⟨72, 0x12130, 16, 0x100, 1, 0x0, 3, 1, .W1C, 0x0⟩
/-- The last installation was rejected at checks 2–8 or cancelled. -/
def FSQ_PLAN_STATUS_FAIL : Fld := ⟨73, 0x12130, 16, 0x100, 1, 0x0, 4, 1, .W1C, 0x0⟩
/-- A START was refused with BUSY; no other field reports the refusal (R59). -/
def FSQ_PLAN_STATUS_BUSY_REFUSED : Fld := ⟨74, 0x12130, 16, 0x100, 1, 0x0, 5, 1, .W1C, 0x0⟩
/-- Code from Table 3.4; 0x00 after a success. -/
def FSQ_PLAN_STATUS_ERR_CODE : Fld := ⟨75, 0x12130, 16, 0x100, 1, 0x0, 8, 8, .HW, 0x0⟩
/-- Bit i: slot i is selectable (R39). -/
def FSQ_PLAN_STATUS_READY_MASK : Fld := ⟨76, 0x12130, 16, 0x100, 1, 0x0, 16, 8, .HW, 0x0⟩
/-- Bit i: slot i is STALE (R60). -/
def FSQ_PLAN_STATUS_STALE_MASK : Fld := ⟨77, 0x12130, 16, 0x100, 1, 0x0, 24, 8, .HW, 0x0⟩
/-- Command watchdog firings (R78), saturating. -/
def FSQ_WDOG_COUNT_COUNT : Fld := ⟨78, 0x12134, 16, 0x100, 1, 0x0, 0, 16, .RC, 0x0⟩
/-- FRAME_OVERRUN events (R79), saturating. -/
def FSQ_OVERRUN_COUNT_OVERRUN : Fld := ⟨79, 0x12138, 16, 0x100, 1, 0x0, 0, 16, .RC, 0x0⟩
/-- Frames whose body ended after the next frame start, saturating. -/
def FSQ_OVERRUN_COUNT_BODY_LATE : Fld := ⟨80, 0x12138, 16, 0x100, 1, 0x0, 16, 16, .RC, 0x0⟩
/-- Contexts swapped in, saturating. -/
def FSQ_SWAP_COUNT_SWAPS : Fld := ⟨81, 0x1213c, 16, 0x100, 1, 0x0, 0, 32, .RC, 0x0⟩
/-- Swap-ins abandoned for U0 (R71), saturating. -/
def FSQ_SWAP_ABORT_ABORTS : Fld := ⟨82, 0x12140, 16, 0x100, 1, 0x0, 0, 16, .RC, 0x0⟩
/-- CTX_RECORD_BAD events (R72), saturating. -/
def FSQ_SWAP_ABORT_CTX_BAD : Fld := ⟨83, 0x12140, 16, 0x100, 1, 0x0, 16, 16, .RC, 0x0⟩
/-- Longest swap set since last read, in units of 0.01 µs. -/
def FSQ_SWAP_MAX_MAX : Fld := ⟨84, 0x12144, 16, 0x100, 1, 0x0, 0, 16, .RC, 0x0⟩
/-- Idle frames (R64), saturating. -/
def FSQ_FRAME_COUNTS_IDLE_FRAMES : Fld := ⟨85, 0x12148, 16, 0x100, 1, 0x0, 0, 16, .RC, 0x0⟩
/-- Slipped frames (R80), saturating. -/
def FSQ_FRAME_COUNTS_SLIPPED : Fld := ⟨86, 0x12148, 16, 0x100, 1, 0x0, 16, 16, .RC, 0x0⟩
/-- Records held under R65, counted once per record per sweep, saturating. Holds at check 14 of Table 9.4 are … -/
def FSQ_HELD_HELD : Fld := ⟨87, 0x1214c, 16, 0x100, 1, 0x0, 0, 32, .RC, 0x0⟩
/-- Last frame of the pen whose tail completed. -/
def FSQ_TAIL_DONE_FRAME : Fld := ⟨88, 0x12150, 16, 0x100, 1, 0x0, 0, 64, .HW, 0x0⟩

/-! Table 4.10 (04_ternary_arithmetic.md). -/

/-- A TDA_MAC command is executing. -/
def STL_STATUS_TDA_BUSY : Fld := ⟨89, 0x20000, 192, 0x80, 1, 0x0, 0, 1, .HW, 0x0⟩
/-- The second mask buffer holds a prefetched tile (R100). -/
def STL_STATUS_PREFETCH_VALID : Fld := ⟨90, 0x20000, 192, 0x80, 1, 0x0, 1, 1, .HW, 0x0⟩
/-- Bit i: TDA bank i is owned by an open chain. -/
def STL_STATUS_TDA_BANK_OWNED : Fld := ⟨91, 0x20000, 192, 0x80, 1, 0x0, 2, 4, .HW, 0x0⟩
/-- Bit i: poison bit of TDA bank i (R94). -/
def STL_STATUS_TDA_BANK_POISON : Fld := ⟨92, 0x20000, 192, 0x80, 1, 0x0, 6, 4, .HW, 0x0⟩
/-- A LUT_ACC command is executing. -/
def STL_STATUS_LUT_BUSY : Fld := ⟨93, 0x20000, 192, 0x80, 1, 0x0, 10, 1, .HW, 0x0⟩
/-- Bit i: table-path bank i is owned. -/
def STL_STATUS_LUT_BANK_OWNED : Fld := ⟨94, 0x20000, 192, 0x80, 1, 0x0, 11, 2, .HW, 0x0⟩
/-- Bit i: poison bit of table-path bank i. -/
def STL_STATUS_LUT_BANK_POISON : Fld := ⟨95, 0x20000, 192, 0x80, 1, 0x0, 13, 2, .HW, 0x0⟩
/-- TDA_MAC commands completed, saturating. -/
def STL_TDA_CMDS_CMDS : Fld := ⟨96, 0x20004, 192, 0x80, 1, 0x0, 0, 32, .RC, 0x0⟩
/-- ACLK cycles from command start to completion, summed over TDA_MAC commands. -/
def STL_TDA_CYCLES_CYCLES : Fld := ⟨97, 0x20008, 192, 0x80, 1, 0x0, 0, 64, .RC, 0x0⟩
/-- Lane-group plane slots executed. -/
def STL_TDA_SLOTS_RUN_RUN : Fld := ⟨98, 0x20010, 192, 0x80, 1, 0x0, 0, 64, .RC, 0x0⟩
/-- Lane-group plane slots skipped (R97). -/
def STL_TDA_SLOTS_SKIP_SKIP : Fld := ⟨99, 0x20018, 192, 0x80, 1, 0x0, 0, 64, .RC, 0x0⟩
/-- Lane-group cycles gated while waiting for the join (R98). -/
def STL_TDA_GATED_GATED : Fld := ⟨100, 0x20020, 192, 0x80, 1, 0x0, 0, 64, .RC, 0x0⟩
/-- TDA saturations (R93). -/
def STL_SAT_TDA_SAT : Fld := ⟨101, 0x20028, 192, 0x80, 1, 0x0, 0, 16, .RC, 0x0⟩
/-- Table-path saturations. -/
def STL_SAT_LUT_SAT : Fld := ⟨102, 0x20028, 192, 0x80, 1, 0x0, 16, 16, .RC, 0x0⟩
/-- TRIT_COMBINE saturations (R109). -/
def STL_SAT2_COMBINE_SAT : Fld := ⟨103, 0x2002c, 192, 0x80, 1, 0x0, 0, 16, .RC, 0x0⟩
/-- Block shifts clamped (R87). -/
def STL_SAT2_BEXP_CLAMP : Fld := ⟨104, 0x2002c, 192, 0x80, 1, 0x0, 16, 16, .RC, 0x0⟩
/-- Corrupt quintet bytes (R81). -/
def STL_BAD_QUINTET_BAD : Fld := ⟨105, 0x20030, 192, 0x80, 1, 0x0, 0, 16, .RC, 0x0⟩
/-- Invalid table words (R103). -/
def STL_BAD_LUT_BAD : Fld := ⟨106, 0x20030, 192, 0x80, 1, 0x0, 16, 16, .RC, 0x0⟩
/-- Malformed commands, all three opcodes. -/
def STL_FAULT_CMD_MALFORMED : Fld := ⟨107, 0x20034, 192, 0x80, 1, 0x0, 0, 16, .RC, 0x0⟩
/-- Ownership faults, both engines (R92). -/
def STL_FAULT_ACC_OWNER : Fld := ⟨108, 0x20034, 192, 0x80, 1, 0x0, 16, 16, .RC, 0x0⟩
/-- Prefetched tiles used. -/
def STL_PREFETCH_HIT : Fld := ⟨109, 0x20038, 192, 0x80, 1, 0x0, 0, 16, .RC, 0x0⟩
/-- Prefetched tiles discarded (R100). -/
def STL_PREFETCH_DISCARD : Fld := ⟨110, 0x20038, 192, 0x80, 1, 0x0, 16, 16, .RC, 0x0⟩
/-- LUT_ACC commands completed, saturating. -/
def STL_LUT_CMDS_CMDS : Fld := ⟨111, 0x2003c, 192, 0x80, 1, 0x0, 0, 32, .RC, 0x0⟩
/-- ACLK cycles spent in LUT_ACC commands. -/
def STL_LUT_CYCLES_CYCLES : Fld := ⟨112, 0x20040, 192, 0x80, 1, 0x0, 0, 64, .RC, 0x0⟩
/-- Last event of Table 4.9 that was logged: 0x01 QUINTET_BAD, 0x02 LUT_BAD, 0x03 CMD_MALFORMED, 0x04 ACC_OWNER. -/
def STL_LAST_ERR_CODE : Fld := ⟨113, 0x20048, 192, 0x80, 1, 0x0, 0, 8, .HW, 0x0⟩
/-- Low 24 bits of the task index of that command. -/
def STL_LAST_ERR_TASK : Fld := ⟨114, 0x20048, 192, 0x80, 1, 0x0, 8, 24, .HW, 0x0⟩
/-- Zero-bit skipping enabled (R97, R112). -/
def STL_CTRL_SKIP_EN : Fld := ⟨115, 0x2004c, 192, 0x80, 1, 0x0, 0, 1, .RW, 0x1⟩
/-- Tile prefetch enabled (R100, R112). -/
def STL_CTRL_PREFETCH_EN : Fld := ⟨116, 0x2004c, 192, 0x80, 1, 0x0, 1, 1, .RW, 0x1⟩

/-! Table 5.11 (05_lns_formats_outliers.md). -/

/-- LNU_OP commands completed. -/
def STL_LNU_CMDS_CMDS : Fld := ⟨117, 0x20050, 192, 0x80, 1, 0x0, 0, 32, .RC, 0x0⟩
/-- LNS saturations (R116, R136). -/
def STL_LNS_EVT_LNS_SAT : Fld := ⟨118, 0x20054, 192, 0x80, 1, 0x0, 0, 16, .RC, 0x0⟩
/-- LNS underflows to zero. -/
def STL_LNS_EVT_LNS_UFL : Fld := ⟨119, 0x20054, 192, 0x80, 1, 0x0, 16, 16, .RC, 0x0⟩
/-- Values clamped without capture (R131). -/
def STL_NARROW_CONV_SAT : Fld := ⟨120, 0x20058, 192, 0x80, 1, 0x0, 0, 16, .RC, 0x0⟩
/-- Outliers clamped for want of a slot (R135). -/
def STL_NARROW_OSP_OVERFLOW : Fld := ⟨121, 0x20058, 192, 0x80, 1, 0x0, 16, 16, .RC, 0x0⟩
/-- Outlier slots written valid. -/
def STL_OSP_USED : Fld := ⟨122, 0x2005c, 192, 0x80, 1, 0x0, 0, 16, .RC, 0x0⟩
/-- Slots ignored under R136. -/
def STL_OSP_BAD : Fld := ⟨123, 0x2005c, 192, 0x80, 1, 0x0, 16, 16, .RC, 0x0⟩
/-- Bit i: range alarm of tensor i; bit 63: raw outputs (R133). -/
def STL_RANGE_ALARM_ALARM : Fld := ⟨124, 0x20060, 192, 0x80, 1, 0x0, 0, 64, .W1C, 0x0⟩
/-- Frame number of the most recent alarm raised. -/
def STL_ALARM_FRAME_FRAME : Fld := ⟨125, 0x20068, 192, 0x80, 1, 0x0, 0, 64, .HW, 0x0⟩
/-- Bit i: conversion descriptor i is valid (R129). -/
def STL_CVD_VALID_VALID : Fld := ⟨126, 0x20070, 192, 0x80, 1, 0x0, 0, 16, .HW, 0x0⟩
/-- Malformed LNU_OP, CVD_LOAD, GEN_BIND and GEN_UNBIND commands. -/
def STL_LNU_FAULT_MALFORMED : Fld := ⟨127, 0x20074, 192, 0x80, 1, 0x0, 0, 16, .RC, 0x0⟩
/-- GEN_UNBOUND and GEN_RANGE events in this stall. -/
def STL_LNU_FAULT_GEN_FAULT : Fld := ⟨128, 0x20074, 192, 0x80, 1, 0x0, 16, 16, .RC, 0x0⟩

/-! Table 5.12 (05_lns_formats_outliers.md). -/

/-- The generator is bound. -/
def GEN_STATE_BOUND : Fld := ⟨129, 0x30000, 192, 0x100, 8, 0x20, 0, 1, .HW, 0x0⟩
/-- CONSUMER code of the binding. -/
def GEN_STATE_CONSUMER : Fld := ⟨130, 0x30000, 192, 0x100, 8, 0x20, 1, 3, .HW, 0x0⟩
/-- The binding carries SHARED. -/
def GEN_STATE_SHARED : Fld := ⟨131, 0x30000, 192, 0x100, 8, 0x20, 4, 1, .HW, 0x0⟩
/-- The counter is written back to a context at release. -/
def GEN_STATE_FROM_CTX : Fld := ⟨132, 0x30000, 192, 0x100, 8, 0x20, 5, 1, .HW, 0x0⟩
/-- Context number when FROM_CTX = 1. -/
def GEN_STATE_CTX : Fld := ⟨133, 0x30000, 192, 0x100, 8, 0x20, 16, 12, .HW, 0x0⟩
/-- Next counter to be drawn. -/
def GEN_NEXT_NEXT : Fld := ⟨134, 0x30008, 192, 0x100, 8, 0x20, 0, 64, .HW, 0x0⟩
/-- BASE + COUNT of the binding. -/
def GEN_END_END : Fld := ⟨135, 0x30010, 192, 0x100, 8, 0x20, 0, 64, .HW, 0x0⟩
/-- Blocks drawn, saturating. -/
def GEN_DRAWS_DRAWS : Fld := ⟨136, 0x30018, 192, 0x100, 8, 0x20, 0, 32, .RC, 0x0⟩
/-- Ledger entries in the current frame, 0–2,048. -/
def GEN_LEDGER_USED : Fld := ⟨137, 0x3c000, 16, 0x20, 1, 0x0, 0, 12, .HW, 0x0⟩
/-- Highest USED since last read. -/
def GEN_LEDGER_PEAK : Fld := ⟨138, 0x3c000, 16, 0x20, 1, 0x0, 16, 12, .RC, 0x0⟩
/-- GEN_ALIAS rejections (R139). -/
def GEN_ALIAS_COUNT_ALIAS : Fld := ⟨139, 0x3c004, 16, 0x20, 1, 0x0, 0, 16, .RC, 0x0⟩
/-- GEN_LEDGER_FULL rejections. -/
def GEN_ALIAS_COUNT_LEDGER_FULL : Fld := ⟨140, 0x3c004, 16, 0x20, 1, 0x0, 16, 16, .RC, 0x0⟩
/-- GEN_UNBOUND events in the pen (R141). -/
def GEN_FAULT_COUNT_UNBOUND : Fld := ⟨141, 0x3c008, 16, 0x20, 1, 0x0, 0, 16, .RC, 0x0⟩
/-- GEN_RANGE events in the pen. -/
def GEN_FAULT_COUNT_RANGE : Fld := ⟨142, 0x3c008, 16, 0x20, 1, 0x0, 16, 16, .RC, 0x0⟩

/-! Table 6.10 (06_sparsity.md). -/

/-- TSE_MAC commands completed. -/
def STL_TSE_CMDS_CMDS : Fld := ⟨143, 0x26000, 192, 0x40, 1, 0x0, 0, 32, .RC, 0x0⟩
/-- Stored blocks computed. -/
def STL_TSE_BLOCKS_BLOCKS : Fld := ⟨144, 0x26004, 192, 0x40, 1, 0x0, 0, 32, .RC, 0x0⟩
/-- Blocks and indices dropped (R152, R160). -/
def STL_SPARSE_OOR : Fld := ⟨145, 0x26008, 192, 0x40, 1, 0x0, 0, 16, .RC, 0x0⟩
/-- Sparse tiles rejected under R151. -/
def STL_SPARSE_HDR : Fld := ⟨146, 0x26008, 192, 0x40, 1, 0x0, 16, 16, .RC, 0x0⟩
/-- Malformed TSE_MAC, ROUTE_TOPK, ANP_SELECT and ANP_CHECK commands. -/
def STL_SPX_FAULT_MALFORMED : Fld := ⟨147, 0x2600c, 192, 0x40, 1, 0x0, 0, 16, .RC, 0x0⟩
/-- Ownership faults of the TSE and of ANP_CHECK. -/
def STL_SPX_FAULT_ACC_OWNER : Fld := ⟨148, 0x2600c, 192, 0x40, 1, 0x0, 16, 16, .RC, 0x0⟩
/-- Choices dropped for capacity (R154). -/
def STL_ROUTE_ROUTE_DROP : Fld := ⟨149, 0x26010, 192, 0x40, 1, 0x0, 0, 16, .RC, 0x0⟩
/-- Tasks elided on a count word in this stall (R157). -/
def STL_ROUTE_COND_ELIDED : Fld := ⟨150, 0x26010, 192, 0x40, 1, 0x0, 16, 16, .RC, 0x0⟩
/-- Misses made up (R160). -/
def STL_ANP_MISS_CAUGHT : Fld := ⟨151, 0x26014, 192, 0x40, 1, 0x0, 0, 16, .RC, 0x0⟩
/-- Misses lost (R161). -/
def STL_ANP_MISS_LOST : Fld := ⟨152, 0x26014, 192, 0x40, 1, 0x0, 16, 16, .RC, 0x0⟩
/-- Neurons demoted by MAX_ACTIVE (R158). -/
def STL_ANP_MISC_DEMOTED : Fld := ⟨153, 0x26018, 192, 0x40, 1, 0x0, 0, 16, .RC, 0x0⟩
/-- Conditions with a bad address (R157). -/
def STL_ANP_MISC_COND_BAD : Fld := ⟨154, 0x26018, 192, 0x40, 1, 0x0, 16, 16, .RC, 0x0⟩
/-- Bit i: predictor i lost a miss (R161). -/
def STL_ANP_FLAG_FLAG : Fld := ⟨155, 0x26020, 192, 0x40, 1, 0x0, 0, 64, .W1C, 0x0⟩
/-- (Block, token, plane) triples run (R147). -/
def STL_TSE_PAIRS_RUN_RUN : Fld := ⟨156, 0x26028, 192, 0x40, 1, 0x0, 0, 64, .RC, 0x0⟩
/-- Triples skipped. -/
def STL_TSE_PAIRS_SKIP_SKIP : Fld := ⟨157, 0x26030, 192, 0x40, 1, 0x0, 0, 64, .RC, 0x0⟩

/-! Table 6.11 (06_sparsity.md). -/

/-- A SCARF_PACK command is executing. -/
def MHB_SCF_STATUS_BUSY : Fld := ⟨158, 0x8f000, 8, 0x40, 1, 0x0, 0, 1, .HW, 0x0⟩
/-- Pen of that command. -/
def MHB_SCF_STATUS_PEN : Fld := ⟨159, 0x8f000, 8, 0x40, 1, 0x0, 1, 4, .HW, 0x0⟩
/-- SCARF_PACK commands completed. -/
def MHB_SCF_CMDS_CMDS : Fld := ⟨160, 0x8f004, 8, 0x40, 1, 0x0, 0, 32, .RC, 0x0⟩
/-- CRB block entries read. -/
def MHB_SCF_ENTRIES_ENTRIES : Fld := ⟨161, 0x8f008, 8, 0x40, 1, 0x0, 0, 64, .RC, 0x0⟩
/-- Pieces written. -/
def MHB_SCF_TILES_TILES : Fld := ⟨162, 0x8f010, 8, 0x40, 1, 0x0, 0, 32, .RC, 0x0⟩
/-- Blocks dropped (R167). -/
def MHB_SCF_ERR_OOR : Fld := ⟨163, 0x8f014, 8, 0x40, 1, 0x0, 0, 16, .RC, 0x0⟩
/-- Invalid trit codes. -/
def MHB_SCF_ERR_TRIT_BAD : Fld := ⟨164, 0x8f014, 8, 0x40, 1, 0x0, 16, 8, .RC, 0x0⟩
/-- Malformed SCARF_PACK commands (R166). -/
def MHB_SCF_ERR_MALFORMED : Fld := ⟨165, 0x8f014, 8, 0x40, 1, 0x0, 24, 8, .RC, 0x0⟩

/-! Table 7.7 (07_scratchpad.md). -/

/-- Zero-fill in progress (R172). -/
def SPD_STATUS_ZEROING : Fld := ⟨166, 0x40000, 192, 0x200, 1, 0x0, 0, 1, .HW, 0x1⟩
/-- A DMA_MOVE is executing. -/
def SPD_STATUS_DMA_BUSY : Fld := ⟨167, 0x40000, 192, 0x200, 1, 0x0, 1, 1, .HW, 0x0⟩
/-- DMA_MOVE commands completed. -/
def SPD_DMA_CMDS_CMDS : Fld := ⟨168, 0x40004, 192, 0x200, 1, 0x0, 0, 32, .RC, 0x0⟩
/-- Bytes written by DMA_MOVE. -/
def SPD_DMA_BYTES_BYTES : Fld := ⟨169, 0x40008, 192, 0x200, 1, 0x0, 0, 64, .RC, 0x0⟩
/-- Cycles lost to conflicts (R173). -/
def SPD_CONFLICT_CYCLES : Fld := ⟨170, 0x40010, 192, 0x200, 1, 0x0, 0, 32, .RC, 0x0⟩
/-- Bank of the last logged conflict. -/
def SPD_CONFLICT_LAST_BANK : Fld := ⟨171, 0x40014, 192, 0x200, 1, 0x0, 0, 5, .HW, 0x0⟩
/-- 0 TDA, 1 table path, 2 TSE, 3 LNU, 4 VPU, 5 sampler. -/
def SPD_CONFLICT_LAST_ENGINE : Fld := ⟨172, 0x40014, 192, 0x200, 1, 0x0, 5, 3, .HW, 0x0⟩
/-- Low 24 bits of the task index. -/
def SPD_CONFLICT_LAST_TASK : Fld := ⟨173, 0x40014, 192, 0x200, 1, 0x0, 8, 24, .HW, 0x0⟩
/-- DMA-class yields (R174). -/
def SPD_DMA_YIELD_YIELDS : Fld := ⟨174, 0x40018, 192, 0x200, 1, 0x0, 0, 32, .RC, 0x0⟩
/-- Same-row events (R175). -/
def SPD_SAME_ROW_EVENTS : Fld := ⟨175, 0x4001c, 192, 0x200, 1, 0x0, 0, 32, .RC, 0x0⟩
/-- SLOT_UNDERRUN events (R182). -/
def SPD_SLOT_FAULT_UNDERRUN : Fld := ⟨176, 0x40020, 192, 0x200, 1, 0x0, 0, 16, .RC, 0x0⟩
/-- SLOT_OVERRUN events (R181). -/
def SPD_SLOT_FAULT_OVERRUN : Fld := ⟨177, 0x40020, 192, 0x200, 1, 0x0, 16, 16, .RC, 0x0⟩
/-- Slot of the last schedule fault. -/
def SPD_SLOT_LAST_SLOT : Fld := ⟨178, 0x40024, 192, 0x200, 1, 0x0, 0, 12, .HW, 0x0⟩
/-- 0 underrun, 1 overrun. -/
def SPD_SLOT_LAST_KIND : Fld := ⟨179, 0x40024, 192, 0x200, 1, 0x0, 12, 1, .HW, 0x0⟩
/-- Low 19 bits of the task index. -/
def SPD_SLOT_LAST_TASK : Fld := ⟨180, 0x40024, 192, 0x200, 1, 0x0, 13, 19, .HW, 0x0⟩
/-- SPD_BOUND faults (R177). -/
def SPD_BOUND_CNT_BOUND : Fld := ⟨181, 0x40028, 192, 0x200, 1, 0x0, 0, 16, .RC, 0x0⟩
/-- Unpopulated-address accesses (R178). -/
def SPD_BOUND_CNT_UNPOP : Fld := ⟨182, 0x40028, 192, 0x200, 1, 0x0, 16, 16, .RC, 0x0⟩
/-- Corrected words (R171). -/
def SPD_ECC_CE : Fld := ⟨183, 0x4002c, 192, 0x200, 1, 0x0, 0, 16, .RC, 0x0⟩
/-- Uncorrectable rows. -/
def SPD_ECC_UE : Fld := ⟨184, 0x4002c, 192, 0x200, 1, 0x0, 16, 16, .RC, 0x0⟩
/-- Offset of the last uncorrectable row. -/
def SPD_ECC_ADDR_OFFSET : Fld := ⟨185, 0x40030, 192, 0x200, 1, 0x0, 0, 25, .HW, 0x0⟩
/-- Slot shown in SPD_TAG_VIEW. -/
def SPD_TAG_SEL_SLOT : Fld := ⟨186, 0x40034, 192, 0x200, 1, 0x0, 0, 12, .RW, 0x0⟩
/-- GEN of the selected slot (R179). -/
def SPD_TAG_VIEW_GEN : Fld := ⟨187, 0x40038, 192, 0x200, 1, 0x0, 0, 2, .HW, 0x0⟩
/-- FULL. -/
def SPD_TAG_VIEW_FULL : Fld := ⟨188, 0x40038, 192, 0x200, 1, 0x0, 2, 1, .HW, 0x0⟩
/-- PNEXT. -/
def SPD_TAG_VIEW_PNEXT : Fld := ⟨189, 0x40038, 192, 0x200, 1, 0x0, 3, 1, .HW, 0x0⟩
/-- READS_LEFT. -/
def SPD_TAG_VIEW_READS_LEFT : Fld := ⟨190, 0x40038, 192, 0x200, 1, 0x0, 4, 8, .HW, 0x0⟩
/-- Malformed DMA_MOVE and WAIT_ARRIVALS commands. -/
def SPD_DMA_MAL_MALFORMED : Fld := ⟨191, 0x4003c, 192, 0x200, 1, 0x0, 0, 16, .RC, 0x0⟩
/-- Arrival counter i, i = 0–63 (R185). -/
def SPD_ARR_COUNT : Fld := ⟨192, 0x40100, 192, 0x200, 64, 0x4, 0, 32, .HW, 0x0⟩

/-! Table 8.9 (08_memory_compression.md). -/

/-- Zone level, 0–2 (R201). -/
def MHB_STATUS_THR_LEVEL : Fld := ⟨193, 0x80000, 8, 0x400, 1, 0x0, 0, 2, .HW, 0x0⟩
/-- Stack 2m refresh doubled (R202). -/
def MHB_STATUS_HOT_REFRESH0 : Fld := ⟨194, 0x80000, 8, 0x400, 1, 0x0, 2, 1, .HW, 0x0⟩
/-- Stack 2m + 1 refresh doubled. -/
def MHB_STATUS_HOT_REFRESH1 : Fld := ⟨195, 0x80000, 8, 0x400, 1, 0x0, 3, 1, .HW, 0x0⟩
/-- Home stalls capped at F_assured. -/
def MHB_STATUS_ACLK_CAP : Fld := ⟨196, 0x80000, 8, 0x400, 1, 0x0, 4, 1, .HW, 0x0⟩
/-- Patrol scrub pass in progress. -/
def MHB_STATUS_SCRUB_ACTIVE : Fld := ⟨197, 0x80000, 8, 0x400, 1, 0x0, 5, 1, .HW, 0x0⟩
/-- Stack 2m, °C. -/
def MHB_TEMP_STACK0_C : Fld := ⟨198, 0x80004, 8, 0x400, 1, 0x0, 0, 8, .HW, 0x0⟩
/-- Stack 2m + 1, °C. -/
def MHB_TEMP_STACK1_C : Fld := ⟨199, 0x80004, 8, 0x400, 1, 0x0, 8, 8, .HW, 0x0⟩
/-- Hub die, °C. -/
def MHB_TEMP_HUB_C : Fld := ⟨200, 0x80004, 8, 0x400, 1, 0x0, 16, 8, .HW, 0x0⟩
/-- T_z, °C. -/
def MHB_TEMP_ZONE_C : Fld := ⟨201, 0x80004, 8, 0x400, 1, 0x0, 24, 8, .HW, 0x0⟩
/-- Entries into L1 from L0 (R201). -/
def MHB_THR_COUNT_L1 : Fld := ⟨202, 0x80008, 8, 0x400, 1, 0x0, 0, 16, .RC, 0x0⟩
/-- Entries into L2 from L0 or L1. -/
def MHB_THR_COUNT_L2 : Fld := ⟨203, 0x80008, 8, 0x400, 1, 0x0, 16, 16, .RC, 0x0⟩
/-- µs spent at L1 or L2. -/
def MHB_THR_TIME_US : Fld := ⟨204, 0x8000c, 8, 0x400, 1, 0x0, 0, 32, .RC, 0x0⟩
/-- Lines corrected (R204). -/
def MHB_ECC_CE_CE : Fld := ⟨205, 0x80010, 8, 0x400, 1, 0x0, 0, 32, .RC, 0x0⟩
/-- Lines poisoned. -/
def MHB_ECC_UE_UE : Fld := ⟨206, 0x80014, 8, 0x400, 1, 0x0, 0, 16, .RC, 0x0⟩
/-- Lines rewritten by patrol scrub (R205). -/
def MHB_ECC_UE_PATROL_FIX : Fld := ⟨207, 0x80014, 8, 0x400, 1, 0x0, 16, 16, .RC, 0x0⟩
/-- Address of the last poisoned line. -/
def MHB_UE_ADDR_ADDR : Fld := ⟨208, 0x80018, 8, 0x400, 1, 0x0, 0, 48, .HW, 0x0⟩
/-- Valid entries, stack 2m, 0–1,024. -/
def MHB_RET_STATUS_USED0 : Fld := ⟨209, 0x80020, 8, 0x400, 1, 0x0, 0, 11, .HW, 0x0⟩
/-- Valid entries, stack 2m + 1. -/
def MHB_RET_STATUS_USED1 : Fld := ⟨210, 0x80020, 8, 0x400, 1, 0x0, 11, 11, .HW, 0x0⟩
/-- A retirement write was refused (R207). -/
def MHB_RET_STATUS_REFUSED : Fld := ⟨211, 0x80020, 8, 0x400, 1, 0x0, 22, 1, .W1C, 0x0⟩
/-- Accesses to retired pages. -/
def MHB_RET_HIT_HITS : Fld := ⟨212, 0x80024, 8, 0x400, 1, 0x0, 0, 32, .RC, 0x0⟩
/-- Hub cache read hits. -/
def MHB_HC_HIT_HIT : Fld := ⟨213, 0x80028, 8, 0x400, 1, 0x0, 0, 64, .RC, 0x0⟩
/-- Hub cache read misses. -/
def MHB_HC_MISS_MISS : Fld := ⟨214, 0x80030, 8, 0x400, 1, 0x0, 0, 64, .RC, 0x0⟩
/-- Cache lines refetched after an uncorrectable cache error (R199). -/
def MHB_HC_ECC_REFETCH : Fld := ⟨215, 0x80038, 8, 0x400, 1, 0x0, 0, 16, .RC, 0x0⟩
/-- Patrol period in hours, 1–168; other values read back as 0x18. -/
def MHB_SCRUB_CTRL_PERIOD_H : Fld := ⟨216, 0x8003c, 8, 0x400, 1, 0x0, 0, 8, .RW, 0x18⟩
/-- Unavailable-block entries, 0–64 (R219). -/
def MHB_UNAVAIL_COUNT : Fld := ⟨217, 0x80040, 8, 0x400, 1, 0x0, 0, 7, .HW, 0x0⟩
/-- Events not listed because the list was full. -/
def MHB_UNAVAIL_OVERFLOW : Fld := ⟨218, 0x80040, 8, 0x400, 1, 0x0, 16, 16, .RC, 0x0⟩
/-- Bytes read from both stacks. -/
def MHB_BYTES_RD_BYTES : Fld := ⟨219, 0x80048, 8, 0x400, 1, 0x0, 0, 64, .RC, 0x0⟩
/-- Bytes written to both stacks. -/
def MHB_BYTES_WR_BYTES : Fld := ⟨220, 0x80050, 8, 0x400, 1, 0x0, 0, 64, .RC, 0x0⟩

/-! Table 8.10 (08_memory_compression.md). -/

/-- A CDE_CMD is executing. -/
def CDE_STATUS_BUSY : Fld := ⟨221, 0x1d000, 8, 0x100, 1, 0x0, 0, 1, .HW, 0x0⟩
/-- Pen of that command. -/
def CDE_STATUS_PEN : Fld := ⟨222, 0x1d000, 8, 0x100, 1, 0x0, 1, 4, .HW, 0x0⟩
/-- Its OP. -/
def CDE_STATUS_OP : Fld := ⟨223, 0x1d000, 8, 0x100, 1, 0x0, 5, 2, .HW, 0x0⟩
/-- Commands completed. -/
def CDE_CMDS_CMDS : Fld := ⟨224, 0x1d004, 8, 0x100, 1, 0x0, 0, 32, .RC, 0x0⟩
/-- Stream blocks decoded or encoded. -/
def CDE_BLOCKS_BLOCKS : Fld := ⟨225, 0x1d008, 8, 0x100, 1, 0x0, 0, 64, .RC, 0x0⟩
/-- RAW blocks read or written. -/
def CDE_RAW_RAW : Fld := ⟨226, 0x1d010, 8, 0x100, 1, 0x0, 0, 32, .RC, 0x0⟩
/-- CDE_LENGTH (R216). -/
def CDE_ERR_LENGTH : Fld := ⟨227, 0x1d014, 8, 0x100, 1, 0x0, 0, 8, .RC, 0x0⟩
/-- CDE_CRC. -/
def CDE_ERR_CRC : Fld := ⟨228, 0x1d014, 8, 0x100, 1, 0x0, 8, 8, .RC, 0x0⟩
/-- CDE_INDEX (R218). -/
def CDE_ERR_INDEX : Fld := ⟨229, 0x1d014, 8, 0x100, 1, 0x0, 16, 8, .RC, 0x0⟩
/-- CDE_HDR. -/
def CDE_ERR_HDR : Fld := ⟨230, 0x1d014, 8, 0x100, 1, 0x0, 24, 8, .RC, 0x0⟩
/-- Blocks read from poisoned lines. -/
def CDE_ERR2_POISON_IN : Fld := ⟨231, 0x1d018, 8, 0x100, 1, 0x0, 0, 8, .RC, 0x0⟩
/-- Blocks served from the unavailable list (R219). -/
def CDE_ERR2_UNAVAIL : Fld := ⟨232, 0x1d018, 8, 0x100, 1, 0x0, 8, 8, .RC, 0x0⟩
/-- CDE_FULL (R221). -/
def CDE_ERR2_FULL : Fld := ⟨233, 0x1d018, 8, 0x100, 1, 0x0, 16, 8, .RC, 0x0⟩
/-- Malformed CDE_CMD (R222). -/
def CDE_ERR2_MALFORMED : Fld := ⟨234, 0x1d018, 8, 0x100, 1, 0x0, 24, 8, .RC, 0x0⟩
/-- KV-45 parity failures (R226). -/
def CDE_KV_PARITY : Fld := ⟨235, 0x1d01c, 8, 0x100, 1, 0x0, 0, 16, .RC, 0x0⟩
/-- KV-45 blocks encoded with E = 0. -/
def CDE_KV_ZERO_BLK : Fld := ⟨236, 0x1d01c, 8, 0x100, 1, 0x0, 16, 16, .RC, 0x0⟩
/-- Bytes read by the CDE. -/
def CDE_BYTES_IN_BYTES : Fld := ⟨237, 0x1d020, 8, 0x100, 1, 0x0, 0, 64, .RC, 0x0⟩
/-- Bytes written by the CDE. -/
def CDE_BYTES_OUT_BYTES : Fld := ⟨238, 0x1d028, 8, 0x100, 1, 0x0, 0, 64, .RC, 0x0⟩
/-- 0x01 LENGTH, 0x02 CRC, 0x03 INDEX, 0x04 HDR, 0x05 FULL, 0x06 PARITY. -/
def CDE_LAST_ERR_CODE : Fld := ⟨239, 0x1d030, 8, 0x100, 1, 0x0, 0, 8, .HW, 0x0⟩
/-- Pen of that command. -/
def CDE_LAST_ERR_PEN : Fld := ⟨240, 0x1d030, 8, 0x100, 1, 0x0, 8, 4, .HW, 0x0⟩
/-- Stream header or KV-45 block address of that event. -/
def CDE_LAST_ADDR_ADDR : Fld := ⟨241, 0x1d038, 8, 0x100, 1, 0x0, 0, 64, .HW, 0x0⟩

/-! Table 8.11 (08_memory_compression.md). -/

/-- Loft lines corrected. -/
def MHB_LOFT_ECC_CE : Fld := ⟨242, 0x83000, 1, 0x0, 1, 0x0, 0, 16, .RC, 0x0⟩
/-- Loft lines poisoned (R211). -/
def MHB_LOFT_ECC_UE : Fld := ⟨243, 0x83000, 1, 0x0, 1, 0x0, 16, 16, .RC, 0x0⟩
/-- Address of the last poisoned loft line. -/
def MHB_LOFT_UE_ADDR_ADDR : Fld := ⟨244, 0x83008, 1, 0x0, 1, 0x0, 0, 48, .HW, 0x0⟩
/-- Valid loft retirement entries, 0–4,096. -/
def MHB_LOFT_RET_STATUS_USED : Fld := ⟨245, 0x83010, 1, 0x0, 1, 0x0, 0, 13, .HW, 0x0⟩
/-- A loft retirement write was refused. -/
def MHB_LOFT_RET_STATUS_REFUSED : Fld := ⟨246, 0x83010, 1, 0x0, 1, 0x0, 13, 1, .W1C, 0x0⟩
/-- Accesses to retired loft granules. -/
def MHB_LOFT_RET_HIT_HITS : Fld := ⟨247, 0x83014, 1, 0x0, 1, 0x0, 0, 32, .RC, 0x0⟩
/-- Bytes moved to and from the loft. -/
def MHB_LOFT_BYTES_BYTES : Fld := ⟨248, 0x83018, 1, 0x0, 1, 0x0, 0, 64, .RC, 0x0⟩

/-! Table 8.12 (08_memory_compression.md). -/

/-- Page within stack s, 0–24,575; entry i = 0–1,023. Write-once while VALID = 1 (R206). -/
def MHB_RET_ENTRY_PAGE : Fld := ⟨249, 0x90000, 16, 0x1000, 1024, 0x4, 0, 15, .RW, 0x0⟩
/-- Page retired. Cleared only by device reset (R208). -/
def MHB_RET_ENTRY_VALID : Fld := ⟨250, 0x90000, 16, 0x1000, 1024, 0x4, 31, 1, .RW, 0x0⟩
/-- Loft granule; entry i = 0–4,095 (R211). -/
def MHB_LOFT_RET_ENTRY_GRANULE : Fld := ⟨251, 0xa0000, 1, 0x0, 4096, 0x4, 0, 20, .RW, 0x0⟩
/-- Granule retired. -/
def MHB_LOFT_RET_ENTRY_VALID : Fld := ⟨252, 0xa0000, 1, 0x0, 4096, 0x4, 31, 1, .RW, 0x0⟩

/-! Table 9.13 (09_serving.md). -/

/-- First HBM device granule of the pool (R249). -/
def KVM_POOL_BASE : Fld := ⟨253, 0x1e000, 16, 0x100, 1, 0x0, 0, 32, .RW, 0x0⟩
/-- Pool granules. -/
def KVM_POOL_CNT_COUNT : Fld := ⟨254, 0x1e004, 16, 0x100, 1, 0x0, 0, 32, .RW, 0x0⟩
/-- First loft granule of the loft pool. -/
def KVM_LOFT_BASE : Fld := ⟨255, 0x1e008, 16, 0x100, 1, 0x0, 0, 32, .RW, 0x0⟩
/-- Loft pool granules; 0 = none. -/
def KVM_LOFT_CNT_COUNT : Fld := ⟨256, 0x1e00c, 16, 0x100, 1, 0x0, 0, 32, .RW, 0x0⟩
/-- First HBM device granule of the prefix region (R257). -/
def KVM_PFX_BASE : Fld := ⟨257, 0x1e010, 16, 0x100, 1, 0x0, 0, 32, .RW, 0x0⟩
/-- Prefix region granules; 0 = no prefix table. -/
def KVM_PFX_CNT_COUNT : Fld := ⟨258, 0x1e014, 16, 0x100, 1, 0x0, 0, 32, .RW, 0x0⟩
/-- Pages per span, 0–255. -/
def KVM_GEOM_G_KV : Fld := ⟨259, 0x1e018, 16, 0x100, 1, 0x0, 0, 8, .RW, 0x0⟩
/-- Spans per context, 1–65,535. -/
def KVM_GEOM_MAX_SPANS : Fld := ⟨260, 0x1e018, 16, 0x100, 1, 0x0, 8, 16, .RW, 0x0⟩
/-- Reclaim start, in granules of pages (R253). -/
def KVM_WATER_LOW_G : Fld := ⟨261, 0x1e01c, 16, 0x100, 1, 0x0, 0, 16, .RW, 0x0⟩
/-- Reclaim stop, in granules of pages. -/
def KVM_WATER_HIGH_G : Fld := ⟨262, 0x1e01c, 16, 0x100, 1, 0x0, 16, 16, .RW, 0x0⟩
/-- A write of 1 applies the configuration (R251). Hardware clears it. -/
def KVM_CTRL_APPLY : Fld := ⟨263, 0x1e020, 16, 0x100, 1, 0x0, 0, 1, .RW, 0x0⟩
/-- The last APPLY was rejected. -/
def KVM_CTRL_REJECT : Fld := ⟨264, 0x1e020, 16, 0x100, 1, 0x0, 1, 1, .W1C, 0x0⟩
/-- A configuration is in force. -/
def KVM_CTRL_CONFIGURED : Fld := ⟨265, 0x1e020, 16, 0x100, 1, 0x0, 2, 1, .HW, 0x0⟩
/-- Free HBM pages. -/
def KVM_FREE_PAGES : Fld := ⟨266, 0x1e024, 16, 0x100, 1, 0x0, 0, 32, .HW, 0x0⟩
/-- Allocated HBM pages, reservations included. -/
def KVM_USED_PAGES : Fld := ⟨267, 0x1e028, 16, 0x100, 1, 0x0, 0, 32, .HW, 0x0⟩
/-- Allocated loft pages. -/
def KVM_LOFT_USED_PAGES : Fld := ⟨268, 0x1e02c, 16, 0x100, 1, 0x0, 0, 32, .HW, 0x0⟩
/-- Pages copied on write (R252). -/
def KVM_COW_PAGES : Fld := ⟨269, 0x1e030, 16, 0x100, 1, 0x0, 0, 32, .RC, 0x0⟩
/-- Pages spilled to the loft. -/
def KVM_SPILLED_PAGES : Fld := ⟨270, 0x1e034, 16, 0x100, 1, 0x0, 0, 32, .RC, 0x0⟩
/-- Pages restored from the loft (R254). -/
def KVM_PREFETCHED_PAGES : Fld := ⟨271, 0x1e038, 16, 0x100, 1, 0x0, 0, 32, .RC, 0x0⟩
/-- Pages dropped for recompute. -/
def KVM_DROPPED_PAGES : Fld := ⟨272, 0x1e03c, 16, 0x100, 1, 0x0, 0, 32, .RC, 0x0⟩
/-- Spans marked DONE (R255). -/
def KVM_RECOMPUTED_SPANS : Fld := ⟨273, 0x1e040, 16, 0x100, 1, 0x0, 0, 32, .RC, 0x0⟩
/-- Prefix blocks reused (R258). -/
def KVM_PFX_HIT_BLOCKS : Fld := ⟨274, 0x1e044, 16, 0x100, 1, 0x0, 0, 32, .RC, 0x0⟩
/-- Lookups ended by a miss. -/
def KVM_PFX_MISS_LOOKUPS : Fld := ⟨275, 0x1e048, 16, 0x100, 1, 0x0, 0, 32, .RC, 0x0⟩
/-- Entries inserted. -/
def KVM_PFX_INSERT_ENTRIES : Fld := ⟨276, 0x1e04c, 16, 0x100, 1, 0x0, 0, 32, .RC, 0x0⟩
/-- Entries evicted, by insertion or reclaim. -/
def KVM_PFX_EVICT_EVICT : Fld := ⟨277, 0x1e050, 16, 0x100, 1, 0x0, 0, 16, .RC, 0x0⟩
/-- INSERT commands skipped (R258). -/
def KVM_PFX_EVICT_SKIP : Fld := ⟨278, 0x1e050, 16, 0x100, 1, 0x0, 16, 16, .RC, 0x0⟩
/-- Records refused at check 16. -/
def KVM_REFUSE_KV_FULL : Fld := ⟨279, 0x1e054, 16, 0x100, 1, 0x0, 0, 16, .RC, 0x0⟩
/-- Contexts lost from a full loft pool (R253). -/
def KVM_REFUSE_LOST : Fld := ⟨280, 0x1e054, 16, 0x100, 1, 0x0, 16, 16, .RC, 0x0⟩
/-- Pauses expired (R260). -/
def KVM_TTL_EXPIRED : Fld := ⟨281, 0x1e058, 16, 0x100, 1, 0x0, 0, 16, .RC, 0x0⟩
/-- CONTEXT_LOST answers in the pen. -/
def KVM_TTL_CTX_LOST : Fld := ⟨282, 0x1e058, 16, 0x100, 1, 0x0, 16, 16, .RC, 0x0⟩
/-- Shares made by copy at count 65,535 (R250). -/
def KVM_REF_SAT_COPIES : Fld := ⟨283, 0x1e05c, 16, 0x100, 1, 0x0, 0, 16, .RC, 0x0⟩
/-- Spans in the recompute queue. -/
def KVM_RECOMP_Q_SPANS : Fld := ⟨284, 0x1e060, 16, 0x100, 1, 0x0, 0, 16, .HW, 0x0⟩
/-- Records currently held at check 14 under R254. A record leaves the count when it is accepted, answered or … -/
def KVM_RECOMP_Q_HELD : Fld := ⟨285, 0x1e060, 16, 0x100, 1, 0x0, 16, 16, .HW, 0x0⟩

/-! Table 9.14 (09_serving.md). -/

/-- A SAMPLE command is executing. -/
def SMP_STATUS_BUSY : Fld := ⟨286, 0x60000, 192, 0x40, 1, 0x0, 0, 1, .HW, 0x0⟩
/-- Tokens drawn. -/
def SMP_SAMPLES_COUNT : Fld := ⟨287, 0x60004, 192, 0x40, 1, 0x0, 0, 32, .RC, 0x0⟩
/-- Tokens chosen greedily. -/
def SMP_GREEDY_COUNT : Fld := ⟨288, 0x60008, 192, 0x40, 1, 0x0, 0, 32, .RC, 0x0⟩
/-- Masks that allowed no token (R264). -/
def SMP_EMPTY_COUNT : Fld := ⟨289, 0x6000c, 192, 0x40, 1, 0x0, 0, 16, .RC, 0x0⟩
/-- Accepting automaton states reached. -/
def SMP_EMPTY_ACCEPT : Fld := ⟨290, 0x6000c, 192, 0x40, 1, 0x0, 16, 16, .RC, 0x0⟩
/-- SMP_BAD events (R264). -/
def SMP_BAD_BAD : Fld := ⟨291, 0x60010, 192, 0x40, 1, 0x0, 0, 16, .RC, 0x0⟩
/-- Malformed SAMPLE and CRIB_EMIT commands. -/
def SMP_BAD_MALFORMED : Fld := ⟨292, 0x60010, 192, 0x40, 1, 0x0, 16, 16, .RC, 0x0⟩
/-- 0x01 MASK_ID, 0x02 MAGIC, 0x03 V, 0x04 STATE. -/
def SMP_LAST_ERR_CODE : Fld := ⟨293, 0x60014, 192, 0x40, 1, 0x0, 0, 8, .HW, 0x0⟩
/-- Low 24 bits of the task index. -/
def SMP_LAST_ERR_TASK : Fld := ⟨294, 0x60014, 192, 0x40, 1, 0x0, 8, 24, .HW, 0x0⟩

/-! Table 10.10 (10_herd_links.md). -/

/-- Table 10.1. -/
def LNK_STATUS_STATE : Fld := ⟨295, 0x19000, 18, 0x40, 1, 0x0, 0, 3, .HW, 0x0⟩
/-- 0 herd, 1 network. -/
def LNK_STATUS_MODE : Fld := ⟨296, 0x19000, 18, 0x40, 1, 0x0, 3, 1, .HW, 0x0⟩
/-- Active lanes: 0, 1, 2, 4, 6 or 8. -/
def LNK_STATUS_WIDTH : Fld := ⟨297, 0x19000, 18, 0x40, 1, 0x0, 4, 4, .HW, 0x0⟩
/-- Bit i: lane i failed (R273). -/
def LNK_STATUS_LANE_FAIL : Fld := ⟨298, 0x19000, 18, 0x40, 1, 0x0, 8, 8, .HW, 0x0⟩
/-- Two 800GBASE-CR4 interfaces. -/
def LNK_STATUS_SPLIT : Fld := ⟨299, 0x19000, 18, 0x40, 1, 0x0, 16, 1, .HW, 0x0⟩
/-- A write of 1 retrains the link (R273). Hardware clears it. -/
def LNK_CTRL_RETRAIN : Fld := ⟨300, 0x19004, 18, 0x40, 1, 0x0, 0, 1, .RW, 0x0⟩
/-- Failure threshold exponent, 3–7; other values read back as 0x4. -/
def LNK_CTRL_SER_EXP : Fld := ⟨301, 0x19004, 18, 0x40, 1, 0x0, 1, 3, .RW, 0x4⟩
/-- Peer DEVICE_ID (R268). -/
def LNK_PEER_PEER_DEV : Fld := ⟨302, 0x19008, 18, 0x40, 1, 0x0, 0, 16, .HW, 0x0⟩
/-- Peer link number. -/
def LNK_PEER_PEER_LINK : Fld := ⟨303, 0x19008, 18, 0x40, 1, 0x0, 16, 5, .HW, 0x0⟩
/-- Degrades. -/
def LNK_EVENTS_DEGRADE : Fld := ⟨304, 0x1900c, 18, 0x40, 1, 0x0, 0, 16, .RC, 0x0⟩
/-- Entries into DOWN. -/
def LNK_EVENTS_DOWN : Fld := ⟨305, 0x1900c, 18, 0x40, 1, 0x0, 16, 16, .RC, 0x0⟩
/-- Codewords corrected. -/
def LNK_FEC_CORR_CORR : Fld := ⟨306, 0x19010, 18, 0x40, 1, 0x0, 0, 64, .RC, 0x0⟩
/-- Codewords uncorrectable. -/
def LNK_FEC_UNCORR_UNCORR : Fld := ⟨307, 0x19018, 18, 0x40, 1, 0x0, 0, 32, .RC, 0x0⟩
/-- Transport watchdog firings (R284). -/
def LNK_HANG_HANGS : Fld := ⟨308, 0x1901c, 18, 0x40, 1, 0x0, 0, 16, .RC, 0x0⟩
/-- Bytes sent. -/
def LNK_TX_BYTES_BYTES : Fld := ⟨309, 0x19020, 18, 0x40, 1, 0x0, 0, 64, .RC, 0x0⟩
/-- Bytes received. -/
def LNK_RX_BYTES_BYTES : Fld := ⟨310, 0x19028, 18, 0x40, 1, 0x0, 0, 64, .RC, 0x0⟩
/-- Source MAC of the link. Fused: DESIGN CHOICE, log 4. -/
def LNK_MAC_MAC : Fld := ⟨311, 0x19030, 18, 0x40, 1, 0x0, 0, 48, .RO, 0x0⟩
/-- Bit k: port k has an UP link (R269). -/
def LNK_PORT_STATUS_UP : Fld := ⟨312, 0x19800, 1, 0x0, 1, 0x0, 0, 18, .HW, 0x0⟩
/-- A write of 1 applies the shadow at the next frame start (R287). Hardware clears it. -/
def LNK_RT_CTRL_COMMIT : Fld := ⟨313, 0x19804, 1, 0x0, 1, 0x0, 0, 1, .RW, 0x0⟩
/-- Shadow entry selected. -/
def LNK_RT_ADDR_DEV : Fld := ⟨314, 0x19808, 1, 0x0, 1, 0x0, 0, 12, .RW, 0x0⟩
/-- Shadow entry at DEV (R286 layout). -/
def LNK_RT_DATA_ENTRY : Fld := ⟨315, 0x1980c, 1, 0x0, 1, 0x0, 0, 16, .RW, 0x0⟩
/-- Invalid entries in the table in force. -/
def LNK_RT_STATUS_BAD_ROUTE : Fld := ⟨316, 0x19810, 1, 0x0, 1, 0x0, 0, 12, .HW, 0x0⟩
/-- Invalid EGRESS entries (R276). -/
def LNK_RT_STATUS_BAD_EGRESS : Fld := ⟨317, 0x19810, 1, 0x0, 1, 0x0, 12, 12, .HW, 0x0⟩
/-- Destinations routed through herd-mode ports, 0–63. -/
def LNK_RT_STATUS_HERD_DEST : Fld := ⟨318, 0x19810, 1, 0x0, 1, 0x0, 24, 6, .HW, 0x0⟩

/-! Table 10.11 (10_herd_links.md). -/

/-- Network-mode RTO in µs (R282). -/
def ZLT_CFG_RTO_US : Fld := ⟨319, 0x1a000, 1, 0x0, 1, 0x0, 0, 16, .RW, 0xc8⟩
/-- Resends before a message failure. -/
def ZLT_CFG_RETRY_MAX : Fld := ⟨320, 0x1a000, 1, 0x0, 1, 0x0, 16, 8, .RW, 0x10⟩
/-- Transport watchdog in µs (R284). -/
def ZLT_TWD_TWD_US : Fld := ⟨321, 0x1a004, 1, 0x0, 1, 0x0, 0, 16, .RW, 0x3e8⟩
/-- Packets sent. -/
def ZLT_TX_PKTS_PKTS : Fld := ⟨322, 0x1a008, 1, 0x0, 1, 0x0, 0, 64, .RC, 0x0⟩
/-- Packets accepted. -/
def ZLT_RX_PKTS_PKTS : Fld := ⟨323, 0x1a010, 1, 0x0, 1, 0x0, 0, 64, .RC, 0x0⟩
/-- Packets resent. -/
def ZLT_RETX_RETX : Fld := ⟨324, 0x1a018, 1, 0x0, 1, 0x0, 0, 32, .RC, 0x0⟩
/-- CRC or UDP checksum failures. -/
def ZLT_DROP_CRC : Fld := ⟨325, 0x1a01c, 1, 0x0, 1, 0x0, 0, 8, .RC, 0x0⟩
/-- TTL expiry or no route in transit (R288). -/
def ZLT_DROP_TTL : Fld := ⟨326, 0x1a01c, 1, 0x0, 1, 0x0, 8, 8, .RC, 0x0⟩
/-- Duplicates discarded. -/
def ZLT_DROP_DUP : Fld := ⟨327, 0x1a01c, 1, 0x0, 1, 0x0, 16, 8, .RC, 0x0⟩
/-- Misrouted packets; tracker full (R281). -/
def ZLT_DROP_MISC : Fld := ⟨328, 0x1a01c, 1, 0x0, 1, 0x0, 24, 8, .RC, 0x0⟩
/-- Packets refused at checks 3–5 (R280). -/
def ZLT_DENY_INBOUND : Fld := ⟨329, 0x1a020, 1, 0x0, 1, 0x0, 0, 16, .RC, 0x0⟩
/-- Packets with no EGRESS entry (R276). -/
def ZLT_DENY_EGRESS : Fld := ⟨330, 0x1a020, 1, 0x0, 1, 0x0, 16, 16, .RC, 0x0⟩
/-- Message failures (R283). -/
def ZLT_FAIL_FAILED : Fld := ⟨331, 0x1a024, 1, 0x0, 1, 0x0, 0, 16, .RC, 0x0⟩
/-- Of which cause NOROUTE. -/
def ZLT_FAIL_NOROUTE : Fld := ⟨332, 0x1a024, 1, 0x0, 1, 0x0, 16, 16, .RC, 0x0⟩
/-- CE marks received. -/
def ZLT_ECN_CE : Fld := ⟨333, 0x1a028, 1, 0x0, 1, 0x0, 0, 32, .RC, 0x0⟩
/-- Open inbound messages, 0–8,192. -/
def ZLT_OPEN_OPEN : Fld := ⟨334, 0x1a02c, 1, 0x0, 1, 0x0, 0, 14, .HW, 0x0⟩
/-- Job of pen p; 0 refuses all inbound ZLT. -/
def ZLT_JOB_JOB_ID : Fld := ⟨335, 0x1a100, 16, 0x10, 1, 0x0, 0, 32, .RW, 0x0⟩
/-- Bytes written into pen p. -/
def ZLT_PEN_RX_BYTES_BYTES : Fld := ⟨336, 0x1a108, 16, 0x10, 1, 0x0, 0, 64, .RC, 0x0⟩

/-! Table 10.12 (10_herd_links.md). -/

/-- Group enabled (R289). -/
def PEG_GCFG_ENABLE : Fld := ⟨337, 0x1b000, 64, 0x40, 1, 0x0, 0, 1, .RW, 0x0⟩
/-- A write of 1 resets the group. Hardware clears it. -/
def PEG_GCFG_RESET : Fld := ⟨338, 0x1b000, 64, 0x40, 1, 0x0, 1, 1, .RW, 0x0⟩
/-- Pen of the group. -/
def PEG_GCFG_PEN : Fld := ⟨339, 0x1b000, 64, 0x40, 1, 0x0, 2, 4, .RW, 0x0⟩
/-- Local arrivals per occurrence, 1–192. -/
def PEG_GCFG_LOCAL_N : Fld := ⟨340, 0x1b000, 64, 0x40, 1, 0x0, 6, 8, .RW, 0x1⟩
/-- Children, 0–63. -/
def PEG_GCFG_CHILD_COUNT : Fld := ⟨341, 0x1b000, 64, 0x40, 1, 0x0, 14, 6, .RW, 0x0⟩
/-- Parent DEVICE_ID; 0xFFFF for the root. -/
def PEG_GPARENT_PARENT_DEV : Fld := ⟨342, 0x1b004, 64, 0x40, 1, 0x0, 0, 16, .RW, 0xffff⟩
/-- Job-wide tag. -/
def PEG_GTAG_GROUP_TAG : Fld := ⟨343, 0x1b008, 64, 0x40, 1, 0x0, 0, 32, .RW, 0x0⟩
/-- Timeout in µs; 0 = 4 × T_FRAME_US (R294). -/
def PEG_GTO_PEER_TO_US : Fld := ⟨344, 0x1b00c, 64, 0x40, 1, 0x0, 0, 32, .RW, 0x0⟩
/-- 0 DISABLED, 1 ACTIVE, 2 BROKEN. -/
def PEG_GSTATUS_STATE : Fld := ⟨345, 0x1b010, 64, 0x40, 1, 0x0, 0, 2, .HW, 0x0⟩
/-- This module paced an occurrence (R293). -/
def PEG_GSTATUS_PACE_LIMITER : Fld := ⟨346, 0x1b010, 64, 0x40, 1, 0x0, 2, 1, .W1C, 0x0⟩
/-- A configuration write was discarded (R289). -/
def PEG_GSTATUS_REJECT : Fld := ⟨347, 0x1b010, 64, 0x40, 1, 0x0, 3, 1, .W1C, 0x0⟩
/-- REASON of the last release. -/
def PEG_GSTATUS_LAST_REASON : Fld := ⟨348, 0x1b010, 64, 0x40, 1, 0x0, 4, 2, .HW, 0x0⟩
/-- Local arrivals in the current occurrence. -/
def PEG_GSTATUS_LOCAL_COUNT : Fld := ⟨349, 0x1b010, 64, 0x40, 1, 0x0, 8, 8, .HW, 0x0⟩
/-- Child arrivals in the current occurrence. -/
def PEG_GSTATUS_CHILD_ARRIVED : Fld := ⟨350, 0x1b010, 64, 0x40, 1, 0x0, 16, 6, .HW, 0x0⟩
/-- Current occurrence. -/
def PEG_GSEQ_SEQ : Fld := ⟨351, 0x1b014, 64, 0x40, 1, 0x0, 0, 32, .HW, 0x0⟩
/-- LAST_DEV of the last release. -/
def PEG_GLAST_LAST_DEV : Fld := ⟨352, 0x1b018, 64, 0x40, 1, 0x0, 0, 16, .HW, 0x0⟩
/-- Occurrences released. -/
def PEG_GRELEASES_RELEASES : Fld := ⟨353, 0x1b01c, 64, 0x40, 1, 0x0, 0, 32, .RC, 0x0⟩
/-- Barrier wait in µs (R293). -/
def PEG_GWAIT_US_WAIT : Fld := ⟨354, 0x1b020, 64, 0x40, 1, 0x0, 0, 64, .RC, 0x0⟩
/-- Releases naming this module. -/
def PEG_GCOUNTS_PACED : Fld := ⟨355, 0x1b028, 64, 0x40, 1, 0x0, 0, 16, .RC, 0x0⟩
/-- Timeouts (R294). -/
def PEG_GCOUNTS_TIMEOUTS : Fld := ⟨356, 0x1b028, 64, 0x40, 1, 0x0, 16, 16, .RC, 0x0⟩
/-- Mismatched packets (R296). -/
def PEG_GERR_SEQ_ERR : Fld := ⟨357, 0x1b02c, 64, 0x40, 1, 0x0, 0, 16, .RC, 0x0⟩
/-- Stale packets. -/
def PEG_GERR_STALE : Fld := ⟨358, 0x1b02c, 64, 0x40, 1, 0x0, 16, 16, .RC, 0x0⟩

/-! Table 11.6 (11_yoke.md). -/

/-- PARTNER_DEV; 0xFFFF with no YOKE section. Truss: log 5. -/
def YOK_CFG_PARTNER_DEV : Fld := ⟨359, 0x1c000, 1, 0x0, 1, 0x0, 0, 16, .RWT, 0x0⟩
/-- Yoke port. Truss: log 5. -/
def YOK_CFG_PORT : Fld := ⟨360, 0x1c000, 1, 0x0, 1, 0x0, 16, 5, .RWT, 0x0⟩
/-- ALT_PATH. Truss: log 5. -/
def YOK_CFG_ALT_PATH : Fld := ⟨361, 0x1c000, 1, 0x0, 1, 0x0, 21, 1, .RWT, 0x0⟩
/-- Yoked pens. Truss: log 5. -/
def YOK_PENS_PEN_MASK : Fld := ⟨362, 0x1c004, 1, 0x0, 1, 0x0, 0, 16, .RWT, 0x0⟩
/-- Initial roles. Truss: log 5. -/
def YOK_PENS_ACTIVE_MASK : Fld := ⟨363, 0x1c004, 1, 0x0, 1, 0x0, 16, 16, .RWT, 0x0⟩
/-- HELLO exchanged with equal PAIR_TAG. -/
def YOK_STATUS_PAIRED : Fld := ⟨364, 0x1c008, 1, 0x0, 1, 0x0, 0, 1, .HW, 0x0⟩
/-- Pairing refused (R309). -/
def YOK_STATUS_SPLIT : Fld := ⟨365, 0x1c008, 1, 0x0, 1, 0x0, 1, 1, .W1C, 0x0⟩
/-- PAIR_TAG differs (R301). -/
def YOK_STATUS_TAG_MISMATCH : Fld := ⟨366, 0x1c008, 1, 0x0, 1, 0x0, 2, 1, .W1C, 0x0⟩
/-- Bit p: demote pen p (R310). Hardware clears it. -/
def YOK_CTRL_DEMOTE : Fld := ⟨367, 0x1c00c, 1, 0x0, 1, 0x0, 0, 16, .RW, 0x0⟩
/-- Yoke bytes sent. -/
def YOK_TX_BYTES_BYTES : Fld := ⟨368, 0x1c010, 1, 0x0, 1, 0x0, 0, 64, .RC, 0x0⟩
/-- Yoke bytes received. -/
def YOK_RX_BYTES_BYTES : Fld := ⟨369, 0x1c018, 1, 0x0, 1, 0x0, 0, 64, .RC, 0x0⟩
/-- FETCH_REQ served (R314). -/
def YOK_FETCH_SERVED : Fld := ⟨370, 0x1c020, 1, 0x0, 1, 0x0, 0, 16, .RC, 0x0⟩
/-- FETCH_NAK sent. -/
def YOK_FETCH_NAK : Fld := ⟨371, 0x1c020, 1, 0x0, 1, 0x0, 16, 16, .RC, 0x0⟩

/-! Table 11.7 (11_yoke.md). -/

/-- Table 11.4. -/
def YOK_PEN_STATE_STATE : Fld := ⟨372, 0x1c100, 16, 0x40, 1, 0x0, 0, 3, .HW, 0x0⟩
/-- 1: active. -/
def YOK_PEN_STATE_ROLE : Fld := ⟨373, 0x1c100, 16, 0x40, 1, 0x0, 3, 1, .HW, 0x0⟩
/-- Frames without a partner packet (R311). -/
def YOK_PEN_STATE_MISSED : Fld := ⟨374, 0x1c100, 16, 0x40, 1, 0x0, 4, 2, .HW, 0x0⟩
/-- Last acknowledged commit. -/
def YOK_COMMIT_NO_COMMIT : Fld := ⟨375, 0x1c104, 16, 0x40, 1, 0x0, 0, 32, .HW, 0x0⟩
/-- Longest commit, in units of 0.01 µs. -/
def YOK_COMMIT_MAX_MAX : Fld := ⟨376, 0x1c108, 16, 0x40, 1, 0x0, 0, 16, .RC, 0x0⟩
/-- Commits over 15 µs (R305). -/
def YOK_COMMIT_MAX_SLOW : Fld := ⟨377, 0x1c108, 16, 0x40, 1, 0x0, 16, 16, .RC, 0x0⟩
/-- Entries into TAKEOVER or SOLO. -/
def YOK_COUNTS_TAKEOVERS : Fld := ⟨378, 0x1c10c, 16, 0x40, 1, 0x0, 0, 16, .RC, 0x0⟩
/-- Entries into SYNCING. -/
def YOK_COUNTS_RESYNCS : Fld := ⟨379, 0x1c10c, 16, 0x40, 1, 0x0, 16, 16, .RC, 0x0⟩
/-- Kept records not yet answered. -/
def YOK_REPLAY_PENDING : Fld := ⟨380, 0x1c110, 16, 0x40, 1, 0x0, 0, 16, .HW, 0x0⟩
/-- Entries written as TAKEOVER_REPLAY. -/
def YOK_REPLAY_REPLAYED : Fld := ⟨381, 0x1c110, 16, 0x40, 1, 0x0, 16, 16, .RC, 0x0⟩
/-- Journals over half the STAGE range (R308). -/
def YOK_ERR_STAGE_FULL : Fld := ⟨382, 0x1c114, 16, 0x40, 1, 0x0, 0, 8, .RC, 0x0⟩
/-- Mirror message failures. -/
def YOK_ERR_MIRROR_FAIL : Fld := ⟨383, 0x1c114, 16, 0x40, 1, 0x0, 8, 8, .RC, 0x0⟩
/-- DIRECT packets dropped (R302). -/
def YOK_ERR_DENIED : Fld := ⟨384, 0x1c114, 16, 0x40, 1, 0x0, 16, 8, .RC, 0x0⟩
/-- Bytes mirrored for the pen. -/
def YOK_MIRROR_BYTES_BYTES : Fld := ⟨385, 0x1c118, 16, 0x40, 1, 0x0, 0, 64, .RC, 0x0⟩
/-- Own frame number of the last partner packet. -/
def YOK_LAST_RX_FRAME : Fld := ⟨386, 0x1c120, 16, 0x40, 1, 0x0, 0, 64, .HW, 0x0⟩

/-! Table 12.9 (12_power_thermal.md). -/

/-- SAG_WARN in force (R317). -/
def PWR_STATUS_SAG_WARN : Fld := ⟨387, 0x15000, 1, 0x0, 1, 0x0, 0, 1, .HW, 0x0⟩
/-- 0 input voltage, 1 external SAG_N (R316). -/
def PWR_STATUS_SAG_CAUSE : Fld := ⟨388, 0x15000, 1, 0x0, 1, 0x0, 1, 1, .HW, 0x0⟩
/-- Current clamp holds (R326). -/
def PWR_STATUS_CLAMP : Fld := ⟨389, 0x15000, 1, 0x0, 1, 0x0, 2, 1, .HW, 0x0⟩
/-- Loop at its floor above the cap (R325). -/
def PWR_STATUS_CAP_HELD : Fld := ⟨390, 0x15000, 1, 0x0, 1, 0x0, 3, 1, .HW, 0x0⟩
/-- G updated at least once (R322). -/
def PWR_STATUS_CAL_VALID : Fld := ⟨391, 0x15000, 1, 0x0, 1, 0x0, 4, 1, .HW, 0x0⟩
/-- Cause of the last supply reset: 0 none, 1 SAG_RESET, 2 OV_RESET, 3 POWER_OVERCURRENT. -/
def PWR_STATUS_LAST_SUPPLY_RESET : Fld := ⟨392, 0x15000, 1, 0x0, 1, 0x0, 5, 3, .HW, 0x0⟩
/-- Loop target in MHz (R324). -/
def PWR_STATUS_ACLK_MHZ : Fld := ⟨393, 0x15000, 1, 0x0, 1, 0x0, 16, 11, .HW, 0x5dc⟩
/-- Cap in W, 2,900–3,200 (R323). -/
def PWR_CAP_CAP_W : Fld := ⟨394, 0x15004, 1, 0x0, 1, 0x0, 0, 12, .RW, 0xc80⟩
/-- Sag current limit in A, 50–64; other values read back as 0x3A. -/
def PWR_SAG_ILIM_ILIM_A : Fld := ⟨395, 0x15008, 1, 0x0, 1, 0x0, 0, 8, .RW, 0x3a⟩
/-- Input voltage, 100 µs average, units of 10 mV. -/
def PWR_VIN_VIN : Fld := ⟨396, 0x1500c, 1, 0x0, 1, 0x0, 0, 16, .HW, 0x0⟩
/-- Input current, 100 µs average, units of 2 mA. -/
def PWR_IIN_IIN : Fld := ⟨397, 0x15010, 1, 0x0, 1, 0x0, 0, 16, .HW, 0x0⟩
/-- Last P_meas in W (R322). -/
def PWR_PIN_P_MEAS : Fld := ⟨398, 0x15014, 1, 0x0, 1, 0x0, 0, 16, .HW, 0x0⟩
/-- Last P_est in W (R321). -/
def PWR_PIN_P_EST : Fld := ⟨399, 0x15014, 1, 0x0, 1, 0x0, 16, 16, .HW, 0x0⟩
/-- G in units of 2^−14. -/
def PWR_CAL_GAIN : Fld := ⟨400, 0x15018, 1, 0x0, 1, 0x0, 0, 16, .HW, 0x4000⟩
/-- Current clamps. -/
def PWR_COUNTS_CLAMP : Fld := ⟨401, 0x1501c, 1, 0x0, 1, 0x0, 0, 16, .RC, 0x0⟩
/-- CAP_HELD events. -/
def PWR_COUNTS_CAP_HELD : Fld := ⟨402, 0x1501c, 1, 0x0, 1, 0x0, 16, 16, .RC, 0x0⟩
/-- SAG_WARN entries. -/
def PWR_SAG_WARN : Fld := ⟨403, 0x15020, 1, 0x0, 1, 0x0, 0, 16, .RC, 0x0⟩
/-- Lowest VIN since last read, units of 10 mV. A read returns the value and sets the field to 0xFFFF, not to 0, … -/
def PWR_SAG_MIN_VIN : Fld := ⟨404, 0x15020, 1, 0x0, 1, 0x0, 16, 16, .RC, 0xffff⟩
/-- Frame whose start made the last update (R337). -/
def PWR_ENERGY_FRAME_FRAME : Fld := ⟨405, 0x15028, 1, 0x0, 1, 0x0, 0, 64, .HW, 0x0⟩
/-- Device total, µJ. -/
def PWR_DEV_ENERGY_UJ : Fld := ⟨406, 0x15030, 1, 0x0, 1, 0x0, 0, 64, .HW, 0x0⟩
/-- Stretched cycles of CT die d, d = 0–23 (R329). -/
def PWR_DROOP_STRETCHED : Fld := ⟨407, 0x15100, 24, 0x8, 1, 0x0, 0, 32, .RC, 0x0⟩
/-- DROOP_EXCESS entries (R330). -/
def PWR_DROOP_EXCESS : Fld := ⟨408, 0x15100, 24, 0x8, 1, 0x0, 32, 16, .RC, 0x0⟩
/-- DROOP_EXCESS in force. -/
def PWR_DROOP_EXCESS_ACTIVE : Fld := ⟨409, 0x15100, 24, 0x8, 1, 0x0, 48, 1, .HW, 0x0⟩
/-- Pen p total, µJ; 0 while the pen is absent. -/
def PWR_PEN_ENERGY_UJ : Fld := ⟨410, 0x15400, 16, 0x8, 1, 0x0, 0, 64, .HW, 0x0⟩
/-- Tenant t total, µJ, t = 0–63. -/
def PWR_TEN_ENERGY_UJ : Fld := ⟨411, 0x15500, 64, 0x8, 1, 0x0, 0, 64, .HW, 0x0⟩

/-! Table 12.10 (12_power_thermal.md). -/

/-- A trip holds somewhere (R332). -/
def THM_STATUS_TRIP_ANY : Fld := ⟨412, 0x16000, 1, 0x0, 1, 0x0, 0, 1, .HW, 0x0⟩
/-- The last device reset was THERMAL_CRITICAL (R334). -/
def THM_STATUS_LAST_RESET_CRIT : Fld := ⟨413, 0x16000, 1, 0x0, 1, 0x0, 1, 1, .HW, 0x0⟩
/-- Frame of the last trip entry. -/
def THM_TRIP_FRAME_FRAME : Fld := ⟨414, 0x16008, 1, 0x0, 1, 0x0, 0, 64, .HW, 0x0⟩
/-- T_ct of CT die d, °C. -/
def THM_CT_TEMP_C : Fld := ⟨415, 0x16100, 24, 0x4, 1, 0x0, 0, 8, .HW, 0x0⟩
/-- 0 C0, 1 C1, 2 C2, 3 TRIP (Table 12.5). -/
def THM_CT_LEVEL : Fld := ⟨416, 0x16100, 24, 0x4, 1, 0x0, 8, 3, .HW, 0x0⟩
/-- Trips of die d. -/
def THM_CT_COUNT_TRIPS : Fld := ⟨417, 0x16200, 24, 0x4, 1, 0x0, 0, 16, .RC, 0x0⟩
/-- Entries into C2 from C0 or C1 (R331). -/
def THM_CT_COUNT_C2 : Fld := ⟨418, 0x16200, 24, 0x4, 1, 0x0, 16, 16, .RC, 0x0⟩
/-- Zone m tripped. Temperatures are in MHB_TEMP. -/
def THM_ZONE_TRIP : Fld := ⟨419, 0x16300, 8, 0x4, 1, 0x0, 0, 1, .HW, 0x0⟩
/-- Trips of zone m. -/
def THM_ZONE_TRIPS : Fld := ⟨420, 0x16300, 8, 0x4, 1, 0x0, 16, 16, .RC, 0x0⟩
/-- k = 0–3 LK 0–3, 4–5 TD 0–1, 6 HX, 7 MG; °C. -/
def THM_DIE_TEMP_C : Fld := ⟨421, 0x16340, 8, 0x4, 1, 0x0, 0, 8, .HW, 0x0⟩
/-- Die tripped. -/
def THM_DIE_TRIP : Fld := ⟨422, 0x16340, 8, 0x4, 1, 0x0, 8, 1, .HW, 0x0⟩
/-- Trips of the die. -/
def THM_DIE_TRIPS : Fld := ⟨423, 0x16340, 8, 0x4, 1, 0x0, 16, 16, .RC, 0x0⟩

/-! Table 13.10 (13_faults_reset.md). -/

/-- A record was lost (R342). -/
def ERR_STATUS_LOG_OVERFLOW : Fld := ⟨424, 0x14000, 1, 0x0, 1, 0x0, 0, 1, .W1C, 0x0⟩
/-- The sheepdog was reset. -/
def ERR_STATUS_SDG_RESET : Fld := ⟨425, 0x14000, 1, 0x0, 1, 0x0, 1, 1, .W1C, 0x0⟩
/-- A dump was written since the last clear. -/
def ERR_STATUS_DUMP_NEW : Fld := ⟨426, 0x14000, 1, 0x0, 1, 0x0, 2, 1, .W1C, 0x0⟩
/-- Cause of the last device reset (R358). -/
def ERR_STATUS_LAST_DEV_RESET : Fld := ⟨427, 0x14000, 1, 0x0, 1, 0x0, 4, 3, .HW, 0x0⟩
/-- Non-fatal records. -/
def ERR_COUNTS_NONFATAL : Fld := ⟨428, 0x14004, 1, 0x0, 1, 0x0, 0, 16, .RC, 0x0⟩
/-- Pen-fatal records. -/
def ERR_COUNTS_PENFATAL : Fld := ⟨429, 0x14004, 1, 0x0, 1, 0x0, 16, 16, .RC, 0x0⟩
/-- CE_STORM records. -/
def ERR_COUNTS2_CE_STORM : Fld := ⟨430, 0x14008, 1, 0x0, 1, 0x0, 0, 16, .RC, 0x0⟩
/-- Unpopulated accesses from outside stalls (R343). -/
def ERR_COUNTS2_UNPOP : Fld := ⟨431, 0x14008, 1, 0x0, 1, 0x0, 16, 16, .RC, 0x0⟩
/-- Refetches that passed (R356). -/
def ERR_RF_DONE_DONE : Fld := ⟨432, 0x1400c, 1, 0x0, 1, 0x0, 0, 16, .RC, 0x0⟩
/-- REFETCH_FAIL records. -/
def ERR_RF_DONE_FAILED : Fld := ⟨433, 0x1400c, 1, 0x0, 1, 0x0, 16, 16, .RC, 0x0⟩
/-- LOG_SEQ of the newest record. -/
def ERR_LOG_SEQ_NEWEST : Fld := ⟨434, 0x14010, 1, 0x0, 1, 0x0, 0, 32, .HW, 0x0⟩
/-- LOG_SEQ shown in ERR_LOG_WIN. -/
def ERR_LOG_SEL_SEL : Fld := ⟨435, 0x14014, 1, 0x0, 1, 0x0, 0, 32, .RW, 0x0⟩
/-- Oldest LOG_SEQ in the RAM ring. -/
def ERR_LOG_MIN_OLDEST : Fld := ⟨436, 0x14018, 1, 0x0, 1, 0x0, 0, 32, .HW, 0x0⟩
/-- Record SEL (Table 13.2); all 0 when it is not in the ring. Changes when SEL changes and when the ring moves … -/
def ERR_LOG_WIN_RECORD : Fld := ⟨437, 0x14040, 1, 0x0, 1, 0x0, 0, 512, .HW, 0x0⟩
/-- Bit c: class c raises the error MSI-X vector. -/
def ERR_IRQ_MASK_CLASS_EN : Fld := ⟨438, 0x14080, 1, 0x0, 1, 0x0, 0, 4, .RW, 0xe⟩
/-- Corrected events per unit per second before CE_STORM. -/
def ERR_CE_THRESH_PER_S : Fld := ⟨439, 0x14084, 1, 0x0, 1, 0x0, 0, 16, .RW, 0x400⟩
/-- A write of 1 with KEY = 0x4B52 starts a HOST_RESET device reset. -/
def ERR_DEV_CTRL_RESET : Fld := ⟨440, 0x14088, 1, 0x0, 1, 0x0, 0, 1, .RW, 0x0⟩
/-- With RESET: write no dump. -/
def ERR_DEV_CTRL_NO_DUMP : Fld := ⟨441, 0x14088, 1, 0x0, 1, 0x0, 1, 1, .RW, 0x0⟩
/-- Must be 0x4B52 in the same write as RESET; otherwise the write is discarded. -/
def ERR_DEV_CTRL_KEY : Fld := ⟨442, 0x14088, 1, 0x0, 1, 0x0, 16, 16, .RW, 0x0⟩
/-- Bit i: full-dump slot i holds a dump. -/
def ERR_DUMP_STATUS_VALID : Fld := ⟨443, 0x140c0, 1, 0x0, 1, 0x0, 0, 2, .HW, 0x0⟩
/-- Bit j: short-dump slot j holds a dump. -/
def ERR_DUMP_STATUS_SHORT_VALID : Fld := ⟨444, 0x140c0, 1, 0x0, 1, 0x0, 2, 4, .HW, 0x0⟩
/-- A copy is in progress. -/
def ERR_DUMP_STATUS_BUSY : Fld := ⟨445, 0x140c0, 1, 0x0, 1, 0x0, 6, 1, .HW, 0x0⟩
/-- The last copy completed. -/
def ERR_DUMP_STATUS_COPY_DONE : Fld := ⟨446, 0x140c0, 1, 0x0, 1, 0x0, 7, 1, .W1C, 0x0⟩
/-- The last copy was refused (R361). -/
def ERR_DUMP_STATUS_COPY_FAIL : Fld := ⟨447, 0x140c0, 1, 0x0, 1, 0x0, 8, 1, .W1C, 0x0⟩
/-- Host address of the copy; bits [11:0] must be 0. The register keeps the value written; a copy started with … -/
def ERR_DUMP_DST_ADDR : Fld := ⟨448, 0x140c8, 1, 0x0, 1, 0x0, 0, 64, .RW, 0x0⟩
/-- 0–1 full slot; 2–5 short slot 0–3. -/
def ERR_DUMP_CTRL_SOURCE : Fld := ⟨449, 0x140d0, 1, 0x0, 1, 0x0, 0, 3, .RW, 0x0⟩
/-- A write of 1 starts the copy. Hardware clears it. -/
def ERR_DUMP_CTRL_COPY : Fld := ⟨450, 0x140d0, 1, 0x0, 1, 0x0, 3, 1, .RW, 0x0⟩
/-- Hub of the selected entry. -/
def ERR_RF_SEL_HUB : Fld := ⟨451, 0x140e0, 1, 0x0, 1, 0x0, 0, 3, .RW, 0x0⟩
/-- Unavailable-list entry, 0–63. -/
def ERR_RF_SEL_ENTRY : Fld := ⟨452, 0x140e0, 1, 0x0, 1, 0x0, 3, 6, .RW, 0x0⟩
/-- Stream header address of the entry. -/
def ERR_RF_VIEW_HDR : Fld := ⟨453, 0x140e8, 1, 0x0, 1, 0x0, 0, 48, .HW, 0x0⟩
/-- 0 empty, 1 YOKE, 2 HOST, 3 FAILED. -/
def ERR_RF_VIEW_STATE : Fld := ⟨454, 0x140e8, 1, 0x0, 1, 0x0, 48, 2, .HW, 0x0⟩
/-- Block number of the entry. -/
def ERR_RF_BLOCK_BLOCK : Fld := ⟨455, 0x140f0, 1, 0x0, 1, 0x0, 0, 24, .HW, 0x0⟩
/-- Frames since listing, saturating. -/
def ERR_RF_BLOCK_FRAMES : Fld := ⟨456, 0x140f0, 1, 0x0, 1, 0x0, 24, 8, .HW, 0x0⟩
/-- Host address of the stream copy (R355). -/
def ERR_RF_SRC_ADDR : Fld := ⟨457, 0x140f8, 1, 0x0, 1, 0x0, 0, 64, .RW, 0x0⟩
/-- Function f, 0 PF and 1–63 VF, or one of its tenants, is draining (R351); 0 once the drain ends. -/
def ERR_FN_STATUS_DISABLING : Fld := ⟨458, 0x14300, 64, 0x4, 1, 0x0, 0, 1, .HW, 0x0⟩
/-- Requests answered FUNCTION_DISABLED by count (R352). -/
def ERR_FN_STATUS_LOST : Fld := ⟨459, 0x14300, 64, 0x4, 1, 0x0, 16, 16, .RC, 0x0⟩

/-! Table 13.11 (13_faults_reset.md). -/

/-- 0 RUN, 1 DRAINING, 2 RESET, 3 HELD (Table 13.6). -/
def ERR_PEN_STATE_STATE : Fld := ⟨460, 0x14100, 16, 0x20, 1, 0x0, 0, 3, .HW, 0x0⟩
/-- Domain of the last fence: 1 stall, 2 pen, 3 CT die. -/
def ERR_PEN_STATE_DOMAIN : Fld := ⟨461, 0x14100, 16, 0x20, 1, 0x0, 3, 3, .HW, 0x0⟩
/-- A write of 1 fences the pen (R350). Hardware clears it. -/
def ERR_PEN_CTRL_FENCE : Fld := ⟨462, 0x14104, 16, 0x20, 1, 0x0, 0, 1, .RW, 0x0⟩
/-- After a reset, stay HELD. -/
def ERR_PEN_CTRL_HOLD : Fld := ⟨463, 0x14104, 16, 0x20, 1, 0x0, 1, 1, .RW, 0x0⟩
/-- A write of 1 leaves HELD. Hardware clears it. -/
def ERR_PEN_CTRL_RESUME : Fld := ⟨464, 0x14104, 16, 0x20, 1, 0x0, 2, 1, .RW, 0x0⟩
/-- Pen-level fences. -/
def ERR_PEN_COUNT_FENCES : Fld := ⟨465, 0x14108, 16, 0x20, 1, 0x0, 0, 16, .RC, 0x0⟩
/-- Command engine fences (R347). -/
def ERR_PEN_COUNT_ENGINE_RESETS : Fld := ⟨466, 0x14108, 16, 0x20, 1, 0x0, 16, 16, .RC, 0x0⟩
/-- Longest drain since last read, in µs. -/
def ERR_PEN_DRAIN_MAX_US : Fld := ⟨467, 0x1410c, 16, 0x20, 1, 0x0, 0, 16, .RC, 0x0⟩
/-- Requests answered HANG_FENCED at step 4. -/
def ERR_PEN_DRAIN_ANSWERED : Fld := ⟨468, 0x1410c, 16, 0x20, 1, 0x0, 16, 16, .RC, 0x0⟩
/-- LOG_SEQ of the record that started the last fence. -/
def ERR_PEN_LAST_LOG_SEQ : Fld := ⟨469, 0x14110, 16, 0x20, 1, 0x0, 0, 32, .HW, 0x0⟩

/-! Table 14.9 (14_management_security.md). -/

/-- 0 BOOT, 1 RUN, 2 RESET. -/
def SDG_STATUS_STATE : Fld := ⟨470, 0x17000, 1, 0x0, 1, 0x0, 0, 2, .HW, 0x0⟩
/-- An MCTP EID is assigned. -/
def SDG_STATUS_EID_VALID : Fld := ⟨471, 0x17000, 1, 0x0, 1, 0x0, 2, 1, .HW, 0x0⟩
/-- Sheepdog resets since power-on. -/
def SDG_STATUS_RESETS : Fld := ⟨472, 0x17000, 1, 0x0, 1, 0x0, 16, 16, .RC, 0x0⟩
/-- Seconds since the sheepdog booted. -/
def SDG_UPTIME_S : Fld := ⟨473, 0x17004, 1, 0x0, 1, 0x0, 0, 32, .HW, 0x0⟩
/-- 0 none yet, 1 SMBus, 2 I3C (R364). -/
def SDG_MGMT_MODE : Fld := ⟨474, 0x17008, 1, 0x0, 1, 0x0, 0, 2, .HW, 0x0⟩
/-- Static address. -/
def SDG_MGMT_SMB_ADDR : Fld := ⟨475, 0x17008, 1, 0x0, 1, 0x0, 2, 7, .HW, 0x0⟩
/-- Dynamic address; 0 when unassigned. -/
def SDG_MGMT_I3C_DA : Fld := ⟨476, 0x17008, 1, 0x0, 1, 0x0, 9, 7, .HW, 0x0⟩
/-- MCTP endpoint ID. -/
def SDG_MGMT_EID : Fld := ⟨477, 0x17008, 1, 0x0, 1, 0x0, 16, 8, .HW, 0x0⟩
/-- Boot count, as in error records. -/
def SDG_BOOT_COUNT_BOOT : Fld := ⟨478, 0x1700c, 1, 0x0, 1, 0x0, 0, 32, .HW, 0x0⟩
/-- Coolant inlet, °C. -/
def SDG_COOLANT_INLET_C : Fld := ⟨479, 0x17010, 1, 0x0, 1, 0x0, 0, 8, .HW, 0x0⟩
/-- Coolant outlet, °C. -/
def SDG_COOLANT_OUTLET_C : Fld := ⟨480, 0x17010, 1, 0x0, 1, 0x0, 8, 8, .HW, 0x0⟩
/-- MCTP messages received. -/
def SDG_OOB_COUNTS_MCTP_RX : Fld := ⟨481, 0x17014, 1, 0x0, 1, 0x0, 0, 16, .RC, 0x0⟩
/-- MCTP messages discarded as malformed. -/
def SDG_OOB_COUNTS_MCTP_BAD : Fld := ⟨482, 0x17014, 1, 0x0, 1, 0x0, 16, 16, .RC, 0x0⟩

/-! Table 14.10 (14_management_security.md). -/

/-- 0 NORMAL, 1 LIMITED, 2 RECOVERY (R373). -/
def SEC_BOOT_STATUS_STATE : Fld := ⟨483, 0x18000, 1, 0x0, 1, 0x0, 0, 2, .HW, 0x0⟩
/-- Booted bank: 0 A, 1 B. -/
def SEC_BOOT_STATUS_BANK : Fld := ⟨484, 0x18000, 1, 0x0, 1, 0x0, 2, 1, .HW, 0x0⟩
/-- The other bank was booted (Table 14.5, R377). -/
def SEC_BOOT_STATUS_FALLBACK : Fld := ⟨485, 0x18000, 1, 0x0, 1, 0x0, 3, 1, .W1C, 0x0⟩
/-- Debug open (R383). -/
def SEC_BOOT_STATUS_DEBUG : Fld := ⟨486, 0x18000, 1, 0x0, 1, 0x0, 4, 1, .HW, 0x0⟩
/-- Table 14.6. -/
def SEC_BOOT_STATUS_REASON : Fld := ⟨487, 0x18000, 1, 0x0, 1, 0x0, 8, 8, .HW, 0x0⟩
/-- A bank is pending (R376). -/
def SEC_FW_PENDING_PENDING : Fld := ⟨488, 0x18004, 1, 0x0, 1, 0x0, 0, 1, .HW, 0x0⟩
/-- Pending bank. -/
def SEC_FW_PENDING_BANK : Fld := ⟨489, 0x18004, 1, 0x0, 1, 0x0, 1, 1, .HW, 0x0⟩
/-- The running boot is an unconfirmed trial (R377). -/
def SEC_FW_PENDING_TRY : Fld := ⟨490, 0x18004, 1, 0x0, 1, 0x0, 2, 1, .HW, 0x0⟩
/-- Anti-rollback counter (R378). Fused: DESIGN CHOICE, log 4. -/
def SEC_ARC_ARC : Fld := ⟨491, 0x18008, 1, 0x0, 1, 0x0, 0, 6, .HW, 0x0⟩
/-- A commit request was discarded. -/
def SEC_ARC_REJECT : Fld := ⟨492, 0x18008, 1, 0x0, 1, 0x0, 6, 1, .W1C, 0x0⟩
/-- Lowest SVN of the running bank. -/
def SEC_ARC_COMMIT_TARGET : Fld := ⟨493, 0x18008, 1, 0x0, 1, 0x0, 16, 6, .HW, 0x0⟩
/-- A write of 1 with KEY requests a commit. Hardware clears it. -/
def SEC_ARC_COMMIT_GO : Fld := ⟨494, 0x1800c, 1, 0x0, 1, 0x0, 0, 1, .RW, 0x0⟩
/-- Must be 0x4B41 in the same write as GO. -/
def SEC_ARC_COMMIT_KEY : Fld := ⟨495, 0x1800c, 1, 0x0, 1, 0x0, 16, 16, .RW, 0x0⟩
/-- VERSION of the running image of kind k + 1, k = 0–3. -/
def SEC_IMG_VER_VERSION : Fld := ⟨496, 0x18010, 4, 0x4, 1, 0x0, 0, 32, .HW, 0x0⟩
/-- SVN of kind 1. -/
def SEC_IMG_SVN_SDG : Fld := ⟨497, 0x18020, 1, 0x0, 1, 0x0, 0, 6, .HW, 0x0⟩
/-- SVN of kind 2. -/
def SEC_IMG_SVN_SEQ : Fld := ⟨498, 0x18020, 1, 0x0, 1, 0x0, 8, 6, .HW, 0x0⟩
/-- SVN of kind 3. -/
def SEC_IMG_SVN_LNK : Fld := ⟨499, 0x18020, 1, 0x0, 1, 0x0, 16, 6, .HW, 0x0⟩
/-- SVN of kind 4. -/
def SEC_IMG_SVN_HUB : Fld := ⟨500, 0x18020, 1, 0x0, 1, 0x0, 24, 6, .HW, 0x0⟩
/-- Bit i: truss key slot i holds a key. -/
def SEC_KEY_STATUS_VALID : Fld := ⟨501, 0x18024, 1, 0x0, 1, 0x0, 0, 4, .HW, 0x0⟩
/-- Bit i: vendor firmware key i revoked (R369). Fused: DESIGN CHOICE, log 4. -/
def SEC_KEY_STATUS_VKEY_REVOKED : Fld := ⟨502, 0x18024, 1, 0x0, 1, 0x0, 4, 4, .HW, 0x0⟩
/-- KEY_COUNTER (R380). -/
def SEC_KEY_COUNTER_COUNTER : Fld := ⟨503, 0x18028, 1, 0x0, 1, 0x0, 0, 32, .HW, 0x0⟩
/-- Host address of a key record; bits [2:0] must be 0. The register keeps the value written; a record submitted … -/
def SEC_KEYREC_ADDR_ADDR : Fld := ⟨504, 0x18030, 1, 0x0, 1, 0x0, 0, 64, .RW, 0x0⟩
/-- A write of 1 submits the record. Hardware clears it. -/
def SEC_KEY_CTRL_APPLY : Fld := ⟨505, 0x18038, 1, 0x0, 1, 0x0, 0, 1, .RW, 0x0⟩
/-- The last record was applied. -/
def SEC_KEY_CTRL_DONE : Fld := ⟨506, 0x18038, 1, 0x0, 1, 0x0, 1, 1, .W1C, 0x0⟩
/-- The last record was refused. -/
def SEC_KEY_CTRL_FAIL : Fld := ⟨507, 0x18038, 1, 0x0, 1, 0x0, 2, 1, .W1C, 0x0⟩
/-- Code from R380; 0x00 after a success. -/
def SEC_KEY_CTRL_ERR : Fld := ⟨508, 0x18038, 1, 0x0, 1, 0x0, 8, 8, .HW, 0x0⟩

/-! Table 15.4 (15_host_interface.md). -/

/-- 1: two ×8 ports (R387). Strap: DESIGN CHOICE, log 4. -/
def HIF_PORT_BIFUR : Fld := ⟨509, 0x4, 1, 0x0, 1, 0x0, 0, 1, .HW, 0x0⟩
/-- Port 0 link up. -/
def HIF_PORT_P0_UP : Fld := ⟨510, 0x4, 1, 0x0, 1, 0x0, 1, 1, .HW, 0x0⟩
/-- Port 1 link up. -/
def HIF_PORT_P1_UP : Fld := ⟨511, 0x4, 1, 0x0, 1, 0x0, 2, 1, .HW, 0x0⟩
/-- Port 0 lanes in use. -/
def HIF_PORT_P0_WIDTH : Fld := ⟨512, 0x4, 1, 0x0, 1, 0x0, 8, 5, .HW, 0x0⟩
/-- Port 1 lanes in use. -/
def HIF_PORT_P1_WIDTH : Fld := ⟨513, 0x4, 1, 0x0, 1, 0x0, 13, 5, .HW, 0x0⟩
/-- 0 down, 1 32 GT/s, 2 64 GT/s. -/
def HIF_PORT_P0_RATE : Fld := ⟨514, 0x4, 1, 0x0, 1, 0x0, 18, 2, .HW, 0x0⟩
/-- As P0_RATE. -/
def HIF_PORT_P1_RATE : Fld := ⟨515, 0x4, 1, 0x0, 1, 0x0, 20, 2, .HW, 0x0⟩
/-- Virtual functions, 63. -/
def HIF_CAPS_VF_MAX : Fld := ⟨516, 0x8, 1, 0x0, 1, 0x0, 0, 7, .RO, 0x3f⟩
/-- Host DMA windows per function. -/
def HIF_CAPS_WINDOWS : Fld := ⟨517, 0x8, 1, 0x0, 1, 0x0, 7, 5, .RO, 0x8⟩
/-- Accesses rejected (R392), saturating. -/
def HIF_DMA_DENY_COUNT : Fld := ⟨518, 0x10, 1, 0x0, 1, 0x0, 0, 32, .RC, 0x0⟩
/-- CXL.mem accesses filtered (R389), saturating. -/
def HIF_HDM_DENY_COUNT : Fld := ⟨519, 0x14, 1, 0x0, 1, 0x0, 0, 32, .RC, 0x0⟩
/-- Error or poisoned completions (R394). -/
def HIF_CPL_ERR_ERR : Fld := ⟨520, 0x18, 1, 0x0, 1, 0x0, 0, 16, .RC, 0x0⟩
/-- Completion timeouts. -/
def HIF_CPL_ERR_TIMEOUT : Fld := ⟨521, 0x18, 1, 0x0, 1, 0x0, 16, 16, .RC, 0x0⟩
/-- Function of the last rejected access. -/
def HIF_DMA_LAST_FUNCTION : Fld := ⟨522, 0x1c, 1, 0x0, 1, 0x0, 0, 6, .HW, 0x0⟩
/-- 1: it was a write. -/
def HIF_DMA_LAST_WRITE : Fld := ⟨523, 0x1c, 1, 0x0, 1, 0x0, 6, 1, .HW, 0x0⟩
/-- First byte of the last rejected access. -/
def HIF_DMA_LAST_ADDR_ADDR : Fld := ⟨524, 0x20, 1, 0x0, 1, 0x0, 0, 64, .HW, 0x0⟩
/-- Window w of function f enabled, w = 0–7, f = 0–63. -/
def HIF_WIN_BASE_EN : Fld := ⟨525, 0x1000, 64, 0x80, 8, 0x10, 0, 1, .RW, 0x0⟩
/-- Reads permitted. -/
def HIF_WIN_BASE_RD : Fld := ⟨526, 0x1000, 64, 0x80, 8, 0x10, 1, 1, .RW, 0x0⟩
/-- Writes permitted. -/
def HIF_WIN_BASE_WR : Fld := ⟨527, 0x1000, 64, 0x80, 8, 0x10, 2, 1, .RW, 0x0⟩
/-- First 4 KiB page. -/
def HIF_WIN_BASE_BASE : Fld := ⟨528, 0x1000, 64, 0x80, 8, 0x10, 12, 52, .RW, 0x0⟩
/-- Last 4 KiB page, inclusive. -/
def HIF_WIN_LIMIT_LIMIT : Fld := ⟨529, 0x1008, 64, 0x80, 8, 0x10, 12, 52, .RW, 0x0⟩

/-! Table 15.6 (15_host_interface.md). -/

/-- This function's number. -/
def FN_ID_FUNCTION : Fld := ⟨530, 0x100000, 1, 0x0, 1, 0x0, 0, 6, .RO, 0x0⟩
/-- Same as ERR_FN_STATUS.DISABLING. -/
def FN_ID_DISABLING : Fld := ⟨531, 0x100000, 1, 0x0, 1, 0x0, 6, 1, .HW, 0x0⟩
/-- Value of ERR_FN_STATUS.LOST; reading here does not clear it. -/
def FN_LOST_LOST : Fld := ⟨532, 0x100004, 1, 0x0, 1, 0x0, 0, 16, .HW, 0x0⟩
/-- Bit t: tenant t is shown in this view. -/
def FN_TENANTS_TENANTS : Fld := ⟨533, 0x100008, 1, 0x0, 1, 0x0, 0, 64, .HW, 0x0⟩
/-- Copy of HIF_WIN_BASE and HIF_WIN_LIMIT of window w. -/
def FN_WIN_WINDOW : Fld := ⟨534, 0x100100, 1, 0x0, 8, 0x10, 0, 128, .HW, 0x0⟩

/-! Table 15.7 (15_host_interface.md). -/

/-- Table 2.8 FLAGS bit 0. Truss: log 5. -/
def TV_CFG_ENABLED : Fld := ⟨535, 0x101000, 64, 0x800, 1, 0x0, 0, 1, .RWT, 0x0⟩
/-- Table 2.8 FLAGS bit 1. Truss: log 5. -/
def TV_CFG_PAUSE_MODE : Fld := ⟨536, 0x101000, 64, 0x800, 1, 0x0, 1, 1, .RWT, 0x0⟩
/-- SHARE_GROUP. Truss: log 5. -/
def TV_CFG_SHARE_GROUP : Fld := ⟨537, 0x101000, 64, 0x800, 1, 0x0, 2, 4, .RWT, 0x0⟩
/-- PEN_MASK. Truss: log 5. -/
def TV_CFG_PEN_MASK : Fld := ⟨538, 0x101000, 64, 0x800, 1, 0x0, 8, 16, .RWT, 0x0⟩
/-- CLASS_MASK. Truss: log 5. -/
def TV_CFG_CLASS_MASK : Fld := ⟨539, 0x101000, 64, 0x800, 1, 0x0, 24, 3, .RWT, 0x0⟩
/-- TROUGH_BASE; the window starts at HDM offset BASE × 0x1_0000. Truss: log 5. -/
def TV_TROUGH_BASE : Fld := ⟨540, 0x101004, 64, 0x800, 1, 0x0, 0, 10, .RWT, 0x0⟩
/-- TROUGH_SIZE, in 64 KiB. Truss: log 5. -/
def TV_TROUGH_SIZE : Fld := ⟨541, 0x101004, 64, 0x800, 1, 0x0, 16, 11, .RWT, 0x0⟩
/-- BUCKET_CAP. Truss: log 5. -/
def TV_BUCKET_CAP_CAP : Fld := ⟨542, 0x101008, 64, 0x800, 1, 0x0, 0, 32, .RWT, 0x0⟩
/-- REFILL per frame. Truss: log 5. -/
def TV_REFILL_REFILL : Fld := ⟨543, 0x10100c, 64, 0x800, 1, 0x0, 0, 32, .RWT, 0x0⟩
/-- Bucket level after the last sweep (R240). -/
def TV_BUCKET_LEVEL : Fld := ⟨544, 0x101010, 64, 0x800, 1, 0x0, 0, 32, .HW, 0x0⟩
/-- PAUSE_TTL_S. Truss: log 5. -/
def TV_PAUSE_TTL_S : Fld := ⟨545, 0x101014, 64, 0x800, 1, 0x0, 0, 32, .RWT, 0x0⟩
/-- Same value as PWR_TEN_ENERGY t (R337). -/
def TV_ENERGY_UJ : Fld := ⟨546, 0x101018, 64, 0x800, 1, 0x0, 0, 64, .HW, 0x0⟩
/-- Latched CRIB_BASE (R231); 0 until latched. -/
def TV_CRIB_BASE_BASE : Fld := ⟨547, 0x101020, 64, 0x800, 1, 0x0, 0, 64, .HW, 0x0⟩
/-- Latched CRIB_LEN. -/
def TV_CRIB_LEN_LEN : Fld := ⟨548, 0x101028, 64, 0x800, 1, 0x0, 0, 32, .HW, 0x0⟩
/-- Charges taken at acceptance since the last device reset (R240). -/
def TV_CHARGED_TOKENS : Fld := ⟨549, 0x101030, 64, 0x800, 1, 0x0, 0, 64, .HW, 0x0⟩

/-- The fields of Table 0.1, in its order. -/
def tbl0_1 : List Fld :=
  [HIF_MODULE_ID_STEPPING, HIF_MODULE_ID_LOFT_TIB, HIF_MODULE_ID_VARIANT, HIF_MODULE_ID_MODEL]
/-- The fields of Table 2.12, in its order. -/
def tbl2_12 : List Fld :=
  [TRS_CTRL_START, TRS_CTRL_QUIESCE, TRS_CTRL_ABORT, TRS_SRC_ADDR_LO_ADDR_LO, TRS_SRC_ADDR_HI_ADDR_HI, TRS_SRC_LEN_LEN, 
   TRS_STATUS_STATE, TRS_STATUS_QUIESCED, TRS_STATUS_IN_FORCE, TRS_STATUS_DONE, TRS_STATUS_FAIL, TRS_STATUS_ERR_CODE, 
   TRS_STATUS_ERR_SECTION, TRS_STATUS_SKIPPED, TRS_STATUS_BUSY_REFUSED, TRS_ERR_DETAIL_OFFSET, TRS_SERIAL_SERIAL, TRS_BASE_SERIAL_BASE, 
   TRS_COMMIT_FRAME_FRAME, TRS_TIMING_T_FRAME_US, TRS_TIMING_LAP_US, TRS_DEVICE_DEVICE_ID, TRS_FAIL_COUNT_FAILS]
/-- The fields of Table 2.13, in its order. -/
def tbl2_13 : List Fld :=
  [PEN_STATE_PRESENT, PEN_STATE_LOAD_PENDING, PEN_STATE_REFUSING, PEN_CTRL_KV_POLICY_EFF, PEN_CTRL_PLAN_MASK, PEN_CTRL_CTX_MAX, 
   PEN_QUADS_LO_QUADS_LO, PEN_QUADS_HI_QUADS_HI, PEN_PORTS_PORT_MASK, PEN_HUB_SHARE_SHARE, PEN_SERIAL_SERIAL, PEN_HBM_RANGE_RANGE, 
   PEN_LOFT_RANGE_RANGE, PEN_SAVE_SAVE_RANGE, PEN_SAVE_PLAN_ABI]
/-- The fields of Table 3.8, in its order. -/
def tbl3_8 : List Fld :=
  [FSQ_FRAME_FRAME, FSQ_TICK_SUBTICK, FSQ_TICK_ELAPSED_US, FSQ_CAPS_RESIDENT, FSQ_CAPS_SLOTS, FSQ_CAPS_PLAN_ABI_MAX, 
   FSQ_CAPS2_PLAN_ABI_MIN]
/-- The fields of Table 3.9, in its order. -/
def tbl3_9 : List Fld :=
  [FSQ_STATE_SLOT_SEL, FSQ_STATE_IDLE_FRAME, FSQ_STATE_SLIPPED, FSQ_STATE_SUSPENDED, FSQ_STATE_SUSP_THERMAL, FSQ_STATE_SUSP_SAG, 
   FSQ_STATE_SUSP_TAKEOVER, FSQ_STATE_SUSP_OTHER, FSQ_STATE_RESIDENT, FSQ_STATE_BLOCKED, FSQ_ROTA_CTRL_LEN_M1, FSQ_ROTA_CTRL_APPLY, 
   FSQ_ROTA_CTRL_REJECT, FSQ_ROTA_LO_ENTRY0_7, FSQ_ROTA_HI_ENTRY8_15, FSQ_ROTA_FRAME_F_A, FSQ_PLAN_SRC_SRC, FSQ_PLAN_DST_DST, 
   FSQ_PLAN_LEN_LEN, FSQ_PLAN_CMD_SLOT, FSQ_PLAN_CMD_START, FSQ_PLAN_CMD_ABORT, FSQ_PLAN_STATUS_STATE, FSQ_PLAN_STATUS_DONE, 
   FSQ_PLAN_STATUS_FAIL, FSQ_PLAN_STATUS_BUSY_REFUSED, FSQ_PLAN_STATUS_ERR_CODE, FSQ_PLAN_STATUS_READY_MASK, FSQ_PLAN_STATUS_STALE_MASK, FSQ_WDOG_COUNT_COUNT, 
   FSQ_OVERRUN_COUNT_OVERRUN, FSQ_OVERRUN_COUNT_BODY_LATE, FSQ_SWAP_COUNT_SWAPS, FSQ_SWAP_ABORT_ABORTS, FSQ_SWAP_ABORT_CTX_BAD, FSQ_SWAP_MAX_MAX, 
   FSQ_FRAME_COUNTS_IDLE_FRAMES, FSQ_FRAME_COUNTS_SLIPPED, FSQ_HELD_HELD, FSQ_TAIL_DONE_FRAME]
/-- The fields of Table 4.10, in its order. -/
def tbl4_10 : List Fld :=
  [STL_STATUS_TDA_BUSY, STL_STATUS_PREFETCH_VALID, STL_STATUS_TDA_BANK_OWNED, STL_STATUS_TDA_BANK_POISON, STL_STATUS_LUT_BUSY, STL_STATUS_LUT_BANK_OWNED, 
   STL_STATUS_LUT_BANK_POISON, STL_TDA_CMDS_CMDS, STL_TDA_CYCLES_CYCLES, STL_TDA_SLOTS_RUN_RUN, STL_TDA_SLOTS_SKIP_SKIP, STL_TDA_GATED_GATED, 
   STL_SAT_TDA_SAT, STL_SAT_LUT_SAT, STL_SAT2_COMBINE_SAT, STL_SAT2_BEXP_CLAMP, STL_BAD_QUINTET_BAD, STL_BAD_LUT_BAD, 
   STL_FAULT_CMD_MALFORMED, STL_FAULT_ACC_OWNER, STL_PREFETCH_HIT, STL_PREFETCH_DISCARD, STL_LUT_CMDS_CMDS, STL_LUT_CYCLES_CYCLES, 
   STL_LAST_ERR_CODE, STL_LAST_ERR_TASK, STL_CTRL_SKIP_EN, STL_CTRL_PREFETCH_EN]
/-- The fields of Table 5.11, in its order. -/
def tbl5_11 : List Fld :=
  [STL_LNU_CMDS_CMDS, STL_LNS_EVT_LNS_SAT, STL_LNS_EVT_LNS_UFL, STL_NARROW_CONV_SAT, STL_NARROW_OSP_OVERFLOW, STL_OSP_USED, 
   STL_OSP_BAD, STL_RANGE_ALARM_ALARM, STL_ALARM_FRAME_FRAME, STL_CVD_VALID_VALID, STL_LNU_FAULT_MALFORMED, STL_LNU_FAULT_GEN_FAULT]
/-- The fields of Table 5.12, in its order. -/
def tbl5_12 : List Fld :=
  [GEN_STATE_BOUND, GEN_STATE_CONSUMER, GEN_STATE_SHARED, GEN_STATE_FROM_CTX, GEN_STATE_CTX, GEN_NEXT_NEXT, 
   GEN_END_END, GEN_DRAWS_DRAWS, GEN_LEDGER_USED, GEN_LEDGER_PEAK, GEN_ALIAS_COUNT_ALIAS, GEN_ALIAS_COUNT_LEDGER_FULL, 
   GEN_FAULT_COUNT_UNBOUND, GEN_FAULT_COUNT_RANGE]
/-- The fields of Table 6.10, in its order. -/
def tbl6_10 : List Fld :=
  [STL_TSE_CMDS_CMDS, STL_TSE_BLOCKS_BLOCKS, STL_SPARSE_OOR, STL_SPARSE_HDR, STL_SPX_FAULT_MALFORMED, STL_SPX_FAULT_ACC_OWNER, 
   STL_ROUTE_ROUTE_DROP, STL_ROUTE_COND_ELIDED, STL_ANP_MISS_CAUGHT, STL_ANP_MISS_LOST, STL_ANP_MISC_DEMOTED, STL_ANP_MISC_COND_BAD, 
   STL_ANP_FLAG_FLAG, STL_TSE_PAIRS_RUN_RUN, STL_TSE_PAIRS_SKIP_SKIP]
/-- The fields of Table 6.11, in its order. -/
def tbl6_11 : List Fld :=
  [MHB_SCF_STATUS_BUSY, MHB_SCF_STATUS_PEN, MHB_SCF_CMDS_CMDS, MHB_SCF_ENTRIES_ENTRIES, MHB_SCF_TILES_TILES, MHB_SCF_ERR_OOR, 
   MHB_SCF_ERR_TRIT_BAD, MHB_SCF_ERR_MALFORMED]
/-- The fields of Table 7.7, in its order. -/
def tbl7_7 : List Fld :=
  [SPD_STATUS_ZEROING, SPD_STATUS_DMA_BUSY, SPD_DMA_CMDS_CMDS, SPD_DMA_BYTES_BYTES, SPD_CONFLICT_CYCLES, SPD_CONFLICT_LAST_BANK, 
   SPD_CONFLICT_LAST_ENGINE, SPD_CONFLICT_LAST_TASK, SPD_DMA_YIELD_YIELDS, SPD_SAME_ROW_EVENTS, SPD_SLOT_FAULT_UNDERRUN, SPD_SLOT_FAULT_OVERRUN, 
   SPD_SLOT_LAST_SLOT, SPD_SLOT_LAST_KIND, SPD_SLOT_LAST_TASK, SPD_BOUND_CNT_BOUND, SPD_BOUND_CNT_UNPOP, SPD_ECC_CE, 
   SPD_ECC_UE, SPD_ECC_ADDR_OFFSET, SPD_TAG_SEL_SLOT, SPD_TAG_VIEW_GEN, SPD_TAG_VIEW_FULL, SPD_TAG_VIEW_PNEXT, 
   SPD_TAG_VIEW_READS_LEFT, SPD_DMA_MAL_MALFORMED, SPD_ARR_COUNT]
/-- The fields of Table 8.9, in its order. -/
def tbl8_9 : List Fld :=
  [MHB_STATUS_THR_LEVEL, MHB_STATUS_HOT_REFRESH0, MHB_STATUS_HOT_REFRESH1, MHB_STATUS_ACLK_CAP, MHB_STATUS_SCRUB_ACTIVE, MHB_TEMP_STACK0_C, 
   MHB_TEMP_STACK1_C, MHB_TEMP_HUB_C, MHB_TEMP_ZONE_C, MHB_THR_COUNT_L1, MHB_THR_COUNT_L2, MHB_THR_TIME_US, 
   MHB_ECC_CE_CE, MHB_ECC_UE_UE, MHB_ECC_UE_PATROL_FIX, MHB_UE_ADDR_ADDR, MHB_RET_STATUS_USED0, MHB_RET_STATUS_USED1, 
   MHB_RET_STATUS_REFUSED, MHB_RET_HIT_HITS, MHB_HC_HIT_HIT, MHB_HC_MISS_MISS, MHB_HC_ECC_REFETCH, MHB_SCRUB_CTRL_PERIOD_H, 
   MHB_UNAVAIL_COUNT, MHB_UNAVAIL_OVERFLOW, MHB_BYTES_RD_BYTES, MHB_BYTES_WR_BYTES]
/-- The fields of Table 8.10, in its order. -/
def tbl8_10 : List Fld :=
  [CDE_STATUS_BUSY, CDE_STATUS_PEN, CDE_STATUS_OP, CDE_CMDS_CMDS, CDE_BLOCKS_BLOCKS, CDE_RAW_RAW, 
   CDE_ERR_LENGTH, CDE_ERR_CRC, CDE_ERR_INDEX, CDE_ERR_HDR, CDE_ERR2_POISON_IN, CDE_ERR2_UNAVAIL, 
   CDE_ERR2_FULL, CDE_ERR2_MALFORMED, CDE_KV_PARITY, CDE_KV_ZERO_BLK, CDE_BYTES_IN_BYTES, CDE_BYTES_OUT_BYTES, 
   CDE_LAST_ERR_CODE, CDE_LAST_ERR_PEN, CDE_LAST_ADDR_ADDR]
/-- The fields of Table 8.11, in its order. -/
def tbl8_11 : List Fld :=
  [MHB_LOFT_ECC_CE, MHB_LOFT_ECC_UE, MHB_LOFT_UE_ADDR_ADDR, MHB_LOFT_RET_STATUS_USED, MHB_LOFT_RET_STATUS_REFUSED, MHB_LOFT_RET_HIT_HITS, 
   MHB_LOFT_BYTES_BYTES]
/-- The fields of Table 8.12, in its order. -/
def tbl8_12 : List Fld :=
  [MHB_RET_ENTRY_PAGE, MHB_RET_ENTRY_VALID, MHB_LOFT_RET_ENTRY_GRANULE, MHB_LOFT_RET_ENTRY_VALID]
/-- The fields of Table 9.13, in its order. -/
def tbl9_13 : List Fld :=
  [KVM_POOL_BASE, KVM_POOL_CNT_COUNT, KVM_LOFT_BASE, KVM_LOFT_CNT_COUNT, KVM_PFX_BASE, KVM_PFX_CNT_COUNT, 
   KVM_GEOM_G_KV, KVM_GEOM_MAX_SPANS, KVM_WATER_LOW_G, KVM_WATER_HIGH_G, KVM_CTRL_APPLY, KVM_CTRL_REJECT, 
   KVM_CTRL_CONFIGURED, KVM_FREE_PAGES, KVM_USED_PAGES, KVM_LOFT_USED_PAGES, KVM_COW_PAGES, KVM_SPILLED_PAGES, 
   KVM_PREFETCHED_PAGES, KVM_DROPPED_PAGES, KVM_RECOMPUTED_SPANS, KVM_PFX_HIT_BLOCKS, KVM_PFX_MISS_LOOKUPS, KVM_PFX_INSERT_ENTRIES, 
   KVM_PFX_EVICT_EVICT, KVM_PFX_EVICT_SKIP, KVM_REFUSE_KV_FULL, KVM_REFUSE_LOST, KVM_TTL_EXPIRED, KVM_TTL_CTX_LOST, 
   KVM_REF_SAT_COPIES, KVM_RECOMP_Q_SPANS, KVM_RECOMP_Q_HELD]
/-- The fields of Table 9.14, in its order. -/
def tbl9_14 : List Fld :=
  [SMP_STATUS_BUSY, SMP_SAMPLES_COUNT, SMP_GREEDY_COUNT, SMP_EMPTY_COUNT, SMP_EMPTY_ACCEPT, SMP_BAD_BAD, 
   SMP_BAD_MALFORMED, SMP_LAST_ERR_CODE, SMP_LAST_ERR_TASK]
/-- The fields of Table 10.10, in its order. -/
def tbl10_10 : List Fld :=
  [LNK_STATUS_STATE, LNK_STATUS_MODE, LNK_STATUS_WIDTH, LNK_STATUS_LANE_FAIL, LNK_STATUS_SPLIT, LNK_CTRL_RETRAIN, 
   LNK_CTRL_SER_EXP, LNK_PEER_PEER_DEV, LNK_PEER_PEER_LINK, LNK_EVENTS_DEGRADE, LNK_EVENTS_DOWN, LNK_FEC_CORR_CORR, 
   LNK_FEC_UNCORR_UNCORR, LNK_HANG_HANGS, LNK_TX_BYTES_BYTES, LNK_RX_BYTES_BYTES, LNK_MAC_MAC, LNK_PORT_STATUS_UP, 
   LNK_RT_CTRL_COMMIT, LNK_RT_ADDR_DEV, LNK_RT_DATA_ENTRY, LNK_RT_STATUS_BAD_ROUTE, LNK_RT_STATUS_BAD_EGRESS, LNK_RT_STATUS_HERD_DEST]
/-- The fields of Table 10.11, in its order. -/
def tbl10_11 : List Fld :=
  [ZLT_CFG_RTO_US, ZLT_CFG_RETRY_MAX, ZLT_TWD_TWD_US, ZLT_TX_PKTS_PKTS, ZLT_RX_PKTS_PKTS, ZLT_RETX_RETX, 
   ZLT_DROP_CRC, ZLT_DROP_TTL, ZLT_DROP_DUP, ZLT_DROP_MISC, ZLT_DENY_INBOUND, ZLT_DENY_EGRESS, 
   ZLT_FAIL_FAILED, ZLT_FAIL_NOROUTE, ZLT_ECN_CE, ZLT_OPEN_OPEN, ZLT_JOB_JOB_ID, ZLT_PEN_RX_BYTES_BYTES]
/-- The fields of Table 10.12, in its order. -/
def tbl10_12 : List Fld :=
  [PEG_GCFG_ENABLE, PEG_GCFG_RESET, PEG_GCFG_PEN, PEG_GCFG_LOCAL_N, PEG_GCFG_CHILD_COUNT, PEG_GPARENT_PARENT_DEV, 
   PEG_GTAG_GROUP_TAG, PEG_GTO_PEER_TO_US, PEG_GSTATUS_STATE, PEG_GSTATUS_PACE_LIMITER, PEG_GSTATUS_REJECT, PEG_GSTATUS_LAST_REASON, 
   PEG_GSTATUS_LOCAL_COUNT, PEG_GSTATUS_CHILD_ARRIVED, PEG_GSEQ_SEQ, PEG_GLAST_LAST_DEV, PEG_GRELEASES_RELEASES, PEG_GWAIT_US_WAIT, 
   PEG_GCOUNTS_PACED, PEG_GCOUNTS_TIMEOUTS, PEG_GERR_SEQ_ERR, PEG_GERR_STALE]
/-- The fields of Table 11.6, in its order. -/
def tbl11_6 : List Fld :=
  [YOK_CFG_PARTNER_DEV, YOK_CFG_PORT, YOK_CFG_ALT_PATH, YOK_PENS_PEN_MASK, YOK_PENS_ACTIVE_MASK, YOK_STATUS_PAIRED, 
   YOK_STATUS_SPLIT, YOK_STATUS_TAG_MISMATCH, YOK_CTRL_DEMOTE, YOK_TX_BYTES_BYTES, YOK_RX_BYTES_BYTES, YOK_FETCH_SERVED, 
   YOK_FETCH_NAK]
/-- The fields of Table 11.7, in its order. -/
def tbl11_7 : List Fld :=
  [YOK_PEN_STATE_STATE, YOK_PEN_STATE_ROLE, YOK_PEN_STATE_MISSED, YOK_COMMIT_NO_COMMIT, YOK_COMMIT_MAX_MAX, YOK_COMMIT_MAX_SLOW, 
   YOK_COUNTS_TAKEOVERS, YOK_COUNTS_RESYNCS, YOK_REPLAY_PENDING, YOK_REPLAY_REPLAYED, YOK_ERR_STAGE_FULL, YOK_ERR_MIRROR_FAIL, 
   YOK_ERR_DENIED, YOK_MIRROR_BYTES_BYTES, YOK_LAST_RX_FRAME]
/-- The fields of Table 12.9, in its order. -/
def tbl12_9 : List Fld :=
  [PWR_STATUS_SAG_WARN, PWR_STATUS_SAG_CAUSE, PWR_STATUS_CLAMP, PWR_STATUS_CAP_HELD, PWR_STATUS_CAL_VALID, PWR_STATUS_LAST_SUPPLY_RESET, 
   PWR_STATUS_ACLK_MHZ, PWR_CAP_CAP_W, PWR_SAG_ILIM_ILIM_A, PWR_VIN_VIN, PWR_IIN_IIN, PWR_PIN_P_MEAS, 
   PWR_PIN_P_EST, PWR_CAL_GAIN, PWR_COUNTS_CLAMP, PWR_COUNTS_CAP_HELD, PWR_SAG_WARN, PWR_SAG_MIN_VIN, 
   PWR_ENERGY_FRAME_FRAME, PWR_DEV_ENERGY_UJ, PWR_DROOP_STRETCHED, PWR_DROOP_EXCESS, PWR_DROOP_EXCESS_ACTIVE, PWR_PEN_ENERGY_UJ, 
   PWR_TEN_ENERGY_UJ]
/-- The fields of Table 12.10, in its order. -/
def tbl12_10 : List Fld :=
  [THM_STATUS_TRIP_ANY, THM_STATUS_LAST_RESET_CRIT, THM_TRIP_FRAME_FRAME, THM_CT_TEMP_C, THM_CT_LEVEL, THM_CT_COUNT_TRIPS, 
   THM_CT_COUNT_C2, THM_ZONE_TRIP, THM_ZONE_TRIPS, THM_DIE_TEMP_C, THM_DIE_TRIP, THM_DIE_TRIPS]
/-- The fields of Table 13.10, in its order. -/
def tbl13_10 : List Fld :=
  [ERR_STATUS_LOG_OVERFLOW, ERR_STATUS_SDG_RESET, ERR_STATUS_DUMP_NEW, ERR_STATUS_LAST_DEV_RESET, ERR_COUNTS_NONFATAL, ERR_COUNTS_PENFATAL, 
   ERR_COUNTS2_CE_STORM, ERR_COUNTS2_UNPOP, ERR_RF_DONE_DONE, ERR_RF_DONE_FAILED, ERR_LOG_SEQ_NEWEST, ERR_LOG_SEL_SEL, 
   ERR_LOG_MIN_OLDEST, ERR_LOG_WIN_RECORD, ERR_IRQ_MASK_CLASS_EN, ERR_CE_THRESH_PER_S, ERR_DEV_CTRL_RESET, ERR_DEV_CTRL_NO_DUMP, 
   ERR_DEV_CTRL_KEY, ERR_DUMP_STATUS_VALID, ERR_DUMP_STATUS_SHORT_VALID, ERR_DUMP_STATUS_BUSY, ERR_DUMP_STATUS_COPY_DONE, ERR_DUMP_STATUS_COPY_FAIL, 
   ERR_DUMP_DST_ADDR, ERR_DUMP_CTRL_SOURCE, ERR_DUMP_CTRL_COPY, ERR_RF_SEL_HUB, ERR_RF_SEL_ENTRY, ERR_RF_VIEW_HDR, 
   ERR_RF_VIEW_STATE, ERR_RF_BLOCK_BLOCK, ERR_RF_BLOCK_FRAMES, ERR_RF_SRC_ADDR, ERR_FN_STATUS_DISABLING, ERR_FN_STATUS_LOST]
/-- The fields of Table 13.11, in its order. -/
def tbl13_11 : List Fld :=
  [ERR_PEN_STATE_STATE, ERR_PEN_STATE_DOMAIN, ERR_PEN_CTRL_FENCE, ERR_PEN_CTRL_HOLD, ERR_PEN_CTRL_RESUME, ERR_PEN_COUNT_FENCES, 
   ERR_PEN_COUNT_ENGINE_RESETS, ERR_PEN_DRAIN_MAX_US, ERR_PEN_DRAIN_ANSWERED, ERR_PEN_LAST_LOG_SEQ]
/-- The fields of Table 14.9, in its order. -/
def tbl14_9 : List Fld :=
  [SDG_STATUS_STATE, SDG_STATUS_EID_VALID, SDG_STATUS_RESETS, SDG_UPTIME_S, SDG_MGMT_MODE, SDG_MGMT_SMB_ADDR, 
   SDG_MGMT_I3C_DA, SDG_MGMT_EID, SDG_BOOT_COUNT_BOOT, SDG_COOLANT_INLET_C, SDG_COOLANT_OUTLET_C, SDG_OOB_COUNTS_MCTP_RX, 
   SDG_OOB_COUNTS_MCTP_BAD]
/-- The fields of Table 14.10, in its order. -/
def tbl14_10 : List Fld :=
  [SEC_BOOT_STATUS_STATE, SEC_BOOT_STATUS_BANK, SEC_BOOT_STATUS_FALLBACK, SEC_BOOT_STATUS_DEBUG, SEC_BOOT_STATUS_REASON, SEC_FW_PENDING_PENDING, 
   SEC_FW_PENDING_BANK, SEC_FW_PENDING_TRY, SEC_ARC_ARC, SEC_ARC_REJECT, SEC_ARC_COMMIT_TARGET, SEC_ARC_COMMIT_GO, 
   SEC_ARC_COMMIT_KEY, SEC_IMG_VER_VERSION, SEC_IMG_SVN_SDG, SEC_IMG_SVN_SEQ, SEC_IMG_SVN_LNK, SEC_IMG_SVN_HUB, 
   SEC_KEY_STATUS_VALID, SEC_KEY_STATUS_VKEY_REVOKED, SEC_KEY_COUNTER_COUNTER, SEC_KEYREC_ADDR_ADDR, SEC_KEY_CTRL_APPLY, SEC_KEY_CTRL_DONE, 
   SEC_KEY_CTRL_FAIL, SEC_KEY_CTRL_ERR]
/-- The fields of Table 15.4, in its order. -/
def tbl15_4 : List Fld :=
  [HIF_PORT_BIFUR, HIF_PORT_P0_UP, HIF_PORT_P1_UP, HIF_PORT_P0_WIDTH, HIF_PORT_P1_WIDTH, HIF_PORT_P0_RATE, 
   HIF_PORT_P1_RATE, HIF_CAPS_VF_MAX, HIF_CAPS_WINDOWS, HIF_DMA_DENY_COUNT, HIF_HDM_DENY_COUNT, HIF_CPL_ERR_ERR, 
   HIF_CPL_ERR_TIMEOUT, HIF_DMA_LAST_FUNCTION, HIF_DMA_LAST_WRITE, HIF_DMA_LAST_ADDR_ADDR, HIF_WIN_BASE_EN, HIF_WIN_BASE_RD, 
   HIF_WIN_BASE_WR, HIF_WIN_BASE_BASE, HIF_WIN_LIMIT_LIMIT]
/-- The fields of Table 15.6, in its order. -/
def tbl15_6 : List Fld :=
  [FN_ID_FUNCTION, FN_ID_DISABLING, FN_LOST_LOST, FN_TENANTS_TENANTS, FN_WIN_WINDOW]
/-- The fields of Table 15.7, in its order. -/
def tbl15_7 : List Fld :=
  [TV_CFG_ENABLED, TV_CFG_PAUSE_MODE, TV_CFG_SHARE_GROUP, TV_CFG_PEN_MASK, TV_CFG_CLASS_MASK, TV_TROUGH_BASE, 
   TV_TROUGH_SIZE, TV_BUCKET_CAP_CAP, TV_REFILL_REFILL, TV_BUCKET_LEVEL, TV_PAUSE_TTL_S, TV_ENERGY_UJ, 
   TV_CRIB_BASE_BASE, TV_CRIB_LEN_LEN, TV_CHARGED_TOKENS]
/-- Every field of every register table. -/
def all : List Fld :=
  tbl0_1 ++ tbl2_12 ++ tbl2_13 ++ tbl3_8 ++ tbl3_9 ++ tbl4_10 ++
  tbl5_11 ++ tbl5_12 ++ tbl6_10 ++ tbl6_11 ++ tbl7_7 ++ tbl8_9 ++
  tbl8_10 ++ tbl8_11 ++ tbl8_12 ++ tbl9_13 ++ tbl9_14 ++ tbl10_10 ++
  tbl10_11 ++ tbl10_12 ++ tbl11_6 ++ tbl11_7 ++ tbl12_9 ++ tbl12_10 ++
  tbl13_10 ++ tbl13_11 ++ tbl14_9 ++ tbl14_10 ++ tbl15_4 ++ tbl15_6 ++
  tbl15_7

end R

end Sys2Proof.Machine
end

