-- ==== Sys2Proof/Machine/State.lean ====
section
/-! DEFINITION. The state of the module as plain data, the reasons a step can stop, and the state after reset.

`State` = the queue of waiting commands, the memories, and the hardware `Hw`: the clock, the register store, what the
module has sent, the part a device reset resets (`Dev`, R344) and the part it does not (`Mgt`: the sheepdog's domain,
the flash, the fuses and the supply). Every default value of a field is its value after reset. -/

namespace Sys2Proof.Machine

/-! ## Memories -/

/-- The memories the module reaches: its 48-bit device physical space (R21), the host memory behind the DMA windows
(the environment's, log 9), and the marks of device lines: key `address / 64`, bit 0 POISON, bit 1 SCHED (R171, R195,
R204, R395). A byte nothing has written reads 0 (log 6). -/
structure Mem where
  dev  : List Host.Cell := []
  host : List Host.Cell := []
  mark : Tbl Nat := []
deriving DecidableEq, Repr

/-- The canonical form of the three tables. -/
def Mem.wf (m : Mem) : Bool := Tbl.wf 0#8 m.dev && Tbl.wf 0#8 m.host && Tbl.wf 0 m.mark

/-- A write a command posts: bytes to device memory, bytes to host memory, the mark of one device line, or a
zero-fill of a range of device memory, which clears its marks (R172, Table 2.10). -/
inductive Post where
  | dev (addr : Nat) (bytes : Bytes)
  | host (addr : Nat) (bytes : Bytes)
  | mark (line : Nat) (bits : Nat)
  | zero (addr : Nat) (len : Nat)
deriving DecidableEq, Repr

/-! ## Clock -/

/-- Time since power-on in cycles of the 100 MHz reference (R53), and the tick source: the current frame, its start, the
start of the next one, the sub-tick, whether the tick runs, and the starts of the newest frames (a deadline names the actual
start of its frame). -/
structure Clock where
  now        : Nat := 0
  running    : Bool := false
  frame      : Nat := 0
  frameStart : Nat := 0
  due        : Nat := 0
  subtick    : Nat := 0
  starts     : List (Nat × Nat) := []
deriving DecidableEq, Repr

/-! ## Truss image in force (02_truss_image.md) -/

/-- A run of 2 MiB granules (Table 2.5). -/
structure Gran where
  start : Nat
  count : Nat
deriving DecidableEq, Repr

/-- A pen descriptor (Table 2.5) with the PLAN_ABI in force for the pen (R51) and its section as the image spells it
(R301). -/
structure PenDesc where
  kvPolicy  : Nat
  planMask  : Nat
  saveRange : Nat
  ctxMax    : Nat
  quads     : Nat
  portMask  : Nat
  hubShare  : Nat
  hbm       : List Gran
  loft      : List Gran
  planAbi   : Nat
  raw       : Bytes
deriving DecidableEq, Repr

/-- A port definition (Table 2.6). -/
structure PortDef where
  id       : Nat
  mode     : Nat
  linkMask : Nat
deriving DecidableEq, Repr

/-- The ceilings of one class (Table 2.7). -/
structure ClassLim where
  maxBatch  : Nat
  maxSeq    : Nat
  maxTokens : Nat
  bound     : Nat
deriving DecidableEq, Repr

/-- An admission entry (Table 2.7). -/
structure AdmEntry where
  pen    : Nat
  slot   : Nat
  digest : Bytes
  u0     : ClassLim
  u1     : ClassLim
  b      : ClassLim
deriving DecidableEq, Repr

/-- A tenant entry (Table 2.8), with its bytes in the image (R301). -/
structure Tenant where
  id        : Nat
  enabled   : Bool
  pauseMode : Nat
  share     : Nat
  function  : Nat
  penMask   : Nat
  classMask : Nat
  cap       : Nat
  refill    : Nat
  ttl       : Nat
  base      : Nat
  size      : Nat
  raw       : Bytes
deriving DecidableEq, Repr

/-- An EGRESS entry (10_herd_links.md). -/
structure Egress where
  dev  : Nat
  data : Bytes
deriving DecidableEq, Repr

/-- The YOKE section (Table 11.1). -/
structure YokeCfg where
  partner    : Nat
  port       : Nat
  altPath    : Bool
  penMask    : Nat
  activeMask : Nat
  pairTag    : Nat
  stage      : List Gran
deriving DecidableEq, Repr

/-- The truss image in force (R25, R51): its sections, and the digest of the last committed image (R29, Table 14.8). -/
structure Truss where
  tFrame   : Nat
  lap      : Nat
  deviceId : Nat
  pens     : Tbl PenDesc
  ports    : List PortDef
  adm      : List AdmEntry
  tenants  : List Tenant
  route    : Tbl Nat
  egress   : List Egress
  yoke     : Option YokeCfg
  eHdr     : Bytes
  digest   : Bytes
deriving DecidableEq, Repr

/-- A load in progress: its scope, its target pen, whether it is heavy, when it became PENDING and the frame from which its
heavy commit refuses intake; the key store as it stood when VERIFY began (R380), what will be in force after the commit, its
serial, and the granules being scrubbed. The image's bytes lie in the truss staging area (R34). -/
structure Load where
  len     : Nat
  src     : Nat
  whole   : Bool := true
  pen     : Nat := 0
  heavy   : Bool := false
  pending : Option Nat := none
  refuseF : Option Nat := none
  keys    : Tbl Bytes := []
  next    : Option Truss := none
  serial  : Nat := 0
  scrub   : List Gran := []
deriving DecidableEq, Repr

/-! ## Frames (03_frames.md) -/

/-- An installed or staged frame plan: where it lies, its digest, what its header holds (Table 3.3), its task graph, the
READS count of its buffer slots (R180; stall, slot, READS), and the number its READS tables go by. -/
structure Plan where
  addr      : Nat
  len       : Nat
  digest    : Bytes
  abi       : Nat
  headMask  : Nat
  tailMask  : Nat
  u0Reserve : Nat
  recompute : Nat
  flags     : Nat
  regionOff : Nat
  reads     : List (Nat × Nat × Nat)
  tasks     : List Task
  stale     : Bool := false
  key       : Nat := 0
deriving DecidableEq, Repr

/-- An installation in progress (R59): slot, source, destination and length as they were at START; whether the copy
failed, and the digest; the checked plan and the instant of staging once it is STAGED. -/
structure Inst where
  slot   : Nat
  src    : Nat
  dst    : Nat
  len    : Nat
  bad    : Bool := false
  digest : Bytes := []
  plan   : Option Plan := none
  staged : Nat := 0
deriving DecidableEq, Repr

/-- A replaced plan whose memory stays installed until the tail of `last` has completed (R59). -/
structure OldPlan where
  addr : Nat
  len  : Nat
  last : Nat
  key  : Nat
deriving DecidableEq, Repr

/-- Residency of a context (Table 3.6). -/
inductive Residency where
  | defined | swapIn | idle | ready | running | blocked | swapOut | faulted
deriving DecidableEq, Repr

/-- Serving state of a context (Table 9.7); FAULTED is the residency's. -/
inductive Serving where
  | free | active | paused | lost
deriving DecidableEq, Repr

/-- One context of a pen: residency (Table 3.6) with the instant it was entered and the address of its resident record,
wake-pending mark, serving state and owner (R245), late lock (R247), whether its previous step sampled a token, whether
its last START carried PREFIX with the chain's cached block and hash (R258), and the clock of a mode 0 pause (R260). -/
structure Ctx where
  res       : Residency := .defined
  since     : Nat := 0
  addr      : Nat := 0
  wake      : Bool := false
  serving   : Serving := .free
  owner     : Nat := 0
  late      : Bool := false
  sampled   : Bool := false
  prefixOn  : Bool := false
  domain    : Nat := 0
  hashBlk   : Nat := 0
  hash      : Bytes := []
  expiry    : Option Nat := none
  clockHeld : Bool := false
deriving DecidableEq, Repr

/-- A bound sequence: accepted and not yet answered (R241, R243). `codes` are the crib codes that apply (R10), `data` the result
bytes of its CRIB_EMIT, `resv` the KV pages reserved for it and not yet allocated (R252). -/
structure Bound where
  tenant  : Nat
  seq     : Nat
  idx     : Nat
  pos     : Nat
  frame   : Nat
  cls     : Nat
  slot    : Nat
  ctx     : Nat
  entry   : Bytes
  x       : Nat
  pos0    : Nat
  prefixT : Nat := 0
  miss    : Bool := false
  codes   : List Nat := []
  susp    : Bool := false
  emitted : Bool := false
  token   : Nat := 0xFFFFFFFF
  state   : Nat := 0
  flags   : Nat := 0
  outB    : Nat := 0
  data    : Bytes := []
  replay  : Bool := false
  held    : Bool := false
  resv    : Nat := 0
deriving DecidableEq, Repr

/-- A CONTROL sequence held on a busy context (R246), whether its record is replayed (R312), and whether the pen was suspended when it
was examined (R76). -/
structure Deferred where
  tenant : Nat
  seq    : Nat
  idx    : Nat
  ctx    : Nat
  entry  : Bytes
  replay : Bool := false
  susp   : Bool := false
deriving DecidableEq, Repr

/-- An open frame of a pen: the slot it runs, the number of its plan's READS tables, the address of its plan's region table,
the tasks of the plan it runs under, what is left of each incomplete task (one for its push and one for each command), the
tasks already pushed, and whether its body and its tail have completed (R55, R61). -/
structure PenFrame where
  frame    : Nat
  slot     : Nat
  key      : Nat
  regs     : Nat
  idle     : Bool
  slipped  : Bool
  tasks    : List Task
  left     : Tbl Nat
  pushed   : List Nat
  bodyDone : Bool := false
  tailDone : Bool := false
deriving DecidableEq, Repr

/-- The KV manager's configuration in force (R249, R251). -/
structure KvCfg where
  pool     : Nat
  poolCnt  : Nat
  loft     : Nat
  loftCnt  : Nat
  pfx      : Nat
  pfxCnt   : Nat
  gKv      : Nat
  maxSpans : Nat
  lowG     : Nat
  highG    : Nat
deriving DecidableEq, Repr

/-- A swap of the FSQ: the context, whether its record comes in or goes out, whether it belongs to a U0 set, and whether
it still waits for a U0 set or for a free slot (R69 to R71). -/
structure SwapEnt where
  ctx  : Nat
  inn  : Bool
  u0   : Bool
  wait : Bool := false
deriving DecidableEq, Repr

/-- A recompute ticket not yet marked DONE (R255). -/
structure Ticket where
  num   : Nat
  ctx   : Nat
  first : Nat
  nspan : Nat
  frame : Nat
deriving DecidableEq, Repr

/-- A background copy of a span between HBM and the loft (R253, R254, R259): `out` spills, its absence restores. -/
structure SpanMove where
  ctx  : Nat
  span : Nat
  out  : Bool
deriving DecidableEq, Repr

/-- The KV manager of a pen: configuration in force, reference counts of HBM and loft pages (R250), pages reserved at
acceptance, recompute queue and tickets, moves under way, pinned contexts (R254), whether reclamation runs, HBM and loft pages
whose freeing awaits a commit (R307), and the occupied entries of the prefix table, rising (R257, log 14). -/
structure Kv where
  cfg     : Option KvCfg := none
  refs    : Tbl Nat := []
  loftRef : Tbl Nat := []
  reserve : Nat := 0
  recomp  : List (Nat × Nat) := []
  tickets : List Ticket := []
  nextTkt : Nat := 1
  moves   : List SpanMove := []
  pins    : List (Nat × Nat) := []
  reclaim : Bool := false
  late    : List Nat := []
  lateL   : List Nat := []
  pfxUse  : List Nat := []
deriving DecidableEq, Repr

/-! ## Cribs (09_serving.md) and yoke (11_yoke.md) -/

/-- A crib entry before it is given its ring position and PHASE bit (Table 9.5). -/
structure CribEnt where
  tenant : Nat
  seq    : Nat
  status : Nat
  idx    : Nat
  flags  : Nat
  reason : Nat
  ctx    : Nat
  pen    : Nat
  slot   : Nat
  token  : Nat
  frame  : Nat
  pos    : Nat
  pfx    : Nat
  state  : Nat
  outB   : Nat
deriving DecidableEq, Repr

/-- A journal item (Table 11.3). -/
structure JItem where
  kind  : Nat
  addr  : Nat
  bytes : Bytes
deriving DecidableEq, Repr

/-- A commit of the active side in flight (R304, R306, R307): number, held entries, HBM and loft pages freed, whether COMMIT has
been sent, the bytes of its journal, and its commit point. -/
structure CommitSt where
  no    : Nat
  held  : List (Nat × Nat × Nat)
  freed : List Nat
  freedL : List Nat := []
  sent  : Bool
  bytes : Nat
  point : Nat
deriving DecidableEq, Repr

/-- A journal being received (R308): its bytes by offset, its length once COMMIT names it, and that COMMIT's PSN. -/
structure RxJournal where
  no    : Nat
  parts : List (Nat × Bytes)
  len   : Option Nat
  psn   : Nat := 0
deriving DecidableEq, Repr

/-- The mirrored state of a trough window (journal item WINDOW). -/
structure MirWin where
  freeSeq  : Nat
  bucket   : Nat
  answered : List Nat
deriving DecidableEq, Repr

/-- The yoke side of a pen: the held entries, freed HBM and loft pages and changed contexts (page tables or saved records, R303) of
the journal being built, the next commit number,
commits in flight, whether a partner packet came this frame, journals being received, the highest commit posted by the
partner, CRIB items of applied commits not yet posted by it, mirrored windows, the mirrored
directory, the first commit after the bulk copy once that is done, whether the pen is standby (R310), the frame in which its partner reported
UNPAIRED (R311), when a demotion began, the frame F_t of a takeover whose replay has not ended (R312), whether the descriptor and
the service digest differ (R301), whether a HELLO must tell the partner of a failed mirror, and the PSN of the packet that began this
synchronisation (R308, log 30). -/
structure YokeSt where
  held    : List (Nat × Nat × Nat) := []
  freed   : List Nat := []
  freedL  : List Nat := []
  changed : List Nat := []
  nextNo  : Nat := 1
  flight  : List CommitSt := []
  got     : Bool := false
  rx      : List RxJournal := []
  posted  : Nat := 0
  cribs   : List (Nat × JItem) := []
  mir     : Tbl MirWin := []
  dir     : Bytes := []
  bulk    : Option Nat := none
  standby : Bool := false
  lost    : Option Nat := none
  demote  : Option Nat := none
  takeF   : Option Nat := none
  descBad : Bool := false
  svcBad  : Bool := false
  again   : Bool := false
  syncPsn : Option Nat := none
deriving DecidableEq, Repr

/-- An error record (Table 13.2); the CRC is computed when it is read. -/
structure Rec where
  code   : Nat
  cls    : Nat
  kind   : Nat
  unit   : Nat
  pen    : Nat
  tenant : Nat
  flags  : Nat
  frame  : Nat
  tUs    : Nat
  rep    : Nat
  task   : Nat
  addr   : Nat
  seq    : Nat
  boot   : Nat
  ctx    : Nat
  slot   : Nat
  detail : Nat
deriving DecidableEq, Repr

/-- The FSQ instance of one pen with its context directory and KV manager; `chg` lists the charges accepted by frame and tenant
(R336), `emits` the positions of open frames that have had their CRIB_EMIT (R244). -/
structure PenSt where
  rota      : List Nat := [0]
  pendRota  : Option (List Nat) := none
  plans     : Tbl Plan := []
  inst      : Option Inst := none
  old       : List OldPlan := []
  ctxs      : Tbl Ctx := []
  bound     : List Bound := []
  nextPos   : Nat := 0
  counts    : List (Nat × Nat × Nat) := [(0, 0, 0), (0, 0, 0), (0, 0, 0)]
  deferred  : List Deferred := []
  frames    : List PenFrame := []
  swap      : List SwapEnt := []
  swapAt    : Nat := 0
  ledger    : List (Bytes × Nat × Nat × Bool) := []
  kv        : Kv := {}
  yoke      : YokeSt := {}
  serial    : Nat := 0
  dirtyClk  : Bool := false
  fenceAt   : Nat := 0
  fenceStl  : Nat := 0
  fenceRec  : Option Rec := none
  runAt     : Option Nat := none
  trsDone   : Bool := false
  chg       : List (Nat × Nat × Nat) := []
  seats     : List (Nat × Nat × Nat) := []
  emits     : List (Nat × Nat) := []
deriving DecidableEq, Repr

/-! ## Serving (09_serving.md) -/

/-- A pending record of a window: its SEQ and RCRC, the sequence indices already answered, the pen it names, whether it is held at
check 14 and whether its spans have been asked for (R254), whether it was a U0 STEP record when it was read, and whether it was kept
for replay (R312). -/
structure PendRec where
  seq      : Nat
  crc      : Nat := 0
  answered : List Nat := []
  pen      : Nat := 0
  held14   : Bool := false
  once14   : Bool := false
  u0       : Bool := false
  replay   : Bool := false
deriving DecidableEq, Repr

/-- The device's state of one trough window (R230 to R235). -/
structure Win where
  latched  : Bool := false
  cribBase : Nat := 0
  cribLen  : Nat := 0
  nextSeq  : Nat := 1
  cribTail : Nat := 0
  cribBad  : Bool := false
  cribWait : Bool := false
  seqErr   : Bool := false
  reinitW  : Bool := false
  lastBad  : Option Nat := none
  pend     : List PendRec := []
  reserved : Nat := 0
  sweepF   : Nat := 0
  accepted : Nat := 0
  refused  : Nat := 0
  budget   : Nat := 0
  late     : Nat := 0
  dlPassed : Nat := 0
  irqAt    : Option (Nat × Nat) := none
deriving DecidableEq, Repr

/-- A tenant's token bucket and total charge (R240), since when it is being disabled and whether its answers are given by count
(R351, R352), and its last entry while it drains after a load removed it (R417). -/
structure TenSt where
  bucket    : Nat := 0
  charged   : Nat := 0
  disabling : Option Nat := none
  byCount   : Bool := false
  ghost     : Option Tenant := none
deriving DecidableEq, Repr

/-! ## Engines (R56) -/

/-- A queued command: pen, frame, task, its index in the task, its bind position, its queue class and its bytes. -/
structure QCmd where
  pen   : Nat
  frame : Nat
  task  : Nat
  idx   : Nat
  pos   : Option Nat
  u0    : Bool
  cmd   : Bytes
deriving DecidableEq, Repr

/-- The queues of one engine, its running command, whether and since when it is being reset, and the frame of its last
watchdog. -/
structure EngSt where
  u0      : List QCmd := []
  lap     : List QCmd := []
  main    : List QCmd := []
  run     : Option QCmd := none
  reset   : Bool := false
  resetAt : Nat := 0
  wdogF   : Option Nat := none
deriving DecidableEq, Repr

/-! ## Stalls (04 to 07) -/

/-- A buffer slot (R179). -/
structure SlotSt where
  gen   : Nat := 0
  full  : Bool := false
  reads : Nat := 0
  pnext : Bool := false
deriving DecidableEq, Repr

/-- An accumulator bank: its owner task (frame and task), its 32-bit accumulators that differ from 0, and its poison
bits (bit 0 POISON, bit 1 SCHED) (R90, R105, R146). -/
structure Bank where
  owner  : Option (Nat × Nat) := none
  acc    : Tbl Int := []
  poison : Nat := 0
deriving DecidableEq, Repr

/-- A bound generator (R137 to R140): consumer, SHARED, FROM_CTX with its context, key, next and end counters, and the
task that holds the binding. -/
structure GenBind where
  consumer : Nat
  shared   : Bool
  fromCtx  : Bool
  ctx      : Nat
  key      : Bytes
  next     : Nat
  stop     : Nat
  frame    : Nat
  task     : Nat
deriving DecidableEq, Repr

/-- A detached command waiting (R191): its pen, the plan slot of its frame, frame, task, bind position and queue; its
opcode and bytes; its key (bind position of a CRIB_EMIT, group of a PEG_SYNC, next packet of a ZLT_PUT) and `occ` (occurrence
of a PEG_SYNC, message of a ZLT_PUT); the slots (stall, slot) whose read began FULL; the copies (destination, source) whose bytes
a DMA_MOVE has asked of the host; the poison its output carries; and how many events its wait still needs. -/
structure Detached where
  pen    : Nat := 0
  plan   : Nat := 0
  frame  : Nat := 0
  task   : Nat := 0
  pos    : Option Nat := none
  u0     : Bool := false
  op     : Nat := 0
  cmd    : Bytes := []
  key    : Nat := 0
  occ    : Nat := 0
  reads  : List (Nat × Nat) := []
  copies : List (Nat × Nat) := []
  poison : Nat := 0
  waits  : Nat := 0
deriving DecidableEq, Repr

/-- A WAIT_ARRIVALS in force (R186): engine, task, counter, target, CONSUME, and its detached slot when REMOTE. -/
structure WaitArr where
  eng     : Nat
  frame   : Nat
  task    : Nat
  ctr     : Nat
  target  : Nat
  consume : Bool
  det     : Option Nat
deriving DecidableEq, Repr

/-- A remote write held at the fabric during a zero-fill (R172); `area` bytes at its address take its marks without data. -/
structure HeldWrite where
  addr  : Nat
  bytes : Bytes
  mark  : Nat
  area  : Nat := 0
  ctr   : Option Nat
  slot  : Nat
  plan  : Nat
deriving DecidableEq, Repr

/-- The tile the TDA prefetched into its second mask buffer (R100): command, its weight address, slot and that slot's
GEN when it was read. -/
structure Prefetch where
  frame : Nat
  task  : Nat
  cmd   : Bytes
  slot  : Nat
  gen   : Nat
deriving DecidableEq, Repr

/-- What one stall holds beside its registers and its scratchpad: buffer slots, READS counts per plan (key plan
number × 4096 + slot), region registers per engine, frame and task, accumulator banks (0 to 3 TDA, 4 and 5 table path, 6 and 7
TSE), prefetched tile, conversion descriptors, generator bindings, detached slots, waits, held writes, and STL_CTRL as each engine
took it at its last command boundary (R112). -/
structure Stl where
  slots   : Tbl SlotSt := []
  reads   : Tbl Nat := []
  regions : Tbl (List (Nat × Nat)) := []
  banks   : Tbl Bank := []
  pre     : Option Prefetch := none
  cvd     : Tbl Bytes := []
  gens    : Tbl GenBind := []
  det     : Tbl Detached := []
  waits   : List WaitArr := []
  held    : List HeldWrite := []
  ctl     : Tbl Nat := []
deriving DecidableEq, Repr

/-! ## Errors (13_faults_reset.md) -/

/-- The error log (R342): RAM ring, newest first; last record of each die; die buffers while the sheepdog does not
take records, with the dies whose next record carries LOST; records not yet in flash; the flash log. -/
structure Log where
  ring   : List Rec := []
  last   : Tbl Nat := []
  buf    : Tbl (List Rec) := []
  lost   : List Nat := []
  toFl   : List Rec := []
  flash  : List (Rec × Nat) := []
  events : List Rec := []
deriving DecidableEq, Repr

/-- A sequencer trace entry (R359). -/
structure Trace where
  frame  : Nat
  tNs    : Nat
  kind   : Nat
  pen    : Nat
  stall  : Nat
  engine : Nat
  task   : Nat
  arg    : Nat
deriving DecidableEq, Repr

/-- An entry of a hub's unavailable-block list (R219, R353): stream header, block, whether SHARED, (pen, slot) mask,
state (1 YOKE, 2 HOST, 3 FAILED), the frame of listing, the parts of its refetch range not
yet fetched, and the host address of the stream copy while a host refetch runs (R355). -/
structure Unavail where
  hdr    : Nat
  block  : Nat
  mask   : List (Nat × Nat)
  state  : Nat
  listed : Nat
  need   : List (Nat × Nat) := []
  src    : Option Nat := none
deriving DecidableEq, Repr

/-- A line in the hub cache (R198, R199): its way, its line number, the poison bits cached with it, and the 8 B words of the copy
that hold an uncorrectable error. -/
structure CacheLine where
  way    : Nat
  line   : Nat
  poison : Nat := 0
  bad    : List Nat := []
deriving DecidableEq, Repr

/-! ## Host interface (15_host_interface.md) -/

/-- An MSI-X entry (R398). -/
structure Msix where
  masked  : Bool := true
  pending : Bool := false
  addr    : Nat := 0
  data    : Nat := 0
deriving DecidableEq, Repr

/-- A DMA window write not yet seen by checks (R393): function, window, BASE and LIMIT register values, and the instant
from which checks see it. -/
structure WinWrite where
  fn    : Nat
  win   : Nat
  base  : Nat
  limit : Nat
  due   : Nat
deriving DecidableEq, Repr

/-- A packet of the transport with the fields of its header (Table 10.5) and its payload; `commit` is bytes 0x1C to 0x1F
of a yoke packet's header (R302). -/
structure Pkt where
  typ     : Nat
  tc      : Nat
  ttl     : Nat := 16
  flags   : Nat := 0
  src     : Nat
  dst     : Nat
  job     : Nat := 0
  psn     : Nat := 0
  msg     : Nat := 0
  idx     : Nat := 0
  npkt    : Nat := 1
  pen     : Nat := 0
  ctr     : Nat := 0
  slot    : Nat := 0xFFFF
  commit  : Nat := 0
  addr    : Nat := 0
  payload : Bytes := []
deriving DecidableEq, Repr

/-- A link beside its registers (R267 to R273, R284): the widest width its next training may take, the instant it entered
its state, its last hang, and the 64 B credits it holds per class. -/
structure LinkSt where
  target : Nat := 8
  since  : Nat := 0
  hung   : Option Nat := none
  credit : List Nat := [0, 0, 0]
  turn   : Nat := 0
deriving DecidableEq, Repr

/-- A packet in the retransmit buffer (R279, R282): its port, the pen that sends it, when its timer started, how often it
has been sent. -/
structure TxPk where
  pkt   : Pkt
  port  : Nat
  pen   : Nat
  sent  : Nat
  tries : Nat
deriving DecidableEq, Repr

/-- The sending side of a flow (R282): next PSN, next message number, unacknowledged packets. -/
structure Flow where
  psn     : Nat := 0
  msg     : Nat := 0
  unacked : List TxPk := []
deriving DecidableEq, Repr

/-- The receiving side of a flow (R282): the next PSN not yet received, later ones received, packets not yet acknowledged
with the instant their ACK is due, and a congestion mark to echo. -/
structure RxFlow where
  next  : Nat := 0
  got   : List Nat := []
  unack : Nat := 0
  due   : Nat := 0
  ece   : Bool := false
deriving DecidableEq, Repr

/-- An open inbound message (R281): what names it, the packets accepted, and the stall, counter and slot of its end. -/
structure RxMsg where
  src   : Nat
  tc    : Nat
  msg   : Nat
  npkt  : Nat
  got   : List Nat := []
  stall : Option Nat := none
  plan  : Nat := 0
  ctr   : Option Nat := none
  slot  : Nat := 0xFFFF
  bad   : Bool := false
deriving DecidableEq, Repr

/-- A peg group beside its registers (R289 to R294): local arrivals of the current and later occurrences, the children that
have arrived, the instant its set was complete, the completing member and its reason, and the highest reason met since
the last release. -/
structure PegSt where
  locals : Nat := 0
  kids   : List Nat := []
  setAt  : Option Nat := none
  dev    : Nat := 0
  reason : Nat := 0
  seen   : Nat := 0
deriving DecidableEq, Repr

/-- What the module has sent or answered, newest first in the outbox: MSI-X messages, register and HDM read data, answers to snoops (no line held), messages of
the mailbox (channel 0), the management pair (1) and DOE (2), packets and link credits. -/
inductive Out where
  | msi (fn vector addr data : Nat)
  | reg (sp : Space) (addr value : Nat)
  | snoop (addr : Nat)
  | hdm (bytes : Bytes) (poison : Bool)
  | msg (chan op status : Nat) (body : Bytes)
  | pkt (link : Nat) (p : Pkt)
  | head (link : Nat) (bytes : Bytes)
  | depart (link ps : Nat)
deriving DecidableEq, Repr

/-! ## The hardware -/

/-- Level tracking of a CT die or a zone (R201, R331, R333): the level its samples give, and how many samples in a row lay 3 °C
below the entry of levels 1 and 2, and 5 °C below the trip point; the instant of the unit's last trip. -/
structure Therm where
  level : Nat := 0
  low1  : Nat := 0
  low2  : Nat := 0
  cool  : Nat := 0
  trip  : Nat := 0
deriving DecidableEq, Repr

/-- Droop of a CT die (R330): stretched cycles of the running window, windows in a row within 1 %, frame of its last record. -/
structure Droop where
  win  : Nat := 0
  calm : Nat := 0
  logF : Option Nat := none
deriving DecidableEq, Repr

/-- Supply, cap loop and thermal logic of MG: since when the input capacitance is charged and the input lies on the release
side of 52.0, 48.0 and 65.0 V; the SAG_WARN release timer's start, the SAG_N sample under way, a low seen from outside and whether
the module has released SAG_N (R408); the clamp's start; the loop's run lengths in µs; the sums of the calibration window in pJ; when each rate-limited
record was last logged; levels and droop by die. -/
structure Power where
  charged : Option Nat := none
  in52    : Option Nat := some 0
  in48    : Option Nat := some 0
  in65    : Option Nat := some 0
  sagFrom : Nat := 0
  sample  : Option Nat := none
  sagExt  : Bool := false
  sagFree : Bool := false
  clampAt : Option Nat := none
  lowUs   : Nat := 0
  overUs  : Nat := 0
  raw     : Nat := 0
  meas    : Nat := 0
  lastLog : Tbl Nat := []
  therm   : Tbl Therm := []
  droop   : Tbl Droop := []
deriving DecidableEq, Repr

/-- An update in progress (R375): its path, the bank it writes, the package, whether its transfer still runs, and its last
activity. -/
structure Update where
  pldm : Bool
  slot : Nat
  pkg  : FwPackage
  busy : Bool
  seen : Nat
deriving DecidableEq, Repr

/-- The SPDM responder of one transport (R381): the steps negotiated so far (1 version, 2 capabilities, 3 algorithms), and
whether a session's keys have been exchanged (1) and its handshake is finished (2). -/
structure Spdm where
  stage   : Nat := 0
  session : Nat := 0
deriving DecidableEq, Repr

/-- IDE keys of a CXL port and stream (R385): programmed, and whether they are in use. -/
structure IdeKey where
  key : Bytes
  act : Bool
deriving DecidableEq, Repr

/-- The phase of the device as R319, R320 and R358 give it. -/
inductive Phase where
  | dark | reset | boot | run | capture | dump
deriving DecidableEq, Repr

/-- Corrected errors of a unit in the last second that saw one, by number of the second, and whether CE_STORM has been logged for
it (R340). -/
structure CeCount where
  sec    : Nat := 0
  count  : Nat := 0
  logged : Bool := false
deriving DecidableEq, Repr

/-- Everything a device reset resets (R344). `traceX` counts the trace entries dropped,
`soft` holds the bit errors of memory lines not yet found (1 one bit, 2 more), `softW` those of scratchpad words by address / 8,
`cache` the sets of the hub caches (hub × 16,384 + set), the line used last first. `energy` holds the exact totals in 2^-14 pJ (0 the device, 16 + p a pen, 64 + t a
tenant) and `body` the energy of body work not yet split, by pen and frame (R336, R337); `ce` counts corrected errors by SRC_KIND × 256 + SRC_UNIT; `ports` the host ports whose PERST_N
is deasserted; `vfs` the number of VFs that SR-IOV has enabled on each port. -/
structure Dev where
  truss  : Option Truss := none
  load   : Option Load := none
  pens   : Tbl PenSt := []
  wins   : Tbl Win := []
  tens   : Tbl TenSt := []
  sweep0 : Nat := 0
  quiet  : Bool := false
  keys   : Tbl Bytes := []
  engs   : Tbl EngSt := []
  stls   : Tbl Stl := []
  unav   : Tbl (List Unavail) := []
  soft   : Tbl Nat := []
  softW  : Tbl Nat := []
  cache  : Tbl (List CacheLine) := []
  msix   : Tbl Msix := []
  msixEn : List Nat := []
  fnOff  : List Nat := []
  vfs    : Tbl Nat := []
  dmaWin : Tbl (Nat × Nat) := []
  winDly : List WinWrite := []
  trace  : List Trace := []
  traceX : Nat := 0
  txq    : List (Nat × Pkt) := []
  links  : Tbl LinkSt := []
  rxAt   : Tbl Nat := []
  flows  : Tbl Flow := []
  rxf    : Tbl RxFlow := []
  rxm    : List RxMsg := []
  rates  : Tbl (Nat × Nat × Nat) := []
  shape  : Tbl Nat := []
  shadow : Tbl Nat := []
  pegs   : Tbl PegSt := []
  energy : Tbl Nat := []
  body   : List (Nat × Nat × Nat) := []
  ce     : Tbl CeCount := []
  ide    : Tbl IdeKey := []
  ports  : List Nat := []
deriving DecidableEq, Repr

/-- A crash dump (R359, R360): full or short, its age number, cause, LOG_SEQ of the record that caused it, frame, the error records,
the trace and the register store and device state that its other sections show, and the number that the bytes without a
stated layout go by. -/
structure Dump where
  full  : Bool
  num   : Nat
  cause : Nat
  seq   : Nat
  frame : Nat
  recs  : List Rec
  trace : List Trace
  regs  : Tbl Nat
  dev   : Dev
  seed  : Nat
deriving DecidableEq, Repr

/-- The device reset in progress or last run (R358): its cause, the LOG_SEQ of the record that caused it, frame and instant,
when its cause had cleared (R320); whether THERMAL_CRITICAL holds the device in reset until every sensor is below 80 °C (R334), and
whether SAG_RESET or OV_RESET is in force, so that SAG_N is held low (R316); and the capture a full dump is written from. -/
structure DevReset where
  cause  : Nat := 0
  seq    : Nat := 0
  frame  : Nat := 0
  start  : Nat := 0
  clear  : Option Nat := some 0
  hot    : Bool := false
  sag    : Bool := false
  cap    : Option Dump := none
deriving DecidableEq, Repr

/-- Everything a device reset leaves: the sheepdog's domain, the flash, the fuses, the supply (R344). Beside the log and the
dumps: the truss key store; the firmware banks, those that have passed their check and the active one; the update in
progress; when a trial boot began and whether something has spoilt it (R377); when the sheepdog booted; the timestamp last
set with its instant; whether PLDM events are enabled; the ARC being burned to; the key record submitted; the dump copy under
way; the debug token kept; the SPDM responders. -/
structure Mgt where
  phase  : Phase := .reset
  sdgUp  : Bool := false
  log    : Log := {}
  dumps  : Tbl Dump := []
  shorts : Tbl Dump := []
  keys   : Tbl Bytes := []
  pwr    : Power := {}
  rst    : DevReset := {}
  banks  : Tbl FwPackage := []
  passed : List Nat := []
  active : Nat := 0
  update : Option Update := none
  trial  : Option Nat := none
  spoilt : Bool := false
  bootAt : Nat := 0
  stamp  : Nat × Nat := (0, 0)
  events : Bool := false
  arcTo  : Option Nat := none
  keyRec : Option Nat := none
  copy   : Option (Nat × Nat) := none
  token  : Option DebugTok := none
  spdm   : Tbl Spdm := []
deriving DecidableEq, Repr

/-- The hardware but its memories. `free` numbers the free values drawn so far: the model's own field (log 7). -/
structure Hw where
  clk   : Clock := {}
  free  : Nat := 0
  regs  : Tbl Nat := []
  latch : Tbl Nat := []
  out   : List Out := []
  dev   : Dev := {}
  mgt   : Mgt := {}
deriving DecidableEq, Repr

/-- The module with its queue of waiting commands, first in, first out. -/
structure State where
  pending : List Instr := []
  hw      : Hw := {}
  mem     : Mem := {}
deriving DecidableEq, Repr

/-- The reasons a command can fault. No command of this block raises one: every error the spec describes is an effect on
State (R340 to R346). `none` names the empty case so that the type is closed and inhabited; safe. -/
inductive Fault where
  /-- Raised by no command. Safe. -/
  | none
deriving DecidableEq, Repr

/-- The reasons a command can be refused. -/
inductive Refusal where
  /-- The command has no meaning yet in this model; raised by the arms of `exec` not yet written. Safe. -/
  | notModelled (mnemonic : String)
deriving DecidableEq, Repr

/-- The machine right after power-on reset (log 8): every register at its Reset column or the value its log entry names,
memory with nothing listed, nothing in force, no command waiting. -/
def State.reset : State := {}

end Sys2Proof.Machine
end

