-- ==== Sys2Proof/Machine/Operands.lean ====
section
/-! DEFINITION. Operand forms: little-endian fields of commands, records and registers (R5), bit fields, signed fields,
CRC-32C, and the device physical address map (Table 1.9). -/

namespace Sys2Proof.Machine

/-! ## Fields -/

/-- Bits `[lo + w - 1 : lo]` of `v` (R5). -/
def bits (v lo w : Nat) : Nat := (v >>> lo) % 2 ^ w

/-- Bit `i` of `v`. -/
def bit (v i : Nat) : Bool := v.testBit i

/-- `v` with bits `[lo + w - 1 : lo]` replaced by `x`. -/
def setBits (v lo w x : Nat) : Nat := v - (bits v lo w <<< lo) + ((x % 2 ^ w) <<< lo)

/-- The two's-complement value of the low `w` bits of `v`. -/
def signed (w v : Nat) : Int := if (v % 2 ^ w) < 2 ^ (w - 1) then (v % 2 ^ w : Nat) else (v % 2 ^ w : Nat) - (2 ^ w : Nat)

/-- The low `w` bits of the two's-complement form of `x`. -/
def unsigned (w : Nat) (x : Int) : Nat := (x % (2 ^ w : Nat)).toNat

/-- The `w`-bit signed value nearest to `x` (saturation), and whether it differs from `x`. -/
def saturate (w : Nat) (x : Int) : Int × Bool :=
  let hi : Int := (2 ^ (w - 1) : Nat) - 1
  let lo : Int := -(2 ^ (w - 1) : Nat)
  if hi < x then (hi, true) else if x < lo then (lo, true) else (x, false)

/-- How many bits of the low `w` bits of `v` are set. -/
def popcount : Nat → Nat → Nat
  | 0, _ => 0
  | w + 1, v => v % 2 + popcount w (v / 2)

/-- The numbers below `w` whose bit of `v` is set, rising. -/
def setBitsOf (w v : Nat) : List Nat := (List.range w).filter fun i => v.testBit i

/-- Ceiling division. -/
def cdiv (a b : Nat) : Nat := (a + b - 1) / b

/-! ## Byte rows -/

/-- The little-endian value of a row of bytes (R5). -/
def leNat : Bytes → Nat
  | [] => 0
  | b :: bs => b.toNat + 256 * leNat bs

/-- `n` bytes of `v`, little-endian (R5). -/
def leBytes : Nat → Nat → Bytes
  | 0, _ => []
  | n + 1, v => BitVec.ofNat 8 v :: leBytes n (v / 256)

/-- The field of `n` bytes at offset `o`; bytes past the end count as 0. -/
def fld (bs : Bytes) (o n : Nat) : Nat := leNat ((bs.drop o).take n)

/-- The row of `n` bytes at offset `o`. -/
def slice (bs : Bytes) (o n : Nat) : Bytes := (bs.drop o).take n

/-- Whether the `n` bytes at offset `o` are all 0, as a reserved field must be (R8). -/
def zeroAt (bs : Bytes) (o n : Nat) : Bool := (slice bs o n).all fun b => b == 0#8

/-- `n` zero bytes. -/
def zeros (n : Nat) : Bytes := List.replicate n 0#8

/-- The bytes with the row `xs` laid over them at offset `o`. -/
def overlay (bs : Bytes) (o : Nat) (xs : Bytes) : Bytes := bs.take o ++ xs ++ bs.drop (o + xs.length)

/-- The row cut or zero-extended to `n` bytes. -/
def padTo (n : Nat) (bs : Bytes) : Bytes := (bs ++ zeros (n - bs.length)).take n

/-! ## CRC-32C -/

/-- One bit of the reflected CRC-32C register. -/
def crcBit (c : Nat) : Nat := if c % 2 = 1 then (c >>> 1) ^^^ 0x82F63B78 else c >>> 1

/-- One byte of CRC-32C. -/
def crcByte (c : Nat) (b : Byte) : Nat :=
  crcBit (crcBit (crcBit (crcBit (crcBit (crcBit (crcBit (crcBit (c ^^^ b.toNat))))))))

/-- CRC-32C of a row of bytes. -/
def crc32c (bs : Bytes) : Nat := (bs.foldl crcByte 0xFFFFFFFF) ^^^ 0xFFFFFFFF

/-! ## Device physical addresses (Table 1.9, R21, R22) -/

/-- What a device physical address belongs to. -/
inductive Area where
  | hbm (stack : Nat)
  | loft
  | spd (stall : Nat)
  | trough
  | none
deriving DecidableEq, Repr

/-- Base of HBM, loft, scratchpads and trough SRAM, and the sizes of their parts (Table 1.9). -/
def stackSize : Nat := 0xC00000000
def hbmEnd : Nat := 0xC000000000
def loftBase : Nat := 0x10000000000
def spdBase : Nat := 0x40000000000
def spdSlot : Nat := 0x2000000
def spdSize : Nat := 0x1800000
def troughBase : Nat := 0x60000000000
def troughSize : Nat := 0x4000000
def granule : Nat := 0x200000

/-- End of the loft: 1 TiB per unit of LOFT_TIB (R2). -/
def loftEnd (tib : Nat) : Nat := loftBase + tib * 0x10000000000

/-- The area of an address and the end of the populated run that holds it. -/
def areaOf (tib a : Nat) : Area × Nat :=
  if a < hbmEnd then (.hbm (a / stackSize), hbmEnd)
  else if a < loftBase then (.none, 0)
  else if a < loftEnd tib then (.loft, loftEnd tib)
  else if a < spdBase then (.none, 0)
  else if a < spdBase + 192 * spdSlot then
    let n := (a - spdBase) / spdSlot
    if (a - spdBase) % spdSlot < spdSize then (.spd n, spdBase + n * spdSlot + spdSize) else (.none, 0)
  else if a < troughBase then (.none, 0)
  else if a < troughBase + troughSize then (.trough, troughBase + troughSize)
  else (.none, 0)

/-- The first unpopulated address of an extent (R23, R343), if it has one. -/
def unpopFirst (tib a len : Nat) : Option Nat :=
  if len = 0 then none
  else match areaOf tib a with
    | (.none, _) => some a
    | (_, e) => if a + len ≤ e then none else some e

/-- The scratchpad base of stall `n` (Table 1.9). -/
def spdAddr (n : Nat) : Nat := spdBase + n * spdSlot

/-- The CT die of a stall and the home hub of a stall (R15). -/
def dieOf (n : Nat) : Nat := n / 8
def hubOf (n : Nat) : Nat := n / 8 / 3

/-- Whether two extents share a byte. -/
def overlaps (a n b m : Nat) : Bool := decide (a < b + m) && decide (b < a + n)

/-- Whether the extent `[a, a+n)` lies within `[b, b+m)`. -/
def within (a n b m : Nat) : Bool := decide (b ≤ a) && decide (a + n ≤ b + m)

end Sys2Proof.Machine
end

