-- ==== Sys2Proof/Machine/Aes.lean ====
section
/-! DEFINITION. AES-128 encryption of one block (FIPS 197), which the generators use (R137). -/

namespace Sys2Proof.Machine

/-- The S-box of FIPS 197, entry 0 in the lowest byte. -/
def aesSboxWord : Nat :=
  0x16BB54B00F2D99416842E6BF0D89A18CDF2855CEE9871E9B948ED9691198F8E19E1DC186B95735610EF6034866B53E708A8BBD4B1F74DDE8C6B4A61C2E2578BA08AE7A65EAF4566CA94ED58D6D37C8E779E4959162ACD3C25C2406490A3A32E0DB0B5EDE14B8EE4688902A22DC4F816073195D643D7EA7C41744975FEC130CCDD2F3FF1021DAB6BCF5389D928F40A351A89F3C507F02F94585334D43FBAAEFD0CF584C4A39BECB6A5BB1FC20ED00D153842FE329B3D63B52A05A6E1B1A2C830975B227EBE28012079A059618C323C7041531D871F1E5A534CCF73F362693FDB7C072A49CAFA2D4ADF04759FA7DC982CA76ABD7FE2B670130C56F6BF27B777C63

/-- SubBytes on one byte. -/
def aesSub (b : Byte) : Byte := BitVec.ofNat 8 (aesSboxWord >>> (8 * b.toNat))

/-- Multiplication by x in the field of AES. -/
def aesX (b : Byte) : Byte := if b.msb then (b <<< 1) ^^^ 0x1B#8 else b <<< 1

/-- Byte `i` of a row. -/
def byteAt (bs : Bytes) (i : Nat) : Byte := bs[i]?.getD 0#8

/-- The next round key from a round key and the round constant. -/
def aesNextKey (k : Bytes) (rc : Byte) : Bytes :=
  let g := [aesSub (byteAt k 13) ^^^ rc, aesSub (byteAt k 14), aesSub (byteAt k 15), aesSub (byteAt k 12)]
  let xor := fun (a b : Bytes) => List.zipWith (· ^^^ ·) a b
  let w0 := xor (slice k 0 4) g
  let w1 := xor (slice k 4 4) w0
  let w2 := xor (slice k 8 4) w1
  let w3 := xor (slice k 12 4) w2
  w0 ++ w1 ++ w2 ++ w3

/-- SubBytes and ShiftRows: byte `4 c + r` comes from column `c + r`. -/
def aesSubShift (s : Bytes) : Bytes :=
  (List.range 16).map fun i => aesSub (byteAt s ((i / 4 + i % 4) % 4 * 4 + i % 4))

/-- MixColumns. -/
def aesMix (s : Bytes) : Bytes :=
  (List.range 16).map fun i =>
    let a := fun j => byteAt s (i / 4 * 4 + (i + j) % 4)
    aesX (a 0) ^^^ aesX (a 1) ^^^ a 1 ^^^ a 2 ^^^ a 3

/-- The rounds that remain, with the round key in force and the round constant of the next. -/
def aesRounds : Nat → Byte → Bytes → Bytes → Bytes
  | 0, rc, k, s => List.zipWith (· ^^^ ·) (aesSubShift s) (aesNextKey k rc)
  | n + 1, rc, k, s =>
    let k := aesNextKey k rc
    aesRounds n (aesX rc) k (List.zipWith (· ^^^ ·) (aesMix (aesSubShift s)) k)

/-- The encryption of a block under a key. -/
def aes128 (key block : Bytes) : Bytes := aesRounds 9 0x01#8 key (List.zipWith (· ^^^ ·) block key)

/-- The block a generator yields for counter value `n` (R137). -/
def genBlock (key : Bytes) (n : Nat) : Bytes := aes128 (padTo 16 key) (leBytes 8 n ++ zeros 8)

end Sys2Proof.Machine
end

