-- ==== Sys2Proof/Config.lean ====
section
/-! DEFINITION. The free values: what the spec leaves open and no proof can see. -/

namespace Sys2Proof

/-- A fresh free value: the `n`-th value drawn for a point the spec leaves open (log 7). -/
opaque Config.freeValue (n : Nat) : Nat

/-- A free value that depends on operands alone, where the spec leaves a result open but has equal operands give equal
results (R95, R124, R132): `kind` names the point, `x` and `y` are the operands (log 17). -/
opaque Config.pick (kind : Nat) (x : Int) (y : Int) : Nat

/-- Whether an Ed448 signature (RFC 8032, empty context; `ph` for Ed448ph over the prehash `msg`) verifies under a public key. The
spec names the standard and does not define the function (log 33). -/
opaque Config.ed448Verify (ph : Bool) (key msg sig : Bytes) : Bool

/-- The fused SHAKE256-256 digest of the vendor firmware public key of a slot (R369; log 4). -/
opaque Config.vendorDigest (slot : Nat) : Bytes

/-- The device identity public key (R379; log 4). -/
opaque Config.identityKey : Bytes

/-- The certificate chain of SPDM slot 0 (R379; log 4). -/
opaque Config.certChain : Bytes

/-- The digest of the boot ROM fused at manufacture (Table 14.8; log 4). -/
opaque Config.romDigest : Bytes

/-- The serial number (Table 14.1; log 4). -/
opaque Config.serialNumber : Bytes

/-- The digests of measurement indices 7 and 9 (Table 14.8), whose byte form the spec does not state: of the fuse state (stepping,
variant, ARC, key revocations, debug state) and of the key store (four public keys, KEY_COUNTER) (log 40). -/
opaque Config.fuseDigest (stepping variant arc revoked debug : Nat) : Bytes
opaque Config.keyStoreDigest (keys : List Bytes) (counter : Nat) : Bytes

/-- The fused per-event energy coefficient of an activity, by its place in Table 12.4 (12 the idle array cycle), in pJ (R321; log 67). -/
opaque Config.eventEnergy (activity : Nat) : Nat

/-- The fused static power of a die at a temperature in °C, in pJ per microsecond (R321; log 67). -/
opaque Config.staticPower (die temp : Nat) : Nat

end Sys2Proof
end

