-- ==== Sys2Proof/Machine/Flags.lean ====
section
/-! DEFINITION. Crib status codes with their precedence (Table 0.4, R10) and the error codes with their classes
(Table 13.3). -/

namespace Sys2Proof.Machine

/-! ## Crib status codes (Table 0.4) -/

namespace Crib
def OK : Nat := 0x00
def OK_LATE : Nat := 0x01
def NOT_ACCEPTED : Nat := 0x10
def BUDGET_EXHAUSTED : Nat := 0x11
def DEADLINE_PASSED : Nat := 0x12
def CONTEXT_LOST : Nat := 0x13
def POISONED_OUTPUT : Nat := 0x20
def WEIGHT_UNAVAILABLE : Nat := 0x21
def SCHEDULE_FAULT : Nat := 0x30
def HANG_FENCED : Nat := 0x31
def FUNCTION_DISABLED : Nat := 0x32
def TAKEOVER_REPLAY : Nat := 0x40
def PEER_TIMEOUT : Nat := 0x41
def GUARANTEE_SUSPENDED : Nat := 0x42
end Crib

/-- The precedence column of Table 0.4: the lowest number is written. A code the table does not list comes last. -/
def cribPrec (c : Nat) : Nat :=
  if c = 0x00 then 14 else if c = 0x01 then 13 else if c = 0x10 then 10 else if c = 0x11 then 9
  else if c = 0x12 then 8 else if c = 0x13 then 7 else if c = 0x20 then 5 else if c = 0x21 then 4
  else if c = 0x30 then 3 else if c = 0x31 then 2 else if c = 0x32 then 1 else if c = 0x40 then 11
  else if c = 0x41 then 6 else if c = 0x42 then 12 else 15

/-- The code the device writes when the codes of `cs` apply beside OK (R10). -/
def cribCode (cs : List Nat) : Nat :=
  cs.foldl (fun best c => if cribPrec c < cribPrec best then c else best) Crib.OK

/-- Whether the code carries no result (column Result of Table 0.4): POISONED_OUTPUT carries a poisoned one. -/
def cribNone (c : Nat) : Bool := !(c == 0x00 || c == 0x01 || c == 0x40 || c == 0x42 || c == 0x20)

/-- Whether the code's result is valid (column Result of Table 0.4). -/
def cribValid (c : Nat) : Bool := c == 0x00 || c == 0x01 || c == 0x40 || c == 0x42

/-! ## Error codes (Table 13.3) -/

/-- An error code with the class Table 13.3 gives it. -/
structure Err where
  code : Nat
  cls  : Nat
deriving DecidableEq, Repr

namespace E
def QUINTET_BAD : Err := ⟨0x0101, 1⟩
def LUT_BAD : Err := ⟨0x0102, 1⟩
def CMD_MALFORMED : Err := ⟨0x0103, 1⟩
def ACC_OWNER : Err := ⟨0x0104, 1⟩
def GEN_ALIAS : Err := ⟨0x0105, 1⟩
def GEN_UNBOUND : Err := ⟨0x0106, 1⟩
def GEN_RANGE : Err := ⟨0x0107, 1⟩
def SPARSE_HDR : Err := ⟨0x0201, 1⟩
def SPARSE_OOR : Err := ⟨0x0202, 1⟩
def COND_BAD : Err := ⟨0x0203, 1⟩
def SCARF_TRIT_BAD : Err := ⟨0x0204, 1⟩
def SPD_UE : Err := ⟨0x0301, 1⟩
def BANK_CONFLICT : Err := ⟨0x0302, 1⟩
def SPD_BOUND : Err := ⟨0x0303, 1⟩
def SLOT_UNDERRUN : Err := ⟨0x0304, 1⟩
def SLOT_OVERRUN : Err := ⟨0x0305, 1⟩
def UNPOP_ADDR : Err := ⟨0x0306, 1⟩
def HBM_UE : Err := ⟨0x0401, 1⟩
def LOFT_UE : Err := ⟨0x0402, 1⟩
def CDE_HDR : Err := ⟨0x0403, 1⟩
def CDE_INDEX : Err := ⟨0x0404, 1⟩
def CDE_LENGTH : Err := ⟨0x0405, 1⟩
def CDE_CRC : Err := ⟨0x0406, 1⟩
def CDE_FULL : Err := ⟨0x0407, 1⟩
def KV45_PARITY : Err := ⟨0x0408, 1⟩
def WEIGHT_UNAVAIL : Err := ⟨0x0409, 1⟩
def REFETCH_FAIL : Err := ⟨0x040A, 1⟩
def CMD_WATCHDOG : Err := ⟨0x0501, 1⟩
def FRAME_OVERRUN : Err := ⟨0x0502, 2⟩
def CTX_RECORD_BAD : Err := ⟨0x0503, 1⟩
def CRIB_BAD : Err := ⟨0x0504, 1⟩
def CRIB_DUP : Err := ⟨0x0505, 1⟩
def SMP_BAD : Err := ⟨0x0506, 1⟩
def LINK_DOWN : Err := ⟨0x0601, 1⟩
def LINK_DEGRADE : Err := ⟨0x0602, 1⟩
def LINK_HANG : Err := ⟨0x0603, 1⟩
def ZLT_DENY : Err := ⟨0x0604, 1⟩
def ZLT_FAIL : Err := ⟨0x0605, 1⟩
def PEER_TIMEOUT : Err := ⟨0x0606, 1⟩
def YOKE_SPLIT : Err := ⟨0x0607, 1⟩
def YOKE_TAKEOVER : Err := ⟨0x0608, 1⟩
def YOKE_SOLO : Err := ⟨0x0609, 1⟩
def SAG_WARN : Err := ⟨0x0701, 1⟩
def SAG_RESET : Err := ⟨0x0702, 3⟩
def OV_RESET : Err := ⟨0x0703, 3⟩
def POWER_CLAMP : Err := ⟨0x0704, 1⟩
def POWER_OVERCURRENT : Err := ⟨0x0705, 3⟩
def POWER_CAP_HELD : Err := ⟨0x0706, 1⟩
def PWR_CAL_RANGE : Err := ⟨0x0707, 1⟩
def DROOP_EXCESS : Err := ⟨0x0708, 1⟩
def THERMAL_TRIP : Err := ⟨0x0709, 1⟩
def THERMAL_CRITICAL : Err := ⟨0x070A, 3⟩
def STALL_HANG : Err := ⟨0x0801, 2⟩
def DRAIN_TIMEOUT : Err := ⟨0x0802, 2⟩
def FABRIC_UE_CT : Err := ⟨0x0803, 2⟩
def FABRIC_UE_DEV : Err := ⟨0x0803, 3⟩
def DIE_FATAL : Err := ⟨0x0804, 3⟩
def FUNCTION_FENCE : Err := ⟨0x0805, 1⟩
def HOST_FENCE : Err := ⟨0x0806, 2⟩
def HOST_RESET : Err := ⟨0x0807, 3⟩
def CE_STORM : Err := ⟨0x0808, 0⟩
def SDG_RESET : Err := ⟨0x0809, 1⟩
def TROUGH_UE : Err := ⟨0x080A, 1⟩
end E

end Sys2Proof.Machine
end

