-- ==== Sys2Proof/Machine/Ops.lean ====
section
/-! DEFINITION. The named operations over memory, registers, the error log, interrupts and host DMA windows that every
meaning is built from. -/

namespace Sys2Proof.Machine

/-! ## Running a command -/

/-- A command being run: the hardware, the memory as the command found it, and the writes it has posted, newest first. -/
structure Run where
  hw    : Hw
  mem   : Mem
  posts : List Post := []
deriving DecidableEq, Repr

/-- Writes a row of bytes into a memory. -/
def writeBytes : Nat → Bytes → List Host.Cell → List Host.Cell
  | _, [], t => t
  | a, b :: bs, t => writeBytes (a + 1) bs (Tbl.set 0#8 a b t)

/-- Drops every listed key in `[a, a + n)`. -/
def dropRange {α : Type} (a n : Nat) (t : Tbl α) : Tbl α := t.filter fun kv => !(decide (a ≤ kv.1) && decide (kv.1 < a + n))

/-- One posted write done. -/
def Mem.apply1 (m : Mem) : Post → Mem
  | .dev a bs => { m with dev := writeBytes a bs m.dev }
  | .host a bs => { m with host := writeBytes a bs m.host }
  | .mark l b => { m with mark := Tbl.set 0 l b m.mark }
  | .zero a n => { m with dev := dropRange a n m.dev, mark := dropRange (a / 64) ((n + 63) / 64) m.mark }

/-- Posted writes done in order. -/
def Mem.apply (m : Mem) (ps : List Post) : Mem := ps.foldl Mem.apply1 m

/-- Runs a command that may post writes: the writes land, in the order posted, when the command is done; the queue is
not touched. -/
def State.run (s : State) (f : Run → Run) : Host.Outcome State Fault Refusal :=
  let r := f { hw := s.hw, mem := s.mem }
  .next { pending := s.pending, hw := r.hw, mem := s.mem.apply r.posts.reverse }

/-- Runs a command that touches no memory. -/
def State.onHw (s : State) (f : Hw → Hw) : Host.Outcome State Fault Refusal := .next { s with hw := f s.hw }

/-- One reference cycle passes: 10 ns (R53; log 1). A dark module keeps no time (R338). -/
def State.idle (s : State) : State :=
  match s.hw.mgt.phase with
  | .dark => s
  | _ => { s with hw := { s.hw with clk := { s.hw.clk with now := s.hw.clk.now + 1 } } }

/-- The clock at instant `t` at the earliest: an event that a timer makes has come, so its instant is reached (log 2). -/
def Hw.reach (s : Hw) (t : Nat) : Hw := { s with clk.now := max s.clk.now t }

/-- A step of a run that touches no memory. -/
def Run.on (r : Run) (f : Hw → Hw) : Run := { r with hw := f r.hw }

/-- A write posted. -/
def Run.post (r : Run) (p : Post) : Run := { r with posts := p :: r.posts }

/-- `f` over each element of a list, in order. -/
def Run.each {α : Type} (r : Run) (xs : List α) (f : α → Run → Run) : Run := xs.foldl (fun r x => f x r) r

/-- `f` when the condition holds. -/
def Run.when (r : Run) (c : Bool) (f : Run → Run) : Run := if c then f r else r

/-- `f` over each element of a list, in order, on the hardware. -/
def Hw.each {α : Type} (s : Hw) (xs : List α) (f : α → Hw → Hw) : Hw := xs.foldl (fun s x => f x s) s

/-- `f` when the condition holds. -/
def Hw.when (s : Hw) (c : Bool) (f : Hw → Hw) : Hw := if c then f s else s

/-! ## Memory as a command sees it -/

/-- The byte a post puts at device address `a`, if it writes it. -/
def Post.devByte (a : Nat) : Post → Option Byte
  | .dev b bs => if b ≤ a then bs[a - b]? else none
  | .zero b n => if b ≤ a ∧ a < b + n then some 0#8 else none
  | _ => none

/-- The byte a post puts at host address `a`, if it writes it. -/
def Post.hostByte (a : Nat) : Post → Option Byte
  | .host b bs => if b ≤ a then bs[a - b]? else none
  | _ => none

/-- The mark a post gives line `l`, if it changes it. -/
def Post.lineMark (l : Nat) : Post → Option Nat
  | .mark k b => if k = l then some b else none
  | .zero b n => if b / 64 ≤ l ∧ l < b / 64 + (n + 63) / 64 then some 0 else none
  | _ => none

/-- The device byte at `a`, a command's own posts included. -/
def Run.byte (r : Run) (a : Nat) : Byte := (r.posts.findSome? (Post.devByte a)).getD (Tbl.get 0#8 a r.mem.dev)

/-- The host byte at `a`. -/
def Run.hostByte (r : Run) (a : Nat) : Byte := (r.posts.findSome? (Post.hostByte a)).getD (Tbl.get 0#8 a r.mem.host)

/-- The mark of line `l`: bit 0 POISON, bit 1 SCHED. -/
def Run.mark (r : Run) (l : Nat) : Nat := (r.posts.findSome? (Post.lineMark l)).getD (Tbl.get 0 l r.mem.mark)

/-- `n` device bytes from `a`. -/
def Run.read (r : Run) (a n : Nat) : Bytes := (List.range n).map fun i => r.byte (a + i)

/-- `n` host bytes from `a`. -/
def Run.readHost (r : Run) (a n : Nat) : Bytes := (List.range n).map fun i => r.hostByte (a + i)

/-- The little-endian value of `n` device bytes from `a`. -/
def Run.readNat (r : Run) (a n : Nat) : Nat := leNat (r.read a n)

/-- Device bytes written. -/
def Run.write (r : Run) (a : Nat) (bs : Bytes) : Run := if bs = [] then r else r.post (.dev a bs)

/-- Host bytes written. -/
def Run.writeHost (r : Run) (a : Nat) (bs : Bytes) : Run := if bs = [] then r else r.post (.host a bs)

/-- The lines an extent touches. -/
def linesOf (a n : Nat) : List Nat := if n = 0 then [] else (List.range ((a + n - 1) / 64 + 1 - a / 64)).map (a / 64 + ·)

/-- The marks of every line of an extent, joined. -/
def Run.marks (r : Run) (a n : Nat) : Nat := (linesOf a n).foldl (fun m l => m ||| r.mark l) 0

/-- The mark of a line set. -/
def Run.setMark (r : Run) (l b : Nat) : Run := if r.mark l = b then r else r.post (.mark l b)

/-! ## Registers (R6, R7) -/

/-- The place of instance `i` of field `f` in the register store. -/
def Fld.key (f : Fld) (i : Nat) : Nat := f.id * 65536 + i

/-- The value of a register field. -/
def Hw.get (s : Hw) (f : Fld) (i : Nat := 0) : Nat := Tbl.get f.reset (f.key i) s.regs

/-- A register field set by hardware. -/
def Hw.set (s : Hw) (f : Fld) (i v : Nat) : Hw := { s with regs := Tbl.set f.reset (f.key i) (v % 2 ^ f.width) s.regs }

/-- The largest value of a field. -/
def Fld.max (f : Fld) : Nat := 2 ^ f.width - 1

/-- A saturating counter advanced by `n` (the conventions of Table 4.10). -/
def Hw.inc (s : Hw) (f : Fld) (i : Nat := 0) (n : Nat := 1) : Hw := s.set f i (min (s.get f i + n) f.max)

/-- A field raised to `v` if it is lower (a running maximum). -/
def Hw.raise (s : Hw) (f : Fld) (i v : Nat) : Hw := s.set f i (max (s.get f i) (min v f.max))

/-- Whether a one-bit field is set. -/
def Hw.is (s : Hw) (f : Fld) (i : Nat := 0) : Bool := s.get f i != 0

/-- Every instance of the fields of `fs` back at reset. -/
def Hw.resetFields (s : Hw) (keep : Nat → Bool) : Hw := { s with regs := s.regs.filter fun kv => keep (kv.1 / 65536) }

/-- Whether the host reaches the module: the device is up and the link of port 0 is (R358, R390). -/
def Hw.hostUp (s : Hw) : Bool := s.mgt.phase == .run && s.is R.HIF_PORT_P0_UP

/-- Runs a command of the host, which arrives only while the link is up. -/
def State.byHost (s : State) (f : Run → Run) : Host.Outcome State Fault Refusal := s.run fun r => if r.hw.hostUp then f r else r

/-- Runs a command of the host that touches no memory. -/
def State.byHostHw (s : State) (f : Hw → Hw) : Host.Outcome State Fault Refusal := s.onHw fun h => if h.hostUp then f h else h

/-! ## Units of the module -/

/-- The state of pen `p`. -/
def Hw.pen (s : Hw) (p : Nat) : PenSt := Tbl.get {} p s.dev.pens

/-- Pen `p` changed. -/
def Hw.modPen (s : Hw) (p : Nat) (f : PenSt → PenSt) : Hw := { s with dev.pens := Tbl.modify {} p f s.dev.pens }

/-- The window of tenant `t`. -/
def Hw.win (s : Hw) (t : Nat) : Win := Tbl.get {} t s.dev.wins

/-- The window of tenant `t` changed. -/
def Hw.modWin (s : Hw) (t : Nat) (f : Win → Win) : Hw := { s with dev.wins := Tbl.modify {} t f s.dev.wins }

/-- The bucket state of tenant `t`. -/
def Hw.ten (s : Hw) (t : Nat) : TenSt := Tbl.get {} t s.dev.tens

/-- The bucket state of tenant `t` changed. -/
def Hw.modTen (s : Hw) (t : Nat) (f : TenSt → TenSt) : Hw := { s with dev.tens := Tbl.modify {} t f s.dev.tens }

/-- A context of pen `p`. -/
def PenSt.ctx (ps : PenSt) (c : Nat) : Ctx := Tbl.get {} c ps.ctxs

/-- A context of a pen changed. -/
def PenSt.modCtx (ps : PenSt) (c : Nat) (f : Ctx → Ctx) : PenSt := { ps with ctxs := Tbl.modify {} c f ps.ctxs }

/-- The descriptor of a present pen. -/
def Hw.desc (s : Hw) (p : Nat) : Option PenDesc := s.dev.truss.bind fun t => Tbl.find? p t.pens

/-- Whether pen `p` is present (PEN_STATE.PRESENT). -/
def Hw.present (s : Hw) (p : Nat) : Bool := (s.desc p).isSome

/-- The present pens, rising. -/
def Hw.penList (s : Hw) : List Nat := (List.range 16).filter s.present

/-- The stalls of a descriptor, rising (R33). -/
def PenDesc.stalls (d : PenDesc) : List Nat := (setBitsOf 48 d.quads).flatMap fun q => [4 * q, 4 * q + 1, 4 * q + 2, 4 * q + 3]

/-- The pen that holds stall `n`. -/
def Hw.penOf (s : Hw) (n : Nat) : Option Nat := (List.range 16).find? fun p => match s.desc p with
  | some d => bit d.quads (n / 4)
  | none => false

/-- The tenant entry in force of tenant `t`; while it drains after a load removed it, its last one (R42, R417). -/
def Hw.tenant (s : Hw) (t : Nat) : Option Tenant := match s.dev.truss.bind fun tr => tr.tenants.find? (·.id == t) with
  | some x => some x
  | none => (s.ten t).ghost

/-- The admission entry in force of a pen and slot. -/
def Hw.adm (s : Hw) (p slot : Nat) : Option AdmEntry :=
  s.dev.truss.bind fun tr => tr.adm.find? fun a => a.pen == p && a.slot == slot

/-- The number of an engine in the engine table. -/
def engNum : EngKind → Nat
  | .tda => 0 | .lut => 1 | .tse => 2 | .lnu => 3 | .vpu => 4 | .sampler => 5 | .dma => 6 | .cde => 7 | .scarf => 8 | .kvm => 9

/-- The key of an engine's queues. -/
def engKey (unit : Nat) (k : EngKind) (pen : Nat) : Nat :=
  if engNum k < 7 then unit * 16 + engNum k else 4096 + (unit * 16 + engNum k) * 16 + pen

/-- The key of an engine operand. -/
def Eng.key : Eng → Nat
  | .stall n k => engKey n.val k 0
  | .hub m k p => engKey m.val k p.val

/-- The kind of an engine operand. -/
def Eng.kind : Eng → EngKind
  | .stall _ k => k
  | .hub _ k _ => k

/-- The queues of an engine. -/
def Hw.eng (s : Hw) (k : Nat) : EngSt := Tbl.get {} k s.dev.engs

/-- The queues of an engine changed. -/
def Hw.modEng (s : Hw) (k : Nat) (f : EngSt → EngSt) : Hw := { s with dev.engs := Tbl.modify {} k f s.dev.engs }

/-- A stall's counter advanced; a stall in no pen raises no counts (Section 8 of 04_ternary_arithmetic.md). -/
def Hw.incStl (s : Hw) (f : Fld) (n : Nat) (k : Nat := 1) : Hw := if (s.penOf n).isSome then s.inc f n k else s

/-- Whole µs since the current frame start. -/
def Hw.elapsedUs (s : Hw) : Nat := (s.clk.now - s.clk.frameStart) / 100

/-- T_frame in force, in µs (R45). -/
def Hw.tFrame (s : Hw) : Nat := s.get R.TRS_TIMING_T_FRAME_US

/-- A fresh open value drawn (log 7). -/
def Hw.draw (s : Hw) : Nat × Hw := (Config.freeValue s.free, { s with free := s.free + 1 })

/-- Something sent or answered. -/
def Hw.emit (s : Hw) (o : Out) : Hw := { s with out := o :: s.out }

/-! ## MSI-X (R398) -/

/-- An MSI-X entry of function `f`. -/
def Hw.msixEntry (s : Hw) (f v : Nat) : Msix := Tbl.get {} (f * 4096 + v) s.dev.msix

/-- An MSI-X entry changed. -/
def Hw.modMsix (s : Hw) (f v : Nat) (g : Msix → Msix) : Hw := { s with dev.msix := Tbl.modify {} (f * 4096 + v) g s.dev.msix }

/-- A vector raised: a disabled function raises none, nor does a device in reset; a masked entry, or MSI-X not enabled, leaves it
pending; raises while the message is pending coalesce. -/
def Hw.msi (s : Hw) (f v : Nat) : Hw :=
  if f ∈ s.dev.fnOff ∨ (s.mgt.phase ≠ .run ∧ s.mgt.phase ≠ .boot) then s
  else
    let e := s.msixEntry f v
    if e.masked || !(s.dev.msixEn.contains f) then s.modMsix f v fun e => { e with pending := true }
    else s.emit (.msi f v e.addr e.data)

/-! ## Error log (R340 to R342) -/

/-- The fields a meaning gives a record; the others follow from the state. -/
structure LogArg where
  kind   : Nat := 4
  unit   : Nat := 0
  pen    : Nat := 0xFF
  tenant : Nat := 0xFF
  flags  : Nat := 0
  task   : Nat := 0xFFFFFFFF
  addr   : Nat := 0
  ctx    : Nat := 0xFFFF
  slot   : Nat := 0xFFFF
  detail : Nat := 0
deriving DecidableEq, Repr

/-- The die that buffers records of a source. -/
def dieNum (kind unit : Nat) : Nat :=
  if kind = 0 then unit / 8 else if kind = 6 then unit else if kind = 1 then 24 + unit else if kind = 2 then 32 + unit
  else if kind = 7 then 32 + 8 * unit / 36 else if kind = 3 then 36 + unit else if kind = 4 then 38 else 39

/-- Whether MG coalesces a record into `q` (R342). -/
def Rec.same (q r : Rec) : Bool := q.code == r.code && q.unit == r.unit && q.task == r.task && q.frame == r.frame

/-- REPEAT advanced, saturating. -/
def Rec.again (r : Rec) : Rec := { r with rep := min (r.rep + 1) 0xFFFF }

/-- A taken record enters the ring with the next LOG_SEQ: the 4,096 newest are kept; it is queued for the flash log and
for events once they are enabled (R366), counted, and raises the error vector as ERR_IRQ_MASK allows (R340, R342). -/
def Hw.appendRec (s : Hw) (die : Nat) (r : Rec) : Hw :=
  let seq := s.get R.ERR_LOG_SEQ_NEWEST + 1
  let r := { r with seq := seq, boot := s.get R.SDG_BOOT_COUNT_BOOT }
  let l := s.mgt.log
  let s := { s with mgt.log := { l with ring := (r :: l.ring).take 4096, last := Tbl.insert die seq l.last,
                                         toFl := l.toFl ++ [r],
                                         events := if s.mgt.events && r.cls != 0 then l.events ++ [r] else l.events } }
  let s := s.set R.ERR_LOG_SEQ_NEWEST 0 seq
  let s := s.set R.ERR_LOG_MIN_OLDEST 0 ((s.mgt.log.ring.getLast?.map (·.seq)).getD 0)
  let s := if r.cls = 1 then s.inc R.ERR_COUNTS_NONFATAL else if r.cls = 2 then s.inc R.ERR_COUNTS_PENFATAL else s
  if bit (s.get R.ERR_IRQ_MASK_CLASS_EN) r.cls then s.msi 0 0 else s

/-- MG takes a record from its die: it coalesces it into the die's previous record or appends it (R342). -/
def Hw.take (s : Hw) (r : Rec) : Hw :=
  let die := dieNum r.kind r.unit
  let l := s.mgt.log
  let prev := (Tbl.find? die l.last).bind fun q => l.ring.find? (·.seq == q)
  match prev with
  | some q =>
    if q.same r then
      let up := fun x : Rec => if x.seq = q.seq then x.again else x
      { s with mgt.log := { l with ring := l.ring.map up, toFl := l.toFl.map up, events := l.events.map up } }
    else s.appendRec die r
  | none => s.appendRec die r
/-- A record formed at its source. While the sheepdog takes none, it waits in its die's buffer of 64; one that finds the
buffer full is lost, and the next accepted from that die carries LOST. -/
def Hw.log (s : Hw) (e : Err) (a : LogArg) : Hw :=
  let die := dieNum a.kind a.unit
  let r : Rec := { code := e.code, cls := e.cls, kind := a.kind, unit := a.unit, pen := a.pen, tenant := a.tenant,
                   flags := a.flags, frame := s.clk.frame, tUs := min s.elapsedUs 0xFFFF, rep := 0, task := a.task,
                   addr := a.addr, seq := 0, boot := 0, ctx := a.ctx, slot := a.slot, detail := a.detail }
  let l := s.mgt.log
  let b := Tbl.get [] die l.buf
  if 64 ≤ b.length then
    ({ s with mgt.log := { l with lost := die :: l.lost.filter (· ≠ die) } }).set R.ERR_STATUS_LOG_OVERFLOW 0 1
  else
    let r := if l.lost.contains die then { r with flags := r.flags ||| 4 } else r
    let s := { s with mgt.log := { l with lost := l.lost.filter (· ≠ die) } }
    if s.mgt.sdgUp then s.take r
    else { s with mgt.log := { s.mgt.log with buf := Tbl.insert die (b ++ [r]) s.mgt.log.buf } }

/-- A buffered record taken; the pens whose fence started from it show its LOG_SEQ. -/
def Hw.takeLate (s : Hw) (r : Rec) : Hw :=
  let s := s.take r
  let seq := (Tbl.find? (dieNum r.kind r.unit) s.mgt.log.last).getD 0
  s.each (List.range 16) fun p s =>
    if (s.pen p).fenceRec = some r then (s.set R.ERR_PEN_LAST_LOG_SEQ p seq).modPen p fun ps => { ps with fenceRec := none } else s

/-- Every buffered record taken, once the sheepdog runs (R342). -/
def Hw.drainBuffers (s : Hw) : Hw :=
  let rs := s.mgt.log.buf.flatMap (·.2)
  ({ s with mgt.log := { s.mgt.log with buf := [] } }).each rs fun r s => s.takeLate r

/-- The 64 bytes of a record (Table 13.2). -/
def Rec.bytes (r : Rec) : Bytes :=
  let b := leBytes 2 r.code ++ leBytes 1 r.cls ++ leBytes 1 r.kind ++ leBytes 1 r.unit ++ leBytes 1 r.pen ++
    leBytes 1 r.tenant ++ leBytes 1 r.flags ++ leBytes 8 r.frame ++ leBytes 2 r.tUs ++ leBytes 2 r.rep ++
    leBytes 4 r.task ++ leBytes 8 r.addr ++ leBytes 4 r.seq ++ leBytes 4 r.boot ++ leBytes 2 r.ctx ++
    leBytes 2 r.slot ++ leBytes 16 r.detail
  b ++ leBytes 4 (crc32c b)

/-! ## Bit errors (R171, R199, R204, R211, R395) -/

/-- The entries of an error table whose unit of `w` bytes an extent touches. -/
def errorsIn (w : Nat) (t : Tbl Nat) (a n : Nat) : List (Nat × Nat) :=
  t.filter fun kv : Nat × Nat => n != 0 && decide (a / w ≤ kv.1) && decide (kv.1 ≤ (a + n - 1) / w)

/-- The bit errors that an extent's lines hold. -/
def Hw.softIn (s : Hw) (a n : Nat) : List (Nat × Nat) := errorsIn 64 s.dev.soft a n

/-- The bit errors that an extent's scratchpad words hold (R171). -/
def Hw.wordsIn (s : Hw) (a n : Nat) : List (Nat × Nat) := errorsIn 8 s.dev.softW a n

/-- Whether a line lies in the scratchpads (Table 1.9). -/
def spdLine (l : Nat) : Bool := decide (spdBase ≤ l * 64) && decide (l * 64 < troughBase)

/-- Upsets that have struck: the flipped bits stay in their code word, a scratchpad word or another memory's line, until it is
read or written; an error of a cached copy stays with the copy. -/
def Hw.upset (s : Hw) (us : List Upset) : Hw :=
  let add := fun (k : Nat) (u : Upset) (s : Hw) =>
    if spdLine u.line then { s with dev.softW := Tbl.modify 0 (8 * u.line + u.word) (fun e => min 2 (e + k)) s.dev.softW }
    else { s with dev.soft := Tbl.modify 0 u.line (fun e => min 2 (e + k)) s.dev.soft }
  s.each us fun u s => match u.kind with
    | .single => add 1 u s
    | .double => add 2 u s
    | .cached => { s with dev.cache := s.dev.cache.map fun kv : Nat × List CacheLine =>
        (kv.1, kv.2.map fun c => if c.line = u.line then { c with bad := u.word.val :: c.bad.filter (· ≠ u.word.val) } else c) }

/-- Every bit error of a range that is written as zeros, check bits, cached copies and all. -/
def Hw.healRange (s : Hw) (a n : Nat) : Hw :=
  let fresh := fun c : CacheLine => if a / 64 ≤ c.line ∧ c.line < a / 64 + (n + 63) / 64 then { c with poison := 0, bad := [] } else c
  { s with dev := { s.dev with
      soft := dropRange (a / 64) ((n + 63) / 64) s.dev.soft, softW := dropRange (a / 8) ((n + 7) / 8) s.dev.softW,
      cache := s.dev.cache.map fun kv : Nat × List CacheLine => (kv.1, kv.2.map fresh) } }

/-- A range zero-filled: bytes, marks and check bits (R172, Table 2.10). -/
def Run.zero (r : Run) (a n : Nat) : Run := (r.post (.zero a n)).on fun s => s.healRange a n

/-- One second in reference cycles. -/
def second : Nat := 100000000

/-- Corrected errors of a unit counted in the running second (R340). -/
def Hw.corrected (s : Hw) (kind unit n : Nat) : Hw :=
  let x := Tbl.get {} (256 * kind + unit) s.dev.ce
  let x := if x.sec = s.clk.now / second then { x with count := x.count + n } else { sec := s.clk.now / second, count := n }
  if n = 0 then s else { s with dev.ce := Tbl.set {} (256 * kind + unit) x s.dev.ce }

/-- A line of HBM, loft or trough with a bit error is read. Corrected, it is counted, and the hub writes it back. Not correctable,
the line takes POISON, is counted and logged, and a hub or loft error raises the hub-error vector. A loft record names die and
channel, x[12] and x[11:8] of the loft offset (R209, R211). -/
def Run.senseLine (r : Run) (l e : Nat) : Run :=
  let a := l * 64
  let heal := fun s : Hw => { s with dev.soft := Tbl.erase l s.dev.soft }
  let poison := fun r : Run => (r.setMark l (r.mark l ||| 1)).on heal
  match (areaOf (r.hw.get R.HIF_MODULE_ID_LOFT_TIB) a).1 with
  | .hbm k =>
    if e = 1 then r.on fun s => heal ((s.inc R.MHB_ECC_CE_CE (k / 2)).corrected 1 (k / 2) 1)
    else (poison r).on fun s => (((s.inc R.MHB_ECC_UE_UE (k / 2)).set R.MHB_UE_ADDR_ADDR (k / 2) a).log E.HBM_UE
      { kind := 1, unit := k / 2, addr := a, detail := k + 2 ^ 8 * bits (a - k * stackSize) 8 5 }).msi 0 2
  | .loft =>
    if e = 1 then r.on fun s => heal ((s.inc R.MHB_LOFT_ECC_CE).corrected 3 (bits (a - loftBase) 12 1) 1)
    else (poison r).on fun s => (((s.inc R.MHB_LOFT_ECC_UE).set R.MHB_LOFT_UE_ADDR_ADDR 0 a).log E.LOFT_UE
      { kind := 3, unit := bits (a - loftBase) 12 1, addr := a, detail := bits (a - loftBase) 8 4 }).msi 0 2
  | .trough => if e = 1 then r.on heal else (poison r).on fun s => s.log E.TROUGH_UE { kind := 4, addr := a }
  | _ => r

/-- A scratchpad row is read, the words of `ws` with their bit errors: a word with one wrong bit is delivered corrected and counted,
and stays as it is; one with two poisons the row, which is counted and logged once (R171). -/
def Run.senseRow (r : Run) (l : Nat) (ws : List (Nat × Nat)) : Run :=
  let a := l * 64
  let n := (a - spdBase) / spdSlot
  let r := r.on fun s => (s.inc R.SPD_ECC_CE n (ws.filter (·.2 == 1)).length).corrected 0 n (ws.filter (·.2 == 1)).length
  if ws.any (·.2 != 1) then
    (r.setMark l (r.mark l ||| 1)).on fun s =>
      ((({ s with dev.softW := s.dev.softW.filter fun kv => kv.1 / 8 != l || kv.2 == 1 }).inc R.SPD_ECC_UE n).set
        R.SPD_ECC_ADDR_OFFSET n (a - spdAddr n)).log E.SPD_UE { kind := 0, unit := n, pen := (s.penOf n).getD 0xFF, addr := a }
  else r

/-- An extent is read: the bit errors of its lines and of its scratchpad words are found. -/
def Run.sense (r : Run) (a n : Nat) : Run :=
  let ws := r.hw.wordsIn a n
  let r := r.each (r.hw.softIn a n) fun kv r => r.senseLine kv.1 kv.2
  r.each (ws.map (·.1 / 8)).eraseDups fun l r => r.senseRow l (ws.filter fun kv => kv.1 / 8 == l)

/-- Marks after a write of `[a, a+n)` that gives line `l` the bits `mk l`: a line written whole takes them, a line written in part
keeps its mark and gains them (R171, R195). -/
def Run.markWrite (r : Run) (a n : Nat) (mk : Nat → Nat) : Run :=
  r.each (linesOf a n) fun l r =>
    r.setMark l (if a ≤ l * 64 ∧ l * 64 + 64 ≤ a + n then mk l else r.mark l ||| mk l)

/-- A write meets bit errors: a line written whole has none left, one written in part is read first (R195); a scratchpad word
written whole has none left (R170, R171). -/
def Run.softWrite (r : Run) (a n : Nat) : Run :=
  let r := r.each (r.hw.softIn a n) fun kv r =>
    if a ≤ kv.1 * 64 ∧ kv.1 * 64 + 64 ≤ a + n then r.on fun s => { s with dev.soft := Tbl.erase kv.1 s.dev.soft }
    else r.senseLine kv.1 kv.2
  r.on fun s => { s with dev.softW := s.dev.softW.filter fun kv => !(decide (a ≤ kv.1 * 8) && decide (kv.1 * 8 + 8 ≤ a + n)) }

/-- Device bytes written, line `l` with the mark `mk l`. -/
def Run.storeBy (r : Run) (a : Nat) (bs : Bytes) (mk : Nat → Nat) : Run :=
  ((r.softWrite a bs.length).write a bs).markWrite a bs.length mk

/-- Device bytes written with mark `b`. -/
def Run.store (r : Run) (a : Nat) (bs : Bytes) (b : Nat) : Run := r.storeBy a bs fun _ => b

/-- Yields and same-row events counted in the stall whose banks they were met in (R174, R175). -/
def Hw.metBanks (s : Hw) (n : Nat) (x : Nat × Nat) : Hw := (s.incStl R.SPD_DMA_YIELD_YIELDS n x.1).incStl R.SPD_SAME_ROW_EVENTS n x.2

/-- What a command of engine `eng` of stall `n` met at its ports is counted; its first lost cycle is logged with the bank in SLOT
(R173 to R175, Table 13.2). The DMA port is no scheduled port: it loses no cycle, it yields (R174). -/
def Hw.metPorts (s : Hw) (n eng : Nat) (i : Issue) : Hw :=
  let s := s.metBanks n (i.ports.yields, i.ports.sameRow)
  match if eng = 6 then none else i.ports.lost with
  | none => s
  | some (b, k) =>
    ((((s.inc R.SPD_CONFLICT_CYCLES n k).set R.SPD_CONFLICT_LAST_BANK n b.val).set R.SPD_CONFLICT_LAST_ENGINE n eng).set
      R.SPD_CONFLICT_LAST_TASK n i.task).log E.BANK_CONFLICT
        { kind := 0, unit := n, pen := (s.penOf n).getD 0xFF, task := i.task % 2 ^ 24 + eng * 2 ^ 24, slot := b.val }

/-! ## Host DMA windows (R392, R393) -/

/-- The BASE and LIMIT register values that a check begun now uses for window `w` of function `f`. -/
def Hw.effWin (s : Hw) (f w : Nat) : Nat × Nat :=
  match (s.dev.winDly.filter fun d => d.fn == f && d.win == w && decide (d.due ≤ s.clk.now)).getLast? with
  | some d => (d.base, d.limit)
  | none => Tbl.get (0, 0) (f * 8 + w) s.dev.dmaWin

/-- Whether an access of `n` bytes at host address `a` is in window for function `f`. -/
def Hw.dmaOk (s : Hw) (f a n : Nat) (write : Bool) : Bool :=
  n == 0 || (List.range 8).any fun w =>
    let (b, l) := s.effWin f w
    bit b 0 && (if write then bit b 2 else bit b 1) && decide (b / 4096 ≤ l / 4096) &&
      within a n (b / 4096 * 4096) ((l / 4096 - b / 4096 + 1) * 4096)

/-- An access that is not in window is rejected, counted and recorded. -/
def Hw.dmaReject (s : Hw) (f a : Nat) (write : Bool) : Hw :=
  (((s.inc R.HIF_DMA_DENY_COUNT).set R.HIF_DMA_LAST_FUNCTION 0 f).set R.HIF_DMA_LAST_WRITE 0 (if write then 1 else 0)).set
    R.HIF_DMA_LAST_ADDR_ADDR 0 a

/-- A host read that did not end well counted (R394). -/
def Hw.cplErr (s : Hw) (res : Completion) : Hw := match res with
  | .ok => s
  | .error => s.inc R.HIF_CPL_ERR_ERR
  | .timeout => s.inc R.HIF_CPL_ERR_TIMEOUT

/-! ## Bound sequences and crib codes -/

/-- A crib code made to apply to every bound sequence of pen `p` that `sel` picks. -/
def Hw.blame (s : Hw) (p : Nat) (sel : Bound → Bool) (code : Nat) : Hw :=
  s.modPen p fun ps => { ps with bound := ps.bound.map fun b => if sel b && !(b.codes.contains code) then { b with codes := code :: b.codes } else b }

/-- The bound sequences a command of frame `f` serves: those of the bind position of its context, or every sequence
bound to the pen in the frame for a task without a context (R347). -/
def servedBy (f : Nat) (pos : Option Nat) (b : Bound) : Bool :=
  b.frame == f && match pos with
    | none => true
    | some q => b.pos == q

/-- Bound sequences a command of which ran while the pen was suspended (R76). -/
def Hw.markSusp (s : Hw) (p : Nat) (sel : Bound → Bool) : Hw :=
  s.modPen p fun ps => { ps with bound := ps.bound.map fun b => if sel b then { b with susp := true } else b }

/-- A record of the sequencer trace (R359): at most 8,192 a frame, 16 frames. -/
def Hw.traceAdd (s : Hw) (kind pen stall engine task arg : Nat) : Hw :=
  let f := s.clk.frame
  if (s.dev.trace.filter (·.frame == f)).length < 8192 then
    { s with dev.trace := ⟨f, (s.clk.now - s.clk.frameStart) * 10, kind, pen, stall, engine, task, arg⟩ ::
        s.dev.trace.filter fun t => decide (f < t.frame + 16) }
  else { s with dev.traceX := s.dev.traceX + 1 }

end Sys2Proof.Machine
end

