-- ==== Sys2Proof/Machine/Wire.lean ====
section
/-! DEFINITION. The wire (10_herd_links.md): ports and routes, packets, the transmit queue, and the sending side of flows,
below everything that may send. -/

namespace Sys2Proof.Machine

/-! ## Ports and routes -/

/-- A link beside its registers. -/
def Hw.link (s : Hw) (l : Nat) : LinkSt := Tbl.get {} l s.dev.links

/-- A link changed. -/
def Hw.modLink (s : Hw) (l : Nat) (f : LinkSt → LinkSt) : Hw := { s with dev.links := Tbl.modify {} l f s.dev.links }

/-- The transport watchdog of a link sees a frame or a credit return (R284). -/
def Hw.hearLink (s : Hw) (l : Nat) : Hw := { s with dev.rxAt := Tbl.insert l s.clk.now s.dev.rxAt }

/-- The instant from which the transport watchdog of a link counts: its last frame or credit return, or its coming UP. -/
def Hw.quietFrom (s : Hw) (l : Nat) : Nat := max (s.link l).since ((Tbl.find? l s.dev.rxAt).getD 0)

/-- The ports in force. -/
def Hw.ports (s : Hw) : List PortDef := match s.dev.truss with
  | none => []
  | some t => t.ports

/-- The definition of port `k`. -/
def Hw.port (s : Hw) (k : Nat) : Option PortDef := s.ports.find? (·.id == k)

/-- The port a link is bundled into. -/
def Hw.portOf (s : Hw) (l : Nat) : Option PortDef := s.ports.find? fun p => bit p.linkMask l

/-- The links of port `k` that are UP. -/
def Hw.upLinks (s : Hw) (k : Nat) : List Nat := match s.port k with
  | none => []
  | some p => (setBitsOf 18 p.linkMask).filter fun l => s.get R.LNK_STATUS_STATE l == 2

/-- LNK_PORT_STATUS of every port. -/
def Hw.showPorts (s : Hw) : Hw :=
  s.set R.LNK_PORT_STATUS_UP 0 ((List.range 18).foldl (fun m k => if s.upLinks k = [] then m else m ||| 2 ^ k) 0)

/-- This module's DEVICE_ID. -/
def Hw.devId (s : Hw) : Nat := s.get R.TRS_DEVICE_DEVICE_ID

/-- Whether port `k` is in network mode. -/
def Hw.network (s : Hw) (k : Nat) : Bool := match s.port k with
  | some p => p.mode == 1
  | none => false

/-- The port a packet to a device leaves by: the table in force, never for 0xFFFF (R288). -/
def Hw.route (s : Hw) (d : Nat) : Option Nat :=
  if s.devId = 0xFFFF then none else s.dev.truss.bind fun t => Tbl.find? d t.route

/-- Whether a port is a device port: no pen's PORT_MASK names it (R38). -/
def Truss.devicePort (t : Truss) (k : Nat) : Bool := t.pens.all fun kv => !(bit kv.2.portMask k)

/-- Whether port `k` of the image in force is a device port. -/
def Hw.devicePort (s : Hw) (k : Nat) : Bool := match s.dev.truss with
  | none => false
  | some t => t.devicePort k

/-- The port a pen's packets to a device leave by: a device port carries only transit and yoke packets (R38), so a route to one
is none for them (log 28). -/
def Hw.penRoute (s : Hw) (d : Nat) : Option Nat := (s.route d).filter fun k => !(s.devicePort k)

/-- The port yoke packets to a device travel on (R300). -/
def Hw.yokePort (s : Hw) (d : Nat) : Option Nat := (s.dev.truss.bind (·.yoke)).bind fun y => if y.partner = d then some y.port else none

/-- The port an acknowledgement leaves by: that of the yoke for the partner's class TC1 (R272, R300), else the routed one. -/
def Hw.ackPort (s : Hw) (d tc : Nat) : Option Nat :=
  if s.devId = 0xFFFF then none
  else if tc = 1 then (s.yokePort d).orElse fun _ => s.route d
  else s.route d

/-- The EGRESS entry of a destination on a network-mode port (R276). -/
def Hw.egress (s : Hw) (d k : Nat) : Option Egress :=
  s.dev.truss.bind fun t => t.egress.find? fun e => e.dev == d && fld e.data 2 1 == k

/-- Whether port `k` may transmit to a device: always in herd mode, in network mode with its EGRESS entry (R276). -/
def Hw.maySend (s : Hw) (d k : Nat) : Bool := !(s.network k) || (s.egress d k).isSome

/-- The rate of a destination in Mbit/s with its last cut and from when the next rise counts; its entry's cap to begin with
(R277). -/
def Hw.rateOf (s : Hw) (d : Nat) : Nat × Nat × Nat := match Tbl.find? d s.dev.rates with
  | some x => x
  | none => (match (s.route d).bind (s.egress d) with
    | some e => 25000 * fld e.data 3 1
    | none => 0, 0, 0)

/-! ## Packets on the wire (Table 10.5) -/

/-- The 40 header bytes, the payload and the CRC of a packet. -/
def Pkt.bytes (p : Pkt) : Bytes :=
  let b := leBytes 1 (p.typ + 16) ++ leBytes 1 p.tc ++ leBytes 1 p.ttl ++ leBytes 1 p.flags ++ leBytes 2 p.src ++ leBytes 2 p.dst ++
    leBytes 4 p.job ++ leBytes 4 p.psn ++ leBytes 2 p.msg ++ leBytes 2 p.idx ++ leBytes 2 p.npkt ++ leBytes 2 p.payload.length ++
    leBytes 1 p.pen ++ leBytes 1 p.ctr ++ leBytes 2 p.slot ++ leBytes 4 p.commit ++ leBytes 8 p.addr ++ p.payload
  b ++ leBytes 4 (crc32c b)

/-- The packet a row of received bytes holds; none where its CRC, its length or its version does not fit. -/
def Pkt.of (b : Bytes) : Option Pkt :=
  let n := fld b 0x16 2
  if b.length = 44 + n ∧ bits (fld b 0 1) 4 4 = 1 ∧ fld b (40 + n) 4 = crc32c (b.take (40 + n)) then
    some { typ := fld b 0 1 % 16, tc := fld b 1 1, ttl := fld b 2 1, flags := fld b 3 1, src := fld b 4 2, dst := fld b 6 2,
           job := fld b 8 4, psn := fld b 0xC 4, msg := fld b 0x10 2, idx := fld b 0x12 2, npkt := fld b 0x14 2, pen := fld b 0x18 1,
           ctr := fld b 0x19 1, slot := fld b 0x1A 2, commit := fld b 0x1C 4, addr := fld b 0x20 8, payload := slice b 40 n }
  else none

/-- Bytes of a packet. -/
def Pkt.size (p : Pkt) : Nat := 44 + p.payload.length

/-- The herd link header (R271): packet bytes, class, and the credits returned for a class. -/
def linkHeader (len tc crTc credits : Nat) : Bytes := leBytes 2 len ++ leBytes 1 tc ++ leBytes 1 crTc ++ leBytes 2 credits ++ zeros 2

/-! ## The transmit queue (R269, R271, R272) -/

/-- The shaper of an EGRESS entry (R276) and the rate of its destination (R277): a packet given to it departs when the bytes before
it have gone at that rate. Instants are in ps. -/
def Hw.shaped (s : Hw) (l k : Nat) (p : Pkt) : Hw :=
  let cap := match s.egress p.dst k with
    | some e => 25000 * fld e.data 3 1
    | none => 0
  let rate := max 1 (min cap (s.rateOf p.dst).1)
  let at_ := max (10000 * s.clk.now) (Tbl.get 0 (p.dst * 32 + k) s.dev.shape)
  { s with dev.shape := Tbl.insert (p.dst * 32 + k) (at_ + 8000000 * p.size / rate) s.dev.shape }.emit (.depart l at_)

/-- A packet sent on a link: in herd mode behind its link header, credits spent; in network mode at the instant its shaper gives;
bytes and packets counted. -/
def Hw.putLink (s : Hw) (l k : Nat) (p : Pkt) : Hw :=
  let n := cdiv p.size 64
  let s := if s.network k then s.shaped l k p
    else (s.modLink l fun x => { x with credit := x.credit.set p.tc (x.credit.getD p.tc 0 - n) }).emit (.head l (linkHeader p.size p.tc 0 0))
  ((s.inc R.LNK_TX_BYTES_BYTES l p.size).inc R.ZLT_TX_PKTS_PKTS).emit (.pkt l p)

/-- The links of a port on which a packet may go now: UP and, in herd mode, with credit for all of it; none while the module's DEVICE_ID
is 0xFFFF (R288). -/
def Hw.sendable (s : Hw) (k : Nat) (p : Pkt) : List Nat :=
  (s.upLinks k).filter fun l => s.devId != 0xFFFF && (s.network k || decide (cdiv p.size 64 ≤ (s.link l).credit.getD p.tc 0))

/-- A round of the round-robin of port `k` begins where none of the links `ls` has a packet left in this one: every UP link may send as
many packets as it is wide (R269). -/
def Hw.newRound (s : Hw) (k : Nat) (ls : List Nat) : Hw :=
  if ls.any fun l => (s.link l).turn != 0 then s
  else s.each (s.upLinks k) fun l s => s.modLink l fun x => { x with turn := s.get R.LNK_STATUS_WIDTH l }

/-- The link of `ls` that takes a packet: one with a packet left in this round; which one is the free value `v`. -/
def Hw.turnLink (s : Hw) (ls : List Nat) (v : Nat) : Nat :=
  let c := ls.filter fun l => (s.link l).turn != 0
  let c := if c = [] then ls else c
  c.getD (v % c.length) 0

/-- The waiting packets of class `tc` sent in order; a packet that cannot go keeps the later ones of its port waiting. Links take
packets by weighted round-robin with their WIDTH as weight; the order within a round is open (R269): a free value. -/
def Hw.drainClass (tc : Nat) : List (Nat × Pkt) → List Nat → Hw → Hw
  | [], _, s => s
  | x :: rest, held, s =>
    if x.2.tc ≠ tc then Hw.drainClass tc rest held { s with dev.txq := s.dev.txq ++ [x] }
    else
      let ls := s.sendable x.1 x.2
      if held.contains x.1 || ls.isEmpty then Hw.drainClass tc rest (x.1 :: held) { s with dev.txq := s.dev.txq ++ [x] }
      else
        let (v, s) := (s.newRound x.1 ls).draw
        let l := s.turnLink ls v
        Hw.drainClass tc rest held ((s.modLink l fun y => { y with turn := y.turn - 1 }).putLink l x.1 x.2)

/-- Every packet that can go is sent, class TC0 first (R272). -/
def Hw.drainTx (s : Hw) : Hw :=
  s.each [0, 1, 2] fun tc s => Hw.drainClass tc s.dev.txq [] { s with dev.txq := [] }

/-- A packet put at the end of a port's queue; one that the port may not transmit is dropped and counted (R276). -/
def Hw.enqueue (s : Hw) (k : Nat) (p : Pkt) : Hw :=
  if s.maySend p.dst k then { s with dev.txq := s.dev.txq ++ [(k, p)] }.drainTx else s.inc R.ZLT_DENY_EGRESS

/-! ## Flows (R282) -/

/-- The key of a flow: peer device and class. -/
def flowKey (dev tc : Nat) : Nat := dev * 4 + tc

/-- The sending side of a flow. -/
def Hw.flow (s : Hw) (k : Nat) : Flow := Tbl.get {} k s.dev.flows

/-- The sending side of a flow changed. -/
def Hw.modFlow (s : Hw) (k : Nat) (f : Flow → Flow) : Hw := { s with dev.flows := Tbl.modify {} k f s.dev.flows }

/-- The receiving side of a flow. -/
def Hw.rxFlow (s : Hw) (k : Nat) : RxFlow := Tbl.get {} k s.dev.rxf

/-- The receiving side of a flow changed. -/
def Hw.modRx (s : Hw) (k : Nat) (f : RxFlow → RxFlow) : Hw := { s with dev.rxf := Tbl.modify {} k f s.dev.rxf }

/-- A packet of a flow sent on port `k` for pen `pen`: it takes the flow's next PSN, a packet that is no DATA
packet its own message number, and it stays in the retransmit buffer until it is acknowledged. -/
def Hw.sendRel (s : Hw) (k pen : Nat) (p : Pkt) : Hw :=
  let key := flowKey p.dst p.tc
  let f := s.flow key
  let p := { p with psn := f.psn, src := s.devId, msg := if p.typ = 1 then p.msg else f.msg }
  (s.modFlow key fun f => { f with psn := (f.psn + 1) % 2 ^ 32, msg := if p.typ = 1 then f.msg else (f.msg + 1) % 65536, unacked := f.unacked ++ [⟨p, k, pen, s.clk.now, 1⟩] }).enqueue k p

end Sys2Proof.Machine
end

