-- ==== Sys2Proof/Machine/Memory.lean ====
section
/-! DEFINITION. HBM and loft as every agent of the module reaches them (Sections 1 to 6 of 08_memory_compression.md): where the KV
manager keeps its tables and pages (R248, R249), retired pages (R206, R211), the hub cache (R198 to R200), the mirror of page data
(R303), and reads and writes with the marks and bit errors of their lines (R193, R195, R204). -/

namespace Sys2Proof.Machine

/-! ## Where the KV manager keeps things (R248, R249) -/

/-- A KV page is 36,864 B; a granule holds 56. -/
def pageSize : Nat := 36864

/-- TBL: the size of one context's page table. -/
def KvCfg.tbl (c : KvCfg) : Nat := (c.maxSpans * (4 * c.gKv + 256) + 4095) / 4096 * 4096

/-- TBL_G: the granules the page tables of `ctxMax` contexts take. -/
def KvCfg.tblG (c : KvCfg) (ctxMax : Nat) : Nat := (ctxMax * c.tbl + granule - 1) / granule

/-- KV_ROOT of context `x`. -/
def KvCfg.root (c : KvCfg) (x : Nat) : Nat := c.pool * granule + x * c.tbl

/-- The address of page-table entry `j` of span `sp` of context `x`. -/
def KvCfg.pte (c : KvCfg) (x sp j : Nat) : Nat := c.root x + sp * (4 * c.gKv + 256) + 4 * j

/-- The address of HBM page `p`. -/
def KvCfg.page (c : KvCfg) (ctxMax p : Nat) : Nat := (c.pool + c.tblG ctxMax + p / 56) * granule + p % 56 * pageSize

/-- The address of loft page `q`. -/
def KvCfg.loftPage (c : KvCfg) (q : Nat) : Nat := loftBase + (c.loft + q / 56) * granule + q % 56 * pageSize

/-- HBM pages and loft pages of the pool. -/
def KvCfg.pages (c : KvCfg) (ctxMax : Nat) : Nat := (c.poolCnt - c.tblG ctxMax) * 56
def KvCfg.loftPages (c : KvCfg) : Nat := c.loftCnt * 56

/-- CTX_MAX of a pen. -/
def Hw.ctxMax (s : Hw) (p : Nat) : Nat := match s.desc p with
  | some d => d.ctxMax
  | none => 0

/-- The HBM granules retired through the retirement tables (R206). -/
def Hw.retired (s : Hw) : List Nat :=
  (s.regs.filter fun kv => kv.1 / 65536 == R.MHB_RET_ENTRY_VALID.id && kv.2 == 1).map fun kv =>
    let i := kv.1 % 65536
    i / 1024 * 24576 + s.get R.MHB_RET_ENTRY_PAGE i

/-- The loft granules retired (R211). -/
def Hw.loftRetired (s : Hw) : List Nat :=
  (s.regs.filter fun kv => kv.1 / 65536 == R.MHB_LOFT_RET_ENTRY_VALID.id && kv.2 == 1).map fun kv =>
    s.get R.MHB_LOFT_RET_ENTRY_GRANULE (kv.1 % 65536)

/-! ## Mirroring (R302, R303) -/

/-- Whether the pen mirrors to its partner (Table 11.4, state 2). -/
def Hw.mirrored (s : Hw) (p : Nat) : Bool := s.get R.YOK_PEN_STATE_STATE p == 2

/-- Whether this module mirrors a pen's changes: MIRRORED, or active while SYNCING (R303, R309). -/
def Hw.mirroring (s : Hw) (p : Nat) : Bool := s.mirrored p || (s.get R.YOK_PEN_STATE_STATE p == 1 && s.is R.YOK_PEN_STATE_ROLE p)

/-- A yoke packet of a pen sent on the yoke port at TC1, with the header of R278 (R300, R302). -/
def Hw.yokeSend (s : Hw) (p : Nat) (pkt : Pkt) : Hw := match s.dev.truss.bind (·.yoke) with
  | none => s
  | some y => ((s.inc R.YOK_TX_BYTES_BYTES 0 pkt.size).inc R.YOK_MIRROR_BYTES_BYTES p pkt.size).sendRel y.port p
      { pkt with tc := 1, dst := y.partner, pen := p, job := s.get R.ZLT_JOB_JOB_ID p }

/-- A row of bytes cut into packets of at most 4,096 bytes. -/
def chunk4k (bs : Bytes) : List (Nat × Bytes) := (List.range ((bs.length + 4095) / 4096)).map fun i => (4096 * i, slice bs (4096 * i) 4096)

/-- Bytes sent to the partner as DIRECT packets, each with the poison bits that `mk` gives its lines (R302). -/
def Hw.sendDirect (s : Hw) (p a : Nat) (bs : Bytes) (mk : Nat → Nat) : Hw :=
  s.each (chunk4k bs) fun c s =>
    let m := (linesOf (a + c.1) c.2.length).foldl (fun m l => m ||| mk l) 0
    s.yokeSend p { typ := 5, tc := 1, src := 0, dst := 0, flags := 2 * (m % 4), addr := a + c.1, payload := c.2 }

/-- Whether an address lies in the HBM pages or the loft pool of a configuration. -/
def KvCfg.holds (c : KvCfg) (ctxMax a : Nat) : Bool :=
  (decide ((c.pool + c.tblG ctxMax) * granule ≤ a) && decide (a < (c.pool + c.poolCnt) * granule)) ||
  (decide (loftBase + c.loft * granule ≤ a) && decide (a < loftBase + (c.loft + c.loftCnt) * granule))

/-- Page data written at `a` goes to the partner of the pen whose pool holds it (R303). -/
def Hw.mirrorData (s : Hw) (a : Nat) (bs : Bytes) (mk : Nat → Nat) : Hw :=
  match s.penList.find? fun p => s.mirroring p && (match (s.pen p).kv.cfg with
      | some c => c.holds (s.ctxMax p) a
      | none => false) with
  | some p => s.sendDirect p a bs mk
  | none => s

/-- The granules an extent touches. -/
def granulesOf (a n : Nat) : List Nat := if n = 0 then [] else (List.range ((a + n - 1) / granule + 1 - a / granule)).map (a / granule + ·)

/-! ## HBM and loft with retired pages (R206, R211) -/

/-- Whether a granule, numbered from device address 0, is retired. -/
def Hw.deadGranule (s : Hw) (g : Nat) : Bool :=
  if g < hbmEnd / granule then s.retired.contains g
  else decide (loftBase / granule ≤ g) && s.loftRetired.contains (g - loftBase / granule)

/-- Accesses to a retired page counted. -/
def Hw.deadHit (s : Hw) (g : Nat) : Hw :=
  if g < hbmEnd / granule then s.inc R.MHB_RET_HIT_HITS (g / 24576 / 2) else s.inc R.MHB_LOFT_RET_HIT_HITS

/-- Bytes moved to or from memory counted, each granule's with its hub; those of the lines in `hits` come from the hub cache. -/
def Hw.countBytes (s : Hw) (a n : Nat) (write : Bool) (hits : List Nat := []) : Hw :=
  if a < hbmEnd then s.each (granulesOf a n) fun g s =>
    let within := fun lo k : Nat => min (a + n) (lo + k) - max a lo
    let cached := ((hits.filter fun l => l * 64 / granule == g).map fun l => within (64 * l) 64).sum
    s.inc (if write then R.MHB_BYTES_WR_BYTES else R.MHB_BYTES_RD_BYTES) (g * granule / stackSize / 2) (within (g * granule) granule - cached)
  else if a < spdBase then s.inc R.MHB_LOFT_BYTES_BYTES 0 n
  else s

/-! ## Hub cache (R198 to R200) -/

/-- Who reads HBM: a pen's own agents, the KV page manager, or an agent of the device that reads for no pen. -/
inductive Reader where
  | pen (p : Nat)
  | kvm
  | device
deriving DecidableEq, Repr

/-- The pen that owns a way of a hub's cache: pens in ascending order from way 8 on, HUB_SHARE byte `m` ways each. -/
def Truss.wayOwner (t : Truss) (m w : Nat) : Option Nat :=
  ((t.pens.foldl (fun (a : Nat × Option Nat) kv =>
    let k := bits kv.2.hubShare (8 * m) 8
    (a.1 + k, if a.1 ≤ w ∧ w < a.1 + k then some kv.1 else a.2)) (8, none))).2

/-- The ways of pen `p` on hub `m`. -/
def Hw.penWays (s : Hw) (p m : Nat) : List Nat := match s.dev.truss with
  | none => []
  | some t => (List.range 64).filter fun w => t.wayOwner m w == some p

/-- The ways a reader allocates in: the pen's, ways 0 to 7 for the KV page manager and the prefix table (R37, R198), none. -/
def Hw.readerWays (s : Hw) (m : Nat) : Reader → List Nat
  | .pen p => s.penWays p m
  | .kvm => List.range 8
  | .device => []

/-- The place of a line in the caches: hub and set. -/
def cacheKey (l : Nat) : Nat := l * 64 / stackSize / 2 * 16384 + l % 16384

/-- The cached copy of a line. -/
def Hw.copyOf (s : Hw) (l : Nat) : Option CacheLine := (Tbl.get [] (cacheKey l) s.dev.cache).find? (·.line == l)

/-- Whether the caches hold a good copy of a line. -/
def Hw.cacheHit (s : Hw) (l : Nat) : Bool := match s.copyOf l with
  | some c => c.bad == []
  | none => false

/-- A read of an HBM line: a hit is served by the cache; a cached copy with an uncorrectable error is dropped and the line read
again; a line read from HBM takes a free way of the reader's, or its least recently used one, with its poison. -/
def Run.cacheRead (r : Run) (rd : Reader) (l : Nat) : Run :=
  let m := l * 64 / stackSize / 2
  let row := Tbl.get [] (cacheKey l) r.hw.dev.cache
  let put := fun (cs : List CacheLine) (s : Hw) => { s with dev.cache := Tbl.set [] (cacheKey l) cs s.dev.cache }
  let rest := row.filter fun c => c.line != l
  let ways := r.hw.readerWays m rd
  let free := ways.find? fun w => !(rest.any fun c => c.way == w)
  let last := (rest.reverse.find? fun c => ways.contains c.way).map (·.way)
  let load := fun r : Run =>
    let r := r.sense (l * 64) 64
    r.on <| match free.orElse fun _ => last with
      | none => put rest
      | some w => put (⟨w, l, r.mark l, []⟩ :: rest.filter fun c => c.way != w)
  match row.find? (·.line == l) with
  | some c =>
    if c.bad ≠ [] then load (r.on fun s => s.inc R.MHB_HC_ECC_REFETCH m)
    else r.on fun s => put (c :: rest) (s.inc R.MHB_HC_HIT_HIT m)
  | none => load (r.on fun s => s.inc R.MHB_HC_MISS_MISS m)

/-- A write updates the cached copies of its lines: the words it covers have no error left, a line written whole takes the poison
bits that the write gives it, one written in part gains them (R199). -/
def Hw.cacheWrite (s : Hw) (a n : Nat) (mk : Nat → Nat) : Hw :=
  if s.dev.cache = [] then s
  else s.each (linesOf a n) fun l s =>
    let whole := decide (a ≤ l * 64 ∧ l * 64 + 64 ≤ a + n)
    let word := fun w => decide (a ≤ l * 64 + 8 * w ∧ l * 64 + 8 * w + 8 ≤ a + n)
    match s.copyOf l with
    | none => s
    | some _ => { s with dev.cache := Tbl.modify [] (cacheKey l) (fun cs => cs.map fun c =>
        if c.line = l then { c with poison := if whole then mk l else c.poison ||| mk l, bad := c.bad.filter fun w => !(word w) } else c) s.dev.cache }

/-- The cached lines that `keep` picks by hub and line stay; the others are invalidated. -/
def Hw.filterCache (s : Hw) (keep : Nat → CacheLine → Bool) : Hw :=
  { s with dev.cache :=
      (s.dev.cache.map fun kv : Nat × List CacheLine => (kv.1, kv.2.filter (keep (kv.1 / 16384)))).filter (fun kv => kv.2 != []) }

/-- Every cached line of a granule invalidated (R200). -/
def Hw.uncache (s : Hw) (g : Nat) : Hw := s.filterCache fun _ c => c.line * 64 / granule != g

/-- The ways a commit moves to another pen or to no pen invalidated (R200); ways 0 to 7 are no pen's. -/
def Hw.moveWays (s : Hw) (old new : Option Truss) : Hw :=
  s.filterCache fun m c => decide (c.way < 8) || match old.bind (·.wayOwner m c.way), new.bind (·.wayOwner m c.way) with
    | some p, some q => p == q
    | _, _ => false

/-! ## Reads and writes (R193, R195, R204) -/

/-- What a read of device memory does beside giving its data: lines looked up or read from HBM with their bit errors found, bytes
counted, and accesses to retired pages counted. -/
def Run.fetch (r : Run) (rd : Reader) (a n : Nat) : Run :=
  let dead := (granulesOf a n).filter r.hw.deadGranule
  let ls := (linesOf a n).filter fun l => !(dead.contains (l * 64 / granule))
  let look := decide (a < hbmEnd) && rd != .device
  let hits := if look then ls.filter r.hw.cacheHit else []
  let r := if look then r.each ls fun l r => r.cacheRead rd l
    else if dead = [] then r.sense a n else r.each ls fun l r => r.sense (l * 64) 64
  r.on fun s => (s.countBytes a n false hits).each dead fun g s => s.deadHit g

/-- The poison bits with which a reader gets a line: poisoned in a retired page, those of the cached copy, or the line's. -/
def Run.lineMark (r : Run) (rd : Reader) (l : Nat) : Nat :=
  if r.hw.deadGranule (l * 64 / granule) then r.mark l ||| 1
  else if rd = .device then r.mark l
  else match r.hw.copyOf l with
    | some c => c.poison
    | none => r.mark l

/-- The poison bits of an extent as a reader gets it. -/
def Run.readMarks (r : Run) (rd : Reader) (a n : Nat) : Nat := (linesOf a n).foldl (fun m l => m ||| r.lineMark rd l) 0

/-- A read of device memory: the data, its poison bits (a retired page's lines are all poisoned), and the run. -/
def Run.memRead (r : Run) (rd : Reader) (a n : Nat) : Bytes × Nat × Run :=
  let r := r.fetch rd a n
  (r.read a n, r.readMarks rd a n, r)

/-- A row of bytes cut at granule ends: the part of each granule it touches. -/
def cutGranules (a : Nat) (bs : Bytes) : List (Nat × Bytes) :=
  (granulesOf a bs.length).map fun g =>
    let lo := max a (g * granule)
    (lo, slice bs (lo - a) ((g + 1) * granule - lo))

/-- A write of device memory whose line `l` carries poison bits `mk l`: the parts in retired pages are discarded. -/
def Run.memWriteBy (r : Run) (a : Nat) (bs : Bytes) (mk : Nat → Nat) : Run :=
  (r.on fun s => (s.countBytes a bs.length true).mirrorData a bs mk).each (cutGranules a bs) fun x r =>
    if r.hw.deadGranule (x.1 / granule) then r.on fun s => s.deadHit (x.1 / granule)
    else (r.storeBy x.1 x.2 mk).on fun s => s.cacheWrite x.1 x.2.length mk

/-- A write of device memory with poison bits `m`. -/
def Run.memWrite (r : Run) (a : Nat) (bs : Bytes) (m : Nat) : Run := r.memWriteBy a bs fun _ => m

end Sys2Proof.Machine
end

