-- ==== Sys2Proof/Machine/Kv.lean ====
section
/-! DEFINITION. The KV page manager (Section 8 of 09_serving.md): where pages, page tables and prefix entries lie, free
pages, sharing and freeing, reclamation, restoring and prefix entries. -/

namespace Sys2Proof.Machine

/-! ## Pages in use -/

/-- How many pages of the pool lie in retired granules. -/
def Hw.lostPages (s : Hw) (p : Nat) (c : KvCfg) : Nat :=
  let g0 := c.pool + c.tblG (s.ctxMax p)
  56 * (s.retired.filter fun g => decide (g0 ≤ g) && decide (g < c.pool + c.poolCnt)).length

/-- Free KV pages of a pen: pages neither allocated, reserved, awaiting a commit (R307) nor retired (R206). -/
def Hw.freePages (s : Hw) (p : Nat) : Nat :=
  let ps := s.pen p
  match ps.kv.cfg with
  | none => 0
  | some c => c.pages (s.ctxMax p) - ps.kv.refs.length - ps.kv.late.length - ps.kv.reserve - s.lostPages p c

/-- Free loft pages of a pen. -/
def Hw.freeLoft (s : Hw) (p : Nat) : Nat :=
  let ps := s.pen p
  match ps.kv.cfg with
  | none => 0
  | some c => c.loftPages - ps.kv.loftRef.length - ps.kv.lateL.length -
      56 * (s.loftRetired.filter fun g => decide (c.loft ≤ g) && decide (g < c.loft + c.loftCnt)).length

/-- KVM_FREE, KVM_USED and KVM_LOFT_USED brought up to date. -/
def Hw.kvCounts (s : Hw) (p : Nat) : Hw :=
  let k := (s.pen p).kv
  ((s.set R.KVM_FREE_PAGES p (s.freePages p)).set R.KVM_USED_PAGES p (k.refs.length + k.late.length + k.reserve)).set
    R.KVM_LOFT_USED_PAGES p (k.loftRef.length + k.lateL.length)

/-- The KV manager of a pen changed. -/
def Hw.modKv (s : Hw) (p : Nat) (f : Kv → Kv) : Hw := s.modPen p fun ps => { ps with kv := f ps.kv }

/-! ## Page-table entries (Table 9.8) -/

/-- The value of an absent entry. -/
def pteAbsent : Nat := 0xFFFFFFFF

/-- A page-table entry's STATE and INDEX. -/
def pteState (e : Nat) : Nat := e / 2 ^ 30
def pteIndex (e : Nat) : Nat := e % 2 ^ 30

/-- A page-table entry of a context; a FREE context has no pages. -/
def Run.pte (r : Run) (p : Nat) (c : KvCfg) (x sp j : Nat) : Nat :=
  if ((r.hw.pen p).ctx x).serving = .free then pteAbsent
  else if c.maxSpans ≤ sp then pteAbsent else r.readNat (c.pte x sp j) 4

/-- The entries of a span. -/
def Run.span (r : Run) (p : Nat) (c : KvCfg) (x sp : Nat) : List Nat := (List.range c.gKv).map (r.pte p c x sp)

/-- The KV manager reads the entries of a span; a line with an error is found (R193, R204). -/
def Run.lookSpan (r : Run) (c : KvCfg) (x sp : Nat) : Run := r.fetch .kvm (c.pte x sp 0) (4 * c.gKv)

/-- What a context keeps in memory has changed: the next journal of a mirrored pen carries it (R303). -/
def Hw.noteCtx (s : Hw) (p x : Nat) : Hw :=
  if s.mirroring p then s.modPen p fun ps =>
    if ps.yoke.changed.contains x then ps else { ps with yoke := { ps.yoke with changed := ps.yoke.changed ++ [x] } }
  else s

/-- An entry written. -/
def Run.setPte (r : Run) (p : Nat) (c : KvCfg) (x sp j e : Nat) : Run :=
  (r.memWrite (c.pte x sp j) (leBytes 4 e) 0).on fun s => s.noteCtx p x

/-! ## Allocation and freeing (R250) -/

/-- The next page from `i` on, wrapping at `n`, that `used` does not hold; at most `fuel` are looked at. -/
def nextFree (n : Nat) (used : Nat → Bool) : Nat → Nat → Option Nat
  | 0, _ => none
  | fuel + 1, i => if used (i % n) then nextFree n used fuel (i + 1) else some (i % n)

/-- One HBM page taken with count 1. Which free page is taken is not stated: the search starts at a free value
(DESIGN CHOICE, log 13). -/
def Hw.allocPage (s : Hw) (p : Nat) : Option Nat × Hw :=
  match (s.pen p).kv.cfg with
  | none => (none, s)
  | some c =>
    let n := c.pages (s.ctxMax p)
    let g0 := c.pool + c.tblG (s.ctxMax p)
    let bad := s.retired
    let (v, s) := s.draw
    let k := (s.pen p).kv
    match nextFree n (fun i => Tbl.get 0 i k.refs != 0 || k.late.contains i || bad.contains (g0 + i / 56)) n (v % n) with
    | none => (none, s)
    | some i => (some i, s.modKv p fun k => { k with refs := Tbl.set 0 i 1 k.refs })

/-- One loft page taken with count 1. -/
def Hw.allocLoft (s : Hw) (p : Nat) : Option Nat × Hw :=
  match (s.pen p).kv.cfg with
  | none => (none, s)
  | some c =>
    let n := c.loftPages
    let bad := s.loftRetired
    let (v, s) := s.draw
    let k := (s.pen p).kv
    match nextFree n (fun i => Tbl.get 0 i k.loftRef != 0 || k.lateL.contains i || bad.contains (c.loft + i / 56)) n (v % n) with
    | none => (none, s)
    | some i => (some i, s.modKv p fun k => { k with loftRef := Tbl.set 0 i 1 k.loftRef })

/-- One reference to an HBM page dropped; a page whose count reaches 0 is freed, but in a MIRRORED pen not allocated
again until the commit that records it is acknowledged (R250, R307). -/
def Hw.unrefPage (s : Hw) (p i : Nat) : Hw :=
  let m := s.mirrored p
  s.modPen p fun ps =>
    let n := Tbl.get 0 i ps.kv.refs
    let ps := { ps with kv := { ps.kv with refs := Tbl.set 0 i (n - 1) ps.kv.refs } }
    if n = 1 ∧ m then { ps with kv := { ps.kv with late := i :: ps.kv.late }, yoke := { ps.yoke with freed := i :: ps.yoke.freed } }
    else ps

/-- One reference to a loft page dropped, freed under the same rule. -/
def Hw.unrefLoft (s : Hw) (p q : Nat) : Hw :=
  let m := s.mirrored p
  s.modPen p fun ps =>
    let n := Tbl.get 0 q ps.kv.loftRef
    let ps := { ps with kv := { ps.kv with loftRef := Tbl.set 0 q (n - 1) ps.kv.loftRef } }
    if n = 1 ∧ m then { ps with kv := { ps.kv with lateL := q :: ps.kv.lateL }, yoke := { ps.yoke with freedL := q :: ps.yoke.freedL } }
    else ps

/-- The page an entry names released. -/
def Hw.dropPte (s : Hw) (p e : Nat) : Hw :=
  if pteState e = 0 then s.unrefPage p (pteIndex e) else if pteState e = 1 then s.unrefLoft p (pteIndex e) else s

/-- Every page of a context released and every entry made absent. -/
def Run.releasePages (r : Run) (p x : Nat) : Run :=
  match (r.hw.pen p).kv.cfg with
  | none => r
  | some c =>
    let r := r.each (List.range c.maxSpans) fun sp r =>
      (r.lookSpan c x sp).each (List.range c.gKv) fun j r => (r.on fun s => s.dropPte p (r.pte p c x sp j)).setPte p c x sp j pteAbsent
    r.on fun s => (s.modKv p fun k => { k with recomp := k.recomp.filter (·.1 ≠ x), moves := k.moves.filter (·.ctx ≠ x),
                                               pins := k.pins.filter (·.1 ≠ x), tickets := k.tickets.filter (·.ctx ≠ x) }).kvCounts p

/-! ## What a step needs (R252) -/

/-- The spans a step at position `pos` with `x` tokens writes. -/
def writtenSpans (pos x : Nat) : List Nat :=
  let a := pos / 64
  (List.range ((pos + x - 1) / 64 + 1 - a)).map (a + ·)

/-- Whether a span holds a shared page. -/
def Run.spanShared (r : Run) (p : Nat) (c : KvCfg) (x sp : Nat) : Bool :=
  (r.span p c x sp).any fun e => pteState e == 0 && decide (1 < Tbl.get 0 (pteIndex e) (r.hw.pen p).kv.refs)

/-- The pages a sequence of context `cx` at TOKEN_POS `pos` needs for `x` tokens; `start` releases its pages first. -/
def Run.needPages (r : Run) (p cx pos x : Nat) (start : Bool) : Nat :=
  match (r.hw.pen p).kv.cfg with
  | none => 0
  | some c =>
    if start then c.gKv * (writtenSpans 0 x).length
    else
      let fresh := (writtenSpans pos x).filter fun sp => decide ((pos + 63) / 64 ≤ sp)
      let n := (fresh.map fun sp => ((r.span p c cx sp).filter fun e => pteState e != 0).length).sum
      if pos % 64 ≠ 0 ∧ r.spanShared p c cx (pos / 64) then n + c.gKv else n

/-- Whether span `sp` of a context is in a recompute ticket not yet marked DONE (R255). -/
def Kv.ticketed (k : Kv) (cx sp : Nat) : Bool := k.tickets.any fun t => t.ctx == cx && decide (t.first ≤ sp) && decide (sp < t.first + t.nspan)

/-- The spans a step at `pos` reads that are not resident: STATE 1 (loft) or 2 (dropped), or still to be recomputed, below
ceil(pos / 64). -/
def Run.missingSpans (r : Run) (p cx pos : Nat) : List Nat :=
  let ps := r.hw.pen p
  match ps.kv.cfg with
  | none => []
  | some c => (List.range ((pos + 63) / 64)).filter fun sp =>
      ps.kv.ticketed cx sp || (r.span p c cx sp).any fun e => pteState e == 1 || pteState e == 2

/-! ## Copies of pages -/

/-- A page of data copied between two device addresses, the poison of each line with it. -/
def Run.copyPage (r : Run) (src dst : Nat) : Run :=
  let r := r.fetch .kvm src pageSize
  r.memWriteBy dst (r.read src pageSize) fun l => r.lineMark .kvm (src / 64 + (l - dst / 64))

/-- Reserved pages allocated before the step's first body task (R252): a shared span that the step writes into is copied,
counting KVM_COW per page; every written span at or above ceil(pos / 64) gets pages for the entries that lack them,
freeing the loft page of an entry it replaces. -/
def Run.allocStep (r : Run) (p cx pos x : Nat) : Run :=
  match (r.hw.pen p).kv.cfg with
  | none => r
  | some c =>
    let cm := r.hw.ctxMax p
    let r :=
      if pos % 64 ≠ 0 ∧ r.spanShared p c cx (pos / 64) then
        (r.lookSpan c cx (pos / 64)).each (List.range c.gKv) fun j r =>
          let e := r.pte p c cx (pos / 64) j
          match r.hw.allocPage p with
          | (none, s) => r.on fun _ => s
          | (some i, s) =>
            let r := (r.on fun _ => ((s.unrefPage p (pteIndex e)).inc R.KVM_COW_PAGES p))
            (r.copyPage (c.page cm (pteIndex e)) (c.page cm i)).setPte p c cx (pos / 64) j i
      else r
    r.each ((writtenSpans pos x).filter fun sp => decide ((pos + 63) / 64 ≤ sp)) fun sp r =>
      (r.lookSpan c cx sp).each (List.range c.gKv) fun j r =>
        let e := r.pte p c cx sp j
        if pteState e = 0 then r
        else match r.hw.allocPage p with
          | (none, s) => r.on fun _ => s
          | (some i, s) => (r.on fun _ => if pteState e = 1 then s.unrefLoft p (pteIndex e) else s).setPte p c cx sp j i

/-! ## The prefix table (R257) -/

/-- The size of a prefix entry. -/
def KvCfg.pfxSize (c : KvCfg) : Nat := 64 + 64 * ((c.gKv + 15) / 16)

/-- How many entries the prefix region holds. -/
def KvCfg.pfxLen (c : KvCfg) : Nat := c.pfxCnt * granule / c.pfxSize

/-- The address of prefix entry `i`. -/
def KvCfg.pfxAddr (c : KvCfg) (i : Nat) : Nat := c.pfx * granule + i * c.pfxSize

/-- Whether prefix entry `i` is occupied: an entry has no field that says so, and the manager keeps it (DESIGN CHOICE, log 14). -/
def Run.pfxUsed (r : Run) (p i : Nat) : Bool := (r.hw.pen p).kv.pfxUse.contains i

/-- A prefix entry marked occupied or free. -/
def Hw.usePfx (s : Hw) (p i : Nat) (on : Bool) : Hw :=
  s.modKv p fun k =>
    let lo := k.pfxUse.filter (· < i)
    let hi := k.pfxUse.filter (i < ·)
    { k with pfxUse := if on then lo ++ i :: hi else lo ++ hi }

/-- The page numbers of prefix entry `i`. -/
def Run.pfxPages (r : Run) (c : KvCfg) (i : Nat) : List Nat :=
  (List.range c.gKv).map fun j => r.readNat (c.pfxAddr i + 64 + 4 * j) 4

/-- The manager reads prefix entry `i`, cached in ways 0 to 7 (R257). -/
def Run.lookPfx (r : Run) (c : KvCfg) (i : Nat) : Run := r.fetch .kvm (c.pfxAddr i) c.pfxSize

/-- Prefix entry `i` removed with its references. -/
def Run.pfxRemove (r : Run) (p : Nat) (c : KvCfg) (i : Nat) : Run :=
  let pages := r.pfxPages c i
  (r.lookPfx c i).on fun s => (s.each pages fun g s => s.unrefPage p g).usePfx p i false

/-- The prefix entries whose KEY_ID is `key` removed (R41, R257). -/
def Run.pfxDropKey (r : Run) (p key : Nat) : Run :=
  match (r.hw.pen p).kv.cfg with
  | none => r
  | some c => r.each (r.hw.pen p).kv.pfxUse fun i r =>
      r.when (r.readNat (c.pfxAddr i + 16) 1 == key) fun r => r.pfxRemove p c i

/-! ## Contexts' records (R67) -/

/-- The base of a pen's context save area (R35). -/
def PenDesc.saveBase (d : PenDesc) : Nat := match d.hbm[d.saveRange]? with
  | some g => g.start * granule
  | none => 0

/-- Whether a residency state keeps the record in the scratchpads (Table 3.6). -/
def Residency.resident : Residency → Bool
  | .idle | .ready | .running | .blocked | .swapOut => true
  | .defined | .swapIn | .faulted => false

/-- Where the record of context `x` lies: resident, or in the save area at 1 MiB per context (R67). -/
def Hw.recAddr (s : Hw) (p x : Nat) : Nat :=
  let c := (s.pen p).ctx x
  if c.res.resident then c.addr
  else match s.desc p with
    | some d => d.saveBase + x * 0x100000
    | none => 0

/-- A field of a context's record header (Table 3.5). -/
def Run.recGet (r : Run) (p x off n : Nat) : Nat := r.readNat (r.hw.recAddr p x + off) n

/-- The FSQ or the sweeper reads the header of a context's record where it lies (R193, R197). -/
def Run.lookRec (r : Run) (p x : Nat) : Run := r.fetch (.pen p) (r.hw.recAddr p x) 64

/-- Fields of the record header at `a` written for pen `p`, with HDR_CRC formed anew; the header keeps its line's poison. -/
def Run.hdrSet (r : Run) (p a : Nat) (fs : List (Nat × Bytes)) : Run :=
  let r := r.fetch (.pen p) a 64
  let h := fs.foldl (fun h f => overlay h f.1 f.2) (r.read a 60)
  r.memWrite a (h ++ leBytes 4 (crc32c h)) (r.readMarks (.pen p) a 64)

/-- Header fields of a context's record written. -/
def Run.recSet (r : Run) (p x : Nat) (fs : List (Nat × Bytes)) : Run := r.hdrSet p (r.hw.recAddr p x) fs

/-- TOKEN_POS of a context; a FREE context holds none. -/
def Run.tokenPos (r : Run) (p x : Nat) : Nat :=
  if ((r.hw.pen p).ctx x).serving = .free then 0 else r.recGet p x 0x20 4

/-- A fresh record of a started context: header only, BODY_CRC 0 (Table 3.5, R246). -/
def freshRecord (p x tenant slot frame root init : Nat) : Bytes :=
  let h := leBytes 4 0x5854434B ++ leBytes 2 x ++ leBytes 1 p ++ leBytes 1 tenant ++ leBytes 4 64 ++ leBytes 1 slot ++
    leBytes 1 1 ++ leBytes 2 0 ++ leBytes 8 frame ++ leBytes 8 root ++ leBytes 4 0 ++ leBytes 4 init ++ leBytes 8 0 ++
    leBytes 4 0 ++ leBytes 8 0
  h ++ leBytes 4 (crc32c h)

/-! ## Reclamation (R253) -/

/-- Whether a context is busy: bound and not yet answered (R243). -/
def PenSt.busy (ps : PenSt) (x : Nat) : Bool := ps.bound.any fun b => b.ctx == x

/-- The least element by key, ties to the earlier. -/
def leastBy {α : Type} (key : α → Nat) : List α → Option α
  | [] => none
  | x :: xs => match leastBy key xs with
    | none => some x
    | some y => if key y < key x then some y else some x

/-- Contexts that reclamation may take from, in number order: ACTIVE, PAUSED or LOST, not busy, not pinned. -/
def PenSt.reclaimable (ps : PenSt) : List Nat :=
  (ps.ctxs.filter fun kv => kv.2.serving != .free && kv.2.res != .faulted && !(ps.busy kv.1) && !(ps.kv.pins.any (·.1 == kv.1))).map (·.1)

/-- The highest span of a context that holds a page of count 1 in HBM. -/
def Run.topSpan (r : Run) (p : Nat) (c : KvCfg) (x : Nat) : Option Nat :=
  ((List.range c.maxSpans).reverse).find? fun sp => (r.span p c x sp).any fun e =>
    pteState e == 0 && Tbl.get 0 (pteIndex e) (r.hw.pen p).kv.refs == 1

/-- A span's count-1 pages freed and marked STATE 2 (drop and recompute). -/
def Run.dropSpan (r : Run) (p : Nat) (c : KvCfg) (x sp : Nat) : Run :=
  (r.lookSpan c x sp).each (List.range c.gKv) fun j r =>
    let e := r.pte p c x sp j
    if pteState e = 0 ∧ Tbl.get 0 (pteIndex e) (r.hw.pen p).kv.refs = 1 then
      (r.on fun s => (s.unrefPage p (pteIndex e)).inc R.KVM_DROPPED_PAGES p).setPte p c x sp j (2 * 2 ^ 30)
    else r

/-- Every loft page of a context freed; the context becomes LOST (R253, step 3). -/
def Run.loseLoft (r : Run) (p : Nat) (c : KvCfg) (x : Nat) : Run :=
  let r := r.each (List.range c.maxSpans) fun sp r => (r.lookSpan c x sp).each (List.range c.gKv) fun j r =>
    let e := r.pte p c x sp j
    if pteState e = 1 then (r.on fun s => s.unrefLoft p (pteIndex e)).setPte p c x sp j pteAbsent else r
  r.on fun s => (s.modPen p fun ps => ps.modCtx x fun k => { k with serving := .lost }).inc R.KVM_REFUSE_LOST p

/-- The contexts that hold loft pages. -/
def Run.loftHolders (r : Run) (p : Nat) (c : KvCfg) : List Nat :=
  (((r.hw.pen p).ctxs).filter fun kv => (List.range c.maxSpans).any fun sp =>
    (r.span p c kv.1 sp).any fun e => pteState e == 1).map (·.1)

/-- Effective KV policy: 1 spill to loft, 2 drop and recompute (R36). -/
def PenDesc.policy (d : PenDesc) : Nat :=
  if d.kvPolicy = 1 then 1 else if d.kvPolicy = 2 then 2 else if d.stalls.length ≤ 48 then 1 else 2

/-- One round of reclamation after another, at most `fuel`: prefix-only pages first, then spans of the least recently used
context (dropped at once, or copied out by a background move), then, with the loft full, the loft pages of its least
recently used context (R253). -/
def Run.reclaimLoop (p : Nat) : Nat → Run → Run
  | 0, r => r
  | fuel + 1, r =>
    match (r.hw.pen p).kv.cfg, r.hw.desc p with
    | some c, some d =>
      if 56 * c.highG ≤ r.hw.freePages p then r.on fun s => s.modKv p fun k => { k with reclaim := false }
      else
        let refs := (r.hw.pen p).kv.refs
        match leastBy (fun i => r.readNat (c.pfxAddr i + 24) 8)
            ((r.hw.pen p).kv.pfxUse.filter fun i => (r.pfxPages c i).any fun g => Tbl.get 0 g refs == 1) with
        | some i => reclaimLoop p fuel ((r.pfxRemove p c i).on fun s => s.inc R.KVM_PFX_EVICT_EVICT p)
        | none =>
          match leastBy (fun x => r.recGet p x 0x10 8) ((r.hw.pen p).reclaimable.filter fun x => (r.topSpan p c x).isSome) with
          | none => r
          | some x =>
            let sp := (r.topSpan p c x).getD 0
            if d.policy = 2 then reclaimLoop p fuel (r.dropSpan p c x sp)
            else if c.gKv ≤ r.hw.freeLoft p then
              r.on fun s => s.modKv p fun k =>
                if k.moves.any (·.out) then k else { k with moves := k.moves ++ [⟨x, sp, true⟩] }
            else match leastBy (fun x => r.recGet p x 0x10 8) (r.loftHolders p c) with
              | none => r
              | some y => reclaimLoop p fuel (r.loseLoft p c y)
    | _, _ => r

/-- The start condition tested, and reclamation run while it holds (R253). -/
def Run.reclaim (r : Run) (p : Nat) : Run :=
  match (r.hw.pen p).kv.cfg with
  | none => r
  | some c =>
    let r := if r.hw.freePages p < 56 * c.lowG then r.on fun s => s.modKv p fun k => { k with reclaim := true } else r
    let r := if (r.hw.pen p).kv.reclaim then Run.reclaimLoop p (c.pages (r.hw.ctxMax p) + c.pfxLen + 1) r else r
    r.on fun s => s.kvCounts p

end Sys2Proof.Machine
end

