-- ==== Sys2Proof/Machine/Crib.lean ====
section
/-! DEFINITION. Answers: crib entries and their ring (Section 4 of 09_serving.md), deadlines (Section 6), the end of a
bound sequence, and CONTROL sequences (R245, R246, R259). -/

namespace Sys2Proof.Machine

/-! ## Entries (R242, R243) -/

/-- The function of a tenant in force; the PF where it is in force no more. -/
def Hw.fnOf (s : Hw) (t : Nat) : Nat := match s.tenant t with
  | some x => x.function
  | none => 0

/-- The device address of a tenant's trough window. -/
def Tenant.window (t : Tenant) : Nat := troughBase + t.base * 0x10000

/-- The 32 bytes of an entry with its PHASE bit (Table 9.5). -/
def CribEnt.bytes (e : CribEnt) (phase : Nat) : Bytes :=
  leBytes 4 e.seq ++ leBytes 1 e.status ++ leBytes 1 e.idx ++ leBytes 1 (e.flags / 2 * 2 + phase) ++ leBytes 1 e.reason ++
  leBytes 2 e.ctx ++ leBytes 1 e.pen ++ leBytes 1 e.slot ++ leBytes 4 e.token ++ leBytes 4 e.frame ++ leBytes 4 e.pos ++
  leBytes 2 e.pfx ++ leBytes 2 e.state ++ leBytes 4 e.outB

/-- PHASE of entry `k`: 1 on the first pass of the ring, alternating at each wrap. -/
def Win.phase (w : Win) (k : Nat) : Nat := (1 + k / max w.cribLen 1) % 2

/-- The crib vector of a tenant (Table 15.8). -/
def cribVector (fn t : Nat) : Nat := if fn = 0 then 64 + t else 1 + t % 31

/-- An entry written at the ring's tail as one posted write, which CRIB_TAIL and the window's counts then count, and with IRQ_EN the
crib vector is raised once per sub-tick in which entries were written (R242). One whose position lies outside the function's DMA
windows is not written (R233, R392) and counts nowhere. A tenant disabled by count gets no entry (R352). -/
def Run.postEntry (r : Run) (e : CribEnt) : Run :=
  let w := r.hw.win e.tenant
  match r.hw.tenant e.tenant with
  | none => r
  | some t =>
    if !w.latched then r else
    let a := w.cribBase + 32 * (w.cribTail % max w.cribLen 1)
    if !(r.hw.dmaOk t.function a 32 true) then
      r.on fun s => (s.modWin e.tenant fun w => { w with reserved := w.reserved - 1 }).dmaReject t.function a true
    else
    let r := r.writeHost a (e.bytes (w.phase w.cribTail))
    let tick := (r.hw.clk.frame, r.hw.clk.subtick)
    let irq := bit (r.readNat (t.window + 4) 4) 1 && w.irqAt != some tick
    r.on fun s =>
      let s := s.modWin e.tenant fun w => { w with
        cribTail := (w.cribTail + 1) % 2 ^ 32, reserved := w.reserved - 1,
        refused := if e.status = Crib.NOT_ACCEPTED then (w.refused + 1) % 2 ^ 32 else w.refused,
        budget := if e.status = Crib.BUDGET_EXHAUSTED then (w.budget + 1) % 2 ^ 32 else w.budget,
        late := if bit e.flags 1 then (w.late + 1) % 2 ^ 32 else w.late,
        dlPassed := if e.status = Crib.DEADLINE_PASSED then (w.dlPassed + 1) % 2 ^ 32 else w.dlPassed,
        irqAt := if irq then some tick else w.irqAt }
      let s := if e.status = Crib.CONTEXT_LOST then s.inc R.KVM_TTL_CTX_LOST e.pen else s
      let s := if e.status = Crib.TAKEOVER_REPLAY then s.inc R.YOK_REPLAY_REPLAYED e.pen else s
      if irq then s.msi t.function (cribVector t.function e.tenant) else s

/-! ## Deadlines (Section 6 of 09_serving.md) -/

/-- The frame nearest to the current one whose low 32 bits are `dl`. -/
def nearFrame (cur dl : Nat) : Int :=
  let d : Int := ((dl : Int) - (cur : Int)) % (2 ^ 32 : Nat)
  if d < (2 ^ 31 : Nat) then cur + d else cur + d - (2 ^ 32 : Nat)

/-- Whether the deadline of a sequence entry has passed: DL_US µs after the actual start of its frame; DL_US = 0xFFFF is
no deadline. A frame older than the starts kept is long past. -/
def Hw.deadlinePassed (s : Hw) (entry : Bytes) : Bool :=
  let us := fld entry 8 2
  if us = 0xFFFF then false
  else
    let f := nearFrame s.clk.frame (fld entry 4 4)
    if (s.clk.frame : Int) < f then false
    else match s.clk.starts.find? fun x => (x.1 : Int) == f with
      | some x => decide (x.2 + us * 100 < s.clk.now)
      | none => true

/-! ## CONTROL sequences (R245, R246, R259) -/

/-- A RELEASE applied: pages freed, the context FREE. -/
def Run.applyRelease (r : Run) (p x : Nat) : Run :=
  (r.releasePages p x).on fun s => s.modPen p fun ps => ps.modCtx x fun k =>
    { k with serving := .free, late := false, sampled := false, expiry := none, clockHeld := false, prefixOn := false, hash := [], hashBlk := 0 }

/-- A PAUSE applied: the PAUSED flag and state; mode 0 queues the spill of count-1 pages from the highest span down while
the loft has room, and sets the expiry from the start of the frame; mode 1 releases every page. -/
def Run.applyPause (r : Run) (p x tenant : Nat) : Run :=
  let t := r.hw.tenant tenant
  let fl := r.recGet p x 0x0D 1
  let r := r.recSet p x [(0x0D, leBytes 1 (fl ||| 3))]
  let mode1 := match t with
    | some t => t.pauseMode == 1
    | none => false
  let ttl := match t with
    | some t => t.ttl
    | none => 0
  let r := if mode1 then r.releasePages p x else r
  r.on fun s => s.modPen p fun ps =>
    let ps := ps.modCtx x fun k => { k with serving := .paused, expiry := if mode1 then none else some (s.clk.frameStart + ttl * 100000000), clockHeld := false }
    match mode1, ps.kv.cfg with
    | false, some c =>
      if c.gKv = 0 then ps
      else { ps with kv := { ps.kv with moves := ps.kv.moves ++ ((r.topSpan p c x).toList.map fun sp => ⟨x, sp, true⟩) } }
    | _, _ => ps

/-- The outcome of checks 9 to 12 of Table 9.4 for one sequence: none where it passes. `pos` is TOKEN_POS. -/
def Run.seqChecks (r : Run) (p tenant : Nat) (entry : Bytes) (pos : Nat) : Option (Nat × Nat) :=
  let x := fld entry 0 2
  let act := fld entry 2 1
  let ps := r.hw.pen p
  let k := ps.ctx x
  let faulted := k.res = .faulted
  let toks := fld entry 0x0A 2
  let n := if toks = 0 then 1 else toks
  let free := k.serving = .free
  let allowed : Bool :=
    if free then act == 1 || act == 2
    else if faulted then act == 0 || act == 1 || act == 2 || act == 3 || act == 4
    else match k.serving with
      | .active => act == 0 || act == 1 || act == 3 || act == 4
      | .paused => act == 2 || act == 1 || act == 4
      | .lost => act == 0 || act == 1 || act == 2 || act == 4
      | .free => act == 1 || act == 2
  let spansBad : Bool := match ps.kv.cfg with
    | some c => act ≤ 2 && decide (64 * c.maxSpans < (if act = 1 then 0 else pos) + n)
    | none => false
  if r.hw.ctxMax p ≤ x then some (Crib.NOT_ACCEPTED, 0x09)
  else if !free && k.owner != tenant then some (Crib.NOT_ACCEPTED, 0x09)
  else if !allowed then some (Crib.NOT_ACCEPTED, 0x09)
  else if act = 0 ∧ toks = 0 ∧ k.serving = .active ∧ !faulted ∧ !k.sampled then some (Crib.NOT_ACCEPTED, 0x09)
  else if spansBad then some (Crib.NOT_ACCEPTED, 0x09)
  else if faulted ∧ !free ∧ (act = 0 ∨ act = 2 ∨ act = 3) then some (Crib.POISONED_OUTPUT, 0)
  else if (k.serving = .lost ∧ (act = 0 ∨ act = 2)) ∨ (free ∧ act = 2) then some (Crib.CONTEXT_LOST, 0)
  else if (r.hw.deadlinePassed entry && !(bit (fld entry 3 1) 0)) || (k.late && (act == 0 || act == 2 || act == 3)) then
    some (Crib.DEADLINE_PASSED, 0)
  else none

/-- An answer to a sequence or, with `idx = 0xFF`, to a record. -/
def Hw.answer (s : Hw) (tenant seq idx ctx pen slot status reason pos : Nat) : CribEnt :=
  { tenant := tenant, seq := seq, status := status, idx := idx, flags := 0, reason := reason, ctx := ctx, pen := pen,
    slot := slot, token := 0xFFFFFFFF, frame := s.clk.frame, pos := pos, pfx := 0, state := 0, outB := 0 }

/-- A context answered CONTEXT_LOST becomes FREE (Table 9.7). -/
def Run.afterAnswer (r : Run) (p x status : Nat) : Run :=
  if status = Crib.CONTEXT_LOST ∧ ((r.hw.pen p).ctx x).serving = .lost then r.applyRelease p x else r

/-- The entry of a CONTROL sequence that takes code `status`. One that is applied is an entry posted after its deadline where that has
passed, and an entry of a batch accepted while the pen was suspended where it was (R76, R247); a replayed record's entries carry
REPLAYED and its code (R312), all under R10 (log 66). -/
def Run.controlEntry (r : Run) (p : Nat) (d : Deferred) (applied : Bool) (status reason pos : Nat) : CribEnt :=
  let late := applied && r.hw.deadlinePassed d.entry
  let susp := applied && (d.susp || r.hw.is R.FSQ_STATE_SUSPENDED p)
  let codes := status :: (if late then [Crib.OK_LATE] else []) ++ (if susp then [Crib.GUARANTEE_SUSPENDED] else []) ++
    (if d.replay then [Crib.TAKEOVER_REPLAY] else [])
  { r.hw.answer d.tenant d.seq d.idx d.ctx p 0 (cribCode codes) reason pos with
    flags := (if late then 2 else 0) + (if susp then 4 else 0) + (if d.replay then 8 else 0) }

/-- A CONTROL sequence judged by checks 9 to 12 and applied, or answered as they state (R246). -/
def Run.judgeControl (r : Run) (p : Nat) (d : Deferred) : Run :=
  let pos := r.tokenPos p d.ctx
  match r.seqChecks p d.tenant d.entry pos with
  | some (st, reason) => (r.postEntry (r.controlEntry p d false st reason pos)).afterAnswer p d.ctx st
  | none =>
    let r := if fld d.entry 2 1 = 3 then r.applyPause p d.ctx d.tenant else r.applyRelease p d.ctx
    r.postEntry (r.controlEntry p d true Crib.OK 0 (r.tokenPos p d.ctx))

/-! ## The end of a bound sequence (R243, R246, R247) -/

/-- The entry of a bound sequence, written now: codes joined by R10, LATE and SUSPENDED flags whatever the code; only a code with no
result takes TOKEN and OUT_BYTES away (R244). -/
def Run.entryOf (r : Run) (p : Nat) (b : Bound) : CribEnt × Bool :=
  let late := r.hw.deadlinePassed b.entry
  let codes := b.codes ++ (if late then [Crib.OK_LATE] else []) ++ (if b.susp then [Crib.GUARANTEE_SUSPENDED] else []) ++
    (if b.replay then [Crib.TAKEOVER_REPLAY] else [])
  let st := cribCode codes
  let ok := cribValid st
  let pos := if ok then b.pos0 + b.x else b.pos0 + b.prefixT
  let flags := (if late then 2 else 0) + (if b.susp then 4 else 0) + (if b.replay then 8 else 0) + b.flags
  ({ tenant := b.tenant, seq := b.seq, status := st, idx := b.idx, flags := flags, reason := 0, ctx := b.ctx, pen := p,
     slot := b.slot, token := if cribNone st then 0xFFFFFFFF else b.token, frame := b.frame % 2 ^ 32, pos := pos,
     pfx := b.prefixT / 64, state := b.state, outB := if cribNone st then 0 else b.outB }, late)

/-- TOKEN_POS of a bound sequence's context, when its entry's code has a valid result, ends at its value at binding plus
X; otherwise it stays (R246). -/
def Run.settle (r : Run) (p : Nat) (b : Bound) : Run :=
  let e := (r.entryOf p b).1
  if cribValid e.status then
    r.recSet p b.ctx [(0x20, leBytes 4 e.pos), (0x0D, leBytes 1 (r.recGet p b.ctx 0x0D 1 ||| 1))]
  else r

/-- Whether two bound sequences are the same. -/
def Bound.same (a b : Bound) : Bool := a.tenant == b.tenant && a.seq == b.seq && a.idx == b.idx

/-- A bound sequence ends with its entry: TOKEN_POS settles, the context is no more busy and is late-locked by a LATE
entry with CONT_LATE clear; then the CONTROL sequences held on the context are judged. `write` is false where the answer
is given by count (R352). -/
def Run.finish (r : Run) (p : Nat) (b : Bound) (write : Bool := true) : Run :=
  let (e, late) := r.entryOf p b
  let ok := cribValid e.status
  let r := r.settle p b
  let defs := ((r.hw.pen p).deferred.filter (·.ctx == b.ctx))
  let r := r.on fun s => s.modPen p fun ps =>
    let ps := { ps with bound := ps.bound.filter fun c => !(c.same b), deferred := ps.deferred.filter (·.ctx != b.ctx) }
    ps.modCtx b.ctx fun k => { k with
      sampled := ok && bit (fld b.entry 3 1) 1 && e.token != 0xFFFFFFFF,
      late := k.late || (late && !(bit (fld b.entry 3 1) 0)) }
  let r := r.when write fun r => r.postEntry e
  r.each defs fun d r => r.judgeControl p d

/-- A bound sequence whose entry is ready: posted, or in a MIRRORED pen held for the commit that carries it (R306). -/
def Run.deliver (r : Run) (p : Nat) (b : Bound) : Run :=
  if r.hw.mirrored p then
    (r.settle p b).on fun s => s.modPen p fun ps =>
      { ps with bound := ps.bound.map fun c => if c.same b then { b with held := true } else c,
                yoke := { ps.yoke with held := ps.yoke.held ++ [(b.tenant, b.seq, b.idx)] } }
  else r.finish p b

/-- Every bound sequence of a pen that `sel` picks ends with `code` among its codes. -/
def Run.finishAll (r : Run) (p : Nat) (sel : Bound → Bool) (code : Nat) (write : Bool := true) : Run :=
  r.each ((r.hw.pen p).bound.filter sel) fun b r =>
    r.finish p { b with codes := if b.codes.contains code then b.codes else code :: b.codes } write

/-- The contexts of a pen discarded: every context FREE, no pages, no bound sequence, KV manager not configured
(R46, R49, R245, R251). The step's answers come first, where there are any. -/
def Hw.discardContexts (s : Hw) (p : Nat) : Hw :=
  (s.modPen p fun ps => { ps with ctxs := [], bound := [], deferred := [], swap := [], kv := {}, ledger := [] }).set R.KVM_CTRL_CONFIGURED p 0

end Sys2Proof.Machine
end

