-- ==== Sys2Proof/Machine/Stall.lean ====
section
/-! DEFINITION. What every engine of a stall shares (07_scratchpad.md): regions and bounds, buffer slots, arrival counters,
zero-fill and stall reset. -/

namespace Sys2Proof.Machine

/-- The state of stall `n`. -/
def Hw.stl (s : Hw) (n : Nat) : Stl := Tbl.get {} n s.dev.stls

/-- The state of stall `n` changed. -/
def Hw.modStl (s : Hw) (n : Nat) (f : Stl → Stl) : Hw := { s with dev.stls := Tbl.modify {} n f s.dev.stls }

/-- The stalls of a pen, rising. -/
def Hw.penStalls (s : Hw) (p : Nat) : List Nat := match s.desc p with
  | some d => d.stalls
  | none => []

/-! ## Regions (R176, R177) -/

/-- A task of a frame as one number. -/
def taskKey (f t : Nat) : Nat := f * 2 ^ 24 + t % 2 ^ 24

/-- The key of the region registers of an engine for a task of a frame (R176). -/
def regionKey (eng task : Nat) : Nat := eng + 16 * task

/-- BASE and LIMIT of a region of an engine for a task (its `taskKey`); LIMIT 0 marks it unused. -/
def Hw.region (s : Hw) (n eng task reg : Nat) : Nat × Nat :=
  ((Tbl.get [] (regionKey eng task) (s.stl n).regions)[reg]?).getD (0, 0)

/-- One extent of a command in its stall's scratchpad: region, offset, bytes. -/
structure Ext where
  reg : Nat
  off : Nat
  len : Nat
deriving DecidableEq, Repr

/-- The device address of an extent. -/
def Hw.extAddr (s : Hw) (n eng task : Nat) (x : Ext) : Nat := spdAddr n + (s.region n eng task x.reg).1 + x.off

/-- Whether an extent is in bound (R177). -/
def Hw.inBound (s : Hw) (n eng task : Nat) (x : Ext) : Bool :=
  let l := (s.region n eng task x.reg).2
  l != 0 && decide (x.off + x.len ≤ l)

/-- Whether an extent in bound stays below the unpopulated part of the stall's slot (R178). -/
def Hw.populated (s : Hw) (n eng task : Nat) (x : Ext) : Bool := decide ((s.region n eng task x.reg).1 + x.off + x.len ≤ spdSize)

/-! ## Buffer slots (R179 to R184) -/

/-- READS of a slot for a plan slot: 1 when the plan's table does not list it, 0 for a persistent slot (R180). -/
def Stl.readsOf (t : Stl) (plan slot : Nat) : Nat := Tbl.get 1 (plan * 4096 + slot) t.reads

/-- A buffer slot. -/
def Hw.slot (s : Hw) (n i : Nat) : SlotSt := Tbl.get {} i (s.stl n).slots

/-- A buffer slot changed. -/
def Hw.modSlot (s : Hw) (n i : Nat) (f : SlotSt → SlotSt) : Hw := s.modStl n fun t => { t with slots := Tbl.modify {} i f t.slots }

/-- A schedule fault counted, recorded and logged (R183); `task` is the TASK field of its record. -/
def Hw.slotFault (s : Hw) (n i task : Nat) (ovr : Bool) : Hw :=
  let s := if ovr then s.incStl R.SPD_SLOT_FAULT_OVERRUN n else s.incStl R.SPD_SLOT_FAULT_UNDERRUN n
  let s := ((s.set R.SPD_SLOT_LAST_SLOT n i).set R.SPD_SLOT_LAST_KIND n (if ovr then 1 else 0)).set R.SPD_SLOT_LAST_TASK n task
  s.log (if ovr then E.SLOT_OVERRUN else E.SLOT_UNDERRUN)
    { kind := 0, unit := n, pen := (s.penOf n).getD 0xFF, task := task, slot := i }

/-- A write of slot `i` starts: into a FULL slot that is not persistent it is a SLOT_OVERRUN (R181). A number from 4,096 on names no
slot, as 0xFFFF does, and makes no command malformed (DESIGN CHOICE, log 64). -/
def Hw.writeStart (s : Hw) (n plan i task : Nat) : Hw :=
  if 4096 ≤ i then s
  else if (s.slot n i).full ∧ (s.stl n).readsOf plan i ≠ 0 then
    (s.slotFault n i task true).modSlot n i fun x => { x with pnext := true }
  else s

/-- A write of slot `i` completes: GEN advances, FULL, READS_LEFT takes READS (R181). -/
def Hw.writeDone (s : Hw) (n plan i : Nat) : Hw :=
  if 4096 ≤ i then s
  else
    let k := (s.stl n).readsOf plan i
    s.modSlot n i fun x => { x with gen := (x.gen + 1) % 4, full := true, reads := k }

/-- The start checks of the slots a command reads: the poison they give its outputs, and which reads began FULL (R182). -/
def Hw.readStart (s : Hw) (n task : Nat) : List Nat → Hw × Nat × List Nat
  | [] => (s, 0, [])
  | i :: is =>
    if 4096 ≤ i then s.readStart n task is
    else
      let x := s.slot n i
      if !x.full then
        let (s, m, fs) := (s.slotFault n i task false).readStart n task is
        (s, m ||| 3, fs)
      else if x.pnext then
        let (s, m, fs) := (s.modSlot n i fun x => { x with pnext := false }).readStart n task is
        (s, m ||| 3, i :: fs)
      else
        let (s, m, fs) := s.readStart n task is
        (s, m, i :: fs)

/-- A read that began FULL completes: READS_LEFT falls unless the slot is persistent; at 0 FULL clears (R182). -/
def Hw.readDone (s : Hw) (n plan i : Nat) : Hw :=
  if (s.stl n).readsOf plan i = 0 then s
  else s.modSlot n i fun x => { x with reads := x.reads - 1, full := x.full && decide (1 < x.reads) }

/-! ## Arrival counters (R185, R186) -/

/-- An arrival counter of stall `n`. -/
def Hw.arr (s : Hw) (n a : Nat) : Nat := s.get R.SPD_ARR_COUNT (n * 64 + a)

/-- An arrival counter set (modulo 2^32). -/
def Hw.setArr (s : Hw) (n a v : Nat) : Hw := s.set R.SPD_ARR_COUNT (n * 64 + a) (v % 2 ^ 32)

/-- The condition of a wait: (C − TARGET) mod 2^32 < 2^31. -/
def arrMet (c target : Nat) : Bool := decide ((c + 2 ^ 32 - target % 2 ^ 32) % 2 ^ 32 < 2 ^ 31)

/-- The order of Table 7.1 among the engines' ports. -/
def portOrder (eng : Nat) : Nat :=
  if eng = 0 then 0 else if eng = 2 then 1 else if eng = 1 then 2 else if eng = 3 then 3 else if eng = 4 then 4
  else if eng = 5 then 5 else 6

/-- The waits of a stall that their counters satisfy are taken in the order of Table 7.1, each later one checking the
value already reduced; `fuel` bounds their number. A taken wait leaves the list; a remote one marks its detached slot
ended. -/
def Hw.takeWaits (n : Nat) : Nat → Hw → Hw
  | 0, s => s
  | fuel + 1, s =>
    let t := s.stl n
    match leastBy (fun w : WaitArr => portOrder w.eng) (t.waits.filter fun w => arrMet (s.arr n w.ctr) w.target) with
    | none => s
    | some w =>
      let s := if w.consume then s.setArr n w.ctr (s.arr n w.ctr + 2 ^ 32 - w.target) else s
      takeWaits n fuel (s.modStl n fun t => { t with waits := t.waits.filter (· ≠ w), det := match w.det with
        | some d => Tbl.modify {} d (fun x => { x with waits := 0 }) t.det
        | none => t.det })

/-- A remote write's counter increments, and the waits it satisfies are taken. -/
def Hw.arrive (s : Hw) (n a : Nat) : Hw :=
  let s := s.setArr n a (s.arr n a + 1)
  Hw.takeWaits n (s.stl n).waits.length s

/-! ## Poisoned rows -/

/-- The in-bound rows of an output extent poisoned with `bits`, which replace the poison bits they had (R177, R96). -/
def Run.poisonExt (r : Run) (n eng task : Nat) (bits : Nat) (x : Ext) : Run :=
  let s := r.hw
  let l := (s.region n eng task x.reg).2
  let len := min x.len (l - x.off)
  let a := s.extAddr n eng task x
  if l = 0 ∨ len = 0 then r
  else r.each ((linesOf a len).filter fun ln => decide (ln * 64 < spdAddr n + spdSize)) fun ln r => r.setMark ln bits

/-! ## Zero-fill and stall reset (R172, Table 13.4) -/

/-- A zero-fill starts: rows and marks cleared, slots at reset, counters 0, regions invalid; ZEROING reads 1 until
ZERO_FILL_DONE. -/
def Run.zeroFill (r : Run) (n : Nat) : Run :=
  (r.zero (spdAddr n) spdSize).on fun s =>
    let s := s.modStl n fun t => { t with slots := [], regions := [] }
    let s := s.each (List.range 64) fun a s => s.setArr n a 0
    s.set R.SPD_STATUS_ZEROING n 1

/-- GEN_STATE, GEN_NEXT and GEN_END of a generator follow its binding. -/
def Hw.showGen (s : Hw) (n i : Nat) : Hw :=
  let k := n * 8 + i
  match Tbl.find? i (s.stl n).gens with
  | none => ((s.set R.GEN_STATE_BOUND k 0).set R.GEN_STATE_CONSUMER k 0 |>.set R.GEN_STATE_SHARED k 0 |>.set R.GEN_STATE_FROM_CTX k 0
      |>.set R.GEN_STATE_CTX k 0 |>.set R.GEN_NEXT_NEXT k 0).set R.GEN_END_END k 0
  | some g => ((s.set R.GEN_STATE_BOUND k 1).set R.GEN_STATE_CONSUMER k g.consumer |>.set R.GEN_STATE_SHARED k (if g.shared then 1 else 0)
      |>.set R.GEN_STATE_FROM_CTX k (if g.fromCtx then 1 else 0) |>.set R.GEN_STATE_CTX k g.ctx |>.set R.GEN_NEXT_NEXT k g.next).set R.GEN_END_END k g.stop

/-- A generator's binding released: with FROM_CTX the next unused counter goes back to GEN_COUNTER (0x28) of the context's
record and the record is dirty (R140). -/
def Run.unbindGen (r : Run) (n i : Nat) : Run :=
  match Tbl.find? i (r.hw.stl n).gens with
  | none => r
  | some g =>
    let r := match g.fromCtx, r.hw.penOf n with
      | true, some p => r.recSet p g.ctx [(0x28, leBytes 8 g.next), (0x0D, leBytes 1 (r.recGet p g.ctx 0x0D 1 ||| 1))]
      | _, _ => r
    r.on fun s => (s.modStl n fun t => { t with gens := Tbl.erase i t.gens }).showGen n i

/-- Every generator that a task of a frame bound in a stall released (R140). -/
def Run.unbindTask (r : Run) (n f task : Nat) : Run :=
  r.each ((r.hw.stl n).gens.filter fun kv => kv.2.frame == f && kv.2.task == task) fun kv r => r.unbindGen n kv.1

/-- A stall reset: zero-fill, conversion descriptors invalid, generators released without a write-back (R140), engine
queues emptied, accumulator banks unowned. -/
def Run.resetStall (r : Run) (n : Nat) : Run :=
  let r := r.zeroFill n
  r.on fun s =>
    let s := (s.modStl n fun t => { t with gens := [] }).each (List.range 8) fun i s => s.showGen n i
    let s := s.modStl n fun t => { t with banks := [], pre := none, cvd := [], det := [], waits := [] }
    let s := { s with dev.engs := s.dev.engs.filter fun kv => !(decide (kv.1 < 4096) && kv.1 / 16 == n) }
    let s := s.set R.STL_CVD_VALID_VALID n 0
    let s := (((s.set R.STL_STATUS_TDA_BUSY n 0).set R.STL_STATUS_PREFETCH_VALID n 0).set R.STL_STATUS_TDA_BANK_OWNED n 0).set
      R.STL_STATUS_TDA_BANK_POISON n 0
    ((s.set R.STL_STATUS_LUT_BUSY n 0).set R.STL_STATUS_LUT_BANK_OWNED n 0).set R.STL_STATUS_LUT_BANK_POISON n 0

end Sys2Proof.Machine
end

