-- ==== Sys2Proof/Machine/Engine.lean ====
section
/-! DEFINITION. Which queued command an engine would start next (R56, R91, R191), and what a command of a
stall's engine goes through: malformed commands (R96), slot checks (R181, R182), poison and the requests it reaches. -/

namespace Sys2Proof.Machine

/-! ## Readiness (R56, R91, R191) -/

/-- The accumulator bank a clearing command takes (R91): TDA_MAC, LUT_ACC and TSE_MAC with ACC_OP 0 or 3, and ANP_CHECK
(R159). Banks 0 to 3 are the TDA's, 4 and 5 the table path's, 6 and 7 the TSE's. -/
def clearsBank (cmd : Bytes) : Option Nat :=
  let op := fld cmd 0 1
  let ctl := fld cmd 1 1
  let clr := ctl % 4 == 0 || ctl % 4 == 3
  if op = 0x21 then (if clr then some (bits ctl 2 2) else none)
  else if op = 0x22 then (if clr then some (4 + bits ctl 2 1) else none)
  else if op = 0x23 then (if clr then some (6 + bits ctl 2 1) else none)
  else if op = 0x24 then some (ctl % 4)
  else none

/-- Whether a command is detached (R191): DMA_MOVE with a kind 3 side, CRIB_EMIT, ZLT_PUT, PEG_SYNC, and WAIT_ARRIVALS
with REMOTE. -/
def isDetached (cmd : Bytes) : Bool :=
  let op := fld cmd 0 1
  let ctl := fld cmd 1 1
  (op == 0x12 && (ctl % 4 == 3 || bits ctl 2 2 == 3)) || op == 0x13 || op == 0x14 || op == 0x15 || (op == 0x11 && bit ctl 1)

/-- A free detached slot of a stall that a command may use: slot 7 takes only commands of a U0 queue (R191). -/
def Hw.freeSlot (s : Hw) (n : Nat) (u0 : Bool) : Option Nat :=
  (List.range (if u0 then 8 else 7)).find? fun i => (Tbl.find? i (s.stl n).det).isNone

/-- Whether task `(f, t)` may take bank `b`: no other task owns it. -/
def Hw.bankFree (s : Hw) (n b f t : Nat) : Bool := match (Tbl.get {} b (s.stl n).banks).owner with
  | none => true
  | some o => o == (f, t)

/-- Whether a queued command of stall `n` is ready. -/
def Hw.ready (s : Hw) (n : Nat) (q : QCmd) : Bool :=
  (match clearsBank q.cmd with
    | none => true
    | some b => s.bankFree n b q.frame q.task) &&
  (!(isDetached q.cmd) || (s.freeSlot n q.u0).isSome)

/-- The command an engine starts next: the oldest ready command of the first queue that holds one, in the order U0, lap,
main (R56; log 21). `n` is the stall of a stall's engine. -/
def Hw.nextCmd (s : Hw) (k : Nat) : Option QCmd :=
  let e := s.eng k
  let ok := fun q : QCmd => decide (4096 ≤ k) || s.ready (k / 16) q
  match e.u0.find? ok with
  | some q => some q
  | none => match e.lap.find? ok with
    | some q => some q
    | none => e.main.find? ok

/-! ## The place of a command -/

/-- The command in its place: stall, pen, engine number, plan slot of its frame, frame, task, bind position and queue. -/
structure Cx where
  n     : Nat
  p     : Nat
  eng   : Nat
  plan  : Nat
  frame : Nat
  task  : Nat
  pos   : Option Nat
  u0    : Bool
deriving DecidableEq, Repr

/-- The number of the command's task of its frame. -/
def Cx.tk (c : Cx) : Nat := taskKey c.frame c.task

/-- The number of the plan that an open frame of a pen runs; that of the current frame's slot where the frame is not open. -/
def Hw.slotOf (s : Hw) (p f : Nat) : Nat := match (s.pen p).frames.find? (·.frame == f) with
  | some x => x.key
  | none => match Tbl.find? (s.get R.FSQ_STATE_SLOT_SEL p) (s.pen p).plans with
    | some pl => pl.key
    | none => 0

/-- STL_CTRL as an engine of a stall took it at its last command boundary (R112): bit 0 SKIP_EN, bit 1 PREFETCH_EN. -/
def Hw.ctl (s : Hw) (n eng : Nat) : Nat := Tbl.get 3 eng (s.stl n).ctl

/-- Whether zero-bit skipping is in force for the command (R97, R147). -/
def Hw.skipEn (s : Hw) (c : Cx) : Bool := bit (s.ctl c.n c.eng) 0

/-- Whether tile prefetch is in force (R100). -/
def Hw.prefetchEn (s : Hw) (n : Nat) : Bool := bit (s.ctl n 0) 1

/-- An engine takes STL_CTRL at its command boundary (R112). -/
def Hw.takeCtl (s : Hw) (n eng : Nat) : Hw :=
  s.modStl n fun t => { t with ctl := Tbl.set 3 eng (s.get R.STL_CTRL_SKIP_EN n + 2 * s.get R.STL_CTRL_PREFETCH_EN n) t.ctl }

/-- Whether a pen is in RUN (Table 13.6). -/
def Hw.penRun (s : Hw) (p : Nat) : Bool := s.get R.ERR_PEN_STATE_STATE p == 0

/-- Whether a pen's commands run: the device is up, and the pen is in RUN, or DRAINING towards command boundaries
(Table 13.6). -/
def Hw.penLive (s : Hw) (p : Nat) : Bool := s.mgt.phase == .run && decide (s.get R.ERR_PEN_STATE_STATE p ≤ 1)

/-- The place of a command issued to engine `eng` of stall `n`: none while the stall is in no pen (R33), its pen is in
reset, or it fills its scratchpad with zeros (R172), when no command starts. -/
def Hw.cx (s : Hw) (n eng : Nat) (i : Issue) : Option Cx :=
  match s.penOf n with
  | none => none
  | some p =>
    if s.is R.SPD_STATUS_ZEROING n || !(s.penLive p) then none
    else some ⟨n, p, eng, s.slotOf p i.frame, i.frame, i.task, i.pos.map (·.val), i.u0⟩

/-- Runs a command of a stall's engine where it has a place. -/
def State.runStall (s : State) (n eng : Nat) (i : Issue) (f : Cx → Run → Run) : Host.Outcome State Fault Refusal :=
  s.run fun r => match r.hw.cx n eng i with
    | none => r
    | some c => f c (r.on fun s => (s.upset i.upsets).metPorts n eng i)

/-- A prefetched tile discarded: the TDA starts another command than the one prefetched (R100). -/
def Hw.dropPrefetch (s : Hw) (c : Cx) : Hw := match (s.stl c.n).pre with
  | none => s
  | some _ => ((s.modStl c.n fun t => { t with pre := none }).set R.STL_STATUS_PREFETCH_VALID c.n 0).incStl R.STL_PREFETCH_DISCARD c.n

/-- The TASK field of a record: task index and engine (Table 13.2). -/
def Cx.taskWord (c : Cx) : Nat := c.task % 2 ^ 24 + c.eng * 2 ^ 24

/-- A record logged for a command. -/
def Hw.logCx (s : Hw) (c : Cx) (e : Err) (addr slot detail : Nat) : Hw :=
  s.log e { kind := 0, unit := c.n, pen := c.p, task := c.taskWord, addr := addr, slot := slot, detail := detail }

/-- A crib code made to apply to the requests the command serves. -/
def Hw.blameCx (s : Hw) (c : Cx) (code : Nat) : Hw := s.blame c.p (servedBy c.frame c.pos) code

/-- The requests that the poison bits of an output reach: SCHED gives SCHEDULE_FAULT, POISON alone POISONED_OUTPUT
(R171). -/
def Hw.blamePoison (s : Hw) (c : Cx) (bits : Nat) : Hw :=
  if bit bits 1 then s.blameCx c Crib.SCHEDULE_FAULT else if bit bits 0 then s.blameCx c Crib.POISONED_OUTPUT else s

/-- The output slots of a command that is not executed: write start and completion together (R181). -/
def Hw.passSlots (s : Hw) (c : Cx) (outs : List Nat) : Hw :=
  s.each outs fun i s => (s.writeStart c.n c.plan i c.taskWord).writeDone c.n c.plan i

/-- The last logged event of the engines of Table 4.9. -/
def Hw.lastErr (s : Hw) (c : Cx) (code : Nat) : Hw :=
  if (s.penOf c.n).isSome then (s.set R.STL_LAST_ERR_CODE c.n code).set R.STL_LAST_ERR_TASK c.n (c.task % 2 ^ 24) else s

/-- A malformed command: not executed, logged with its opcode, its output slots complete, its in-bound output rows are
poisoned with POISON and SCHED, and its requests get SCHEDULE_FAULT (R96). The counter is the engine's own. -/
def Run.malformed (r : Run) (c : Cx) (op : Nat) (count : Hw → Hw) (outs : List Ext) (slots : List Nat) : Run :=
  let r := r.on fun s => ((count s).logCx c E.CMD_MALFORMED 0 0xFFFF op).passSlots c slots
  let r := r.each outs fun x r => r.poisonExt c.n c.eng c.tk 3 x
  r.on fun s => s.blameCx c Crib.SCHEDULE_FAULT

/-- What keeps a command from running: its first extent out of bound, by region and offset, and the first unpopulated address that
one in bound reaches (R177, R178, R343). -/
structure ExtFaults where
  bound : Option (Nat × Nat) := none
  unpop : Option Nat := none
deriving DecidableEq, Repr

/-- Whether nothing keeps the command from running. -/
def ExtFaults.none? (x : ExtFaults) : Bool := x.bound.isNone && x.unpop.isNone

/-- The faults of a command's extents. -/
def Hw.extFault (s : Hw) (c : Cx) (xs : List Ext) : ExtFaults :=
  let xs := xs.filter (·.len != 0)
  let ok := fun x => s.inBound c.n c.eng c.tk x
  { bound := (xs.find? fun x => !(ok x)).map fun x => (x.reg, x.off)
    unpop := (xs.find? fun x => ok x && !(s.populated c.n c.eng c.tk x)).map fun x =>
      max (s.extAddr c.n c.eng c.tk x) (spdAddr c.n + spdSize) }

/-- An operand's rows are read: their bit errors are found (R171). -/
def Run.senseExt (r : Run) (c : Cx) (x : Ext) : Run := r.sense (r.hw.extAddr c.n c.eng c.tk x) x.len

/-- The bytes of an extent. -/
def Run.ext (r : Run) (c : Cx) (x : Ext) : Bytes := r.read (r.hw.extAddr c.n c.eng c.tk x) x.len

/-- An extent written with poison bits. -/
def Run.putExt (r : Run) (c : Cx) (reg off : Nat) (bs : Bytes) (m : Nat) : Run :=
  r.store (r.hw.extAddr c.n c.eng c.tk ⟨reg, off, bs.length⟩) bs m

/-- The row extents of an operand: `rows` rows of `len` bytes at a stride. -/
def rowExts (reg off stride rows len : Nat) : List Ext := (List.range rows).map fun t => ⟨reg, off + t * stride, len⟩

end Sys2Proof.Machine
end

