-- ==== Sys2Proof/Machine/Lns.lean ====
section
/-! DEFINITION. Logarithmic numbers (Sections 1 and 2 of 05_lns_formats_outliers.md): words, product, sum, narrowing, and
the conversions between integers and logarithms. -/

namespace Sys2Proof.Machine

/-! ## Rounding -/

/-- `num / den` rounded: to nearest with ties to even, or stochastically with a 16-bit draw (R131, R142). -/
def roundAt (draw : Option Nat) (num : Int) (den : Nat) : Int :=
  let q := num / (den : Int)
  let r := (num % (den : Int)).toNat
  match draw with
  | some d => if d < r * 65536 / den then q + 1 else q
  | none => if 2 * r < den then q else if den < 2 * r then q + 1 else if q % 2 = 0 then q else q + 1

/-! ## Words (R113 to R115) -/

/-- A logarithmic number in the LNS24 grid: sign, and `l` in units of 2^-15. -/
structure Lns where
  neg : Bool
  l   : Int
deriving DecidableEq, Repr

/-- The most negative and the greatest `l` of LNS24. -/
def lnsMin : Int := -4194304
def lnsMax : Int := 4194303

/-- Zero: `l` at its most negative value (R115). -/
def Lns.zero : Lns := ⟨false, lnsMin⟩

/-- Whether a word is read as zero; the reserved negative code is (R115). -/
def Lns.isZero (a : Lns) : Bool := a.l == lnsMin

/-- An LNS16 word, widened exactly (R114). -/
def Lns.of16 (w : Nat) : Lns :=
  let l := signed 15 w
  if l = -16384 then Lns.zero else ⟨bit w 15, l * 64⟩

/-- An LNS24 container read; bits [31:24] are ignored (R114). -/
def Lns.of24 (w : Nat) : Lns :=
  let l := signed 23 w
  if l = lnsMin then Lns.zero else ⟨bit w 23, l⟩

/-- An LNS24 container written (R114). -/
def Lns.to24 (a : Lns) : Nat := if a.isZero then 0x400000 else (if a.neg then 2 ^ 23 else 0) + unsigned 23 a.l

/-- Events of LNS arithmetic: saturations and underflows (R116). -/
structure LnsEv where
  sat : Nat := 0
  ufl : Nat := 0
deriving DecidableEq, Repr

/-- Events joined. -/
def LnsEv.add (a b : LnsEv) : LnsEv := ⟨a.sat + b.sat, a.ufl + b.ufl⟩

/-- A result brought into the LNS24 range: it saturates above and becomes zero below (R116). -/
def Lns.fit (neg : Bool) (l : Int) : Lns × LnsEv :=
  if lnsMax < l then (⟨neg, lnsMax⟩, ⟨1, 0⟩) else if l ≤ lnsMin then (Lns.zero, ⟨0, 1⟩) else (⟨neg, l⟩, {})

/-- Narrowing to an LNS16 word (R116). -/
def Lns.narrow (draw : Option Nat) (a : Lns) : Nat × LnsEv :=
  if a.isZero then (0x4000, {})
  else
    let l := roundAt draw a.l 64
    let s := if a.neg then 0x8000 else 0
    if 16383 < l then (s + 0x3FFF, ⟨1, 0⟩) else if l ≤ -16384 then (0x4000, ⟨0, 1⟩) else (s + unsigned 15 l, {})

/-! ## Product and sum (R117 to R119) -/

/-- The product (R117). -/
def Lns.mul (a b : Lns) : Lns × LnsEv :=
  if a.isZero || b.isZero then (Lns.zero, {}) else Lns.fit (a.neg != b.neg) (a.l + b.l)

/-- Entries 0 to 127 of PHI_ADD, 16 bits each, the lowest first (R119). -/
def phiAdd0 : Nat :=
  0x62DD63126347637C63B263E7641D6452648864BE64F4652A6560659665CC66026639666F66A666DC6713674A678167B867EF6826685D689468CC6903693B697269AA69E26A1A6A526A8A6AC26AFA6B326B6B6BA36BDC6C156C4D6C866CBF6CF86D316D6A6DA46DDD6E176E506E8A6EC36EFD6F376F716FAB6FE5701F705A709470CE71097144717E71B971F4722F726A72A572E1731C7357739373CE740A7446748274BE74FA7536757275AE75EB7627766476A076DD771A7757779477D1780E784B788878C679037941797E79BC79FA7A387A767AB47AF27B307B6F7BAD7BEC7C2A7C697CA87CE77D267D657DA47DE37E227E627EA17EE17F217F607FA07FE0

/-- Entries 128 to 255 of PHI_ADD, 16 bits each, the lowest first (R119). -/
def phiAdd1 : Nat :=
  0x4AF54B204B4B4B764BA14BCC4BF74C224C4E4C794CA44CD04CFB4D274D534D7F4DAB4DD74E034E2F4E5B4E874EB44EE04F0D4F394F664F934FC04FED501A5047507450A150CE50FC51295157518451B251E0520E523C526A529852C652F453235351538053AE53DD540C543B546A549954C854F755265555558555B455E456135643567356A356D3570357335763579457C457F458255856588658B758E85919594A597B59AC59DE5A0F5A405A725AA35AD55B075B395B6B5B9D5BCF5C015C335C665C985CCB5CFD5D305D635D955DC85DFB5E2F5E625E955EC85EFC5F2F5F635F975FCA5FFE60326066609A60CE61036137616B61A061D56209623E627362A8

/-- Entries 256 to 383 of PHI_ADD, 16 bits each, the lowest first (R119). -/
def phiAdd2 : Nat :=
  0x37F8381A383B385D387F38A038C238E439063928394A396C398F39B139D339F63A183A3B3A5E3A803AA33AC63AE93B0C3B2F3B523B753B993BBC3BDF3C033C263C4A3C6E3C913CB53CD93CFD3D213D453D693D8E3DB23DD63DFB3E1F3E443E693E8D3EB23ED73EFC3F213F463F6B3F913FB63FDB40014026404C4071409740BD40E34109412F4155417B41A141C841EE4215423B4262428842AF42D642FD4324434B4372439943C143E8440F4437445E448644AE44D644FD4525454D4575459E45C645EE4617463F4668469046B946E2470A4733475C478547AF47D84801482A4854487D48A748D148FA4924494E497849A249CC49F74A214A4B4A764AA04ACB

/-- Entries 384 to 511 of PHI_ADD, 16 bits each, the lowest first (R119). -/
def phiAdd3 : Nat :=
  0x2942295B2975298F29A929C329DD29F72A112A2B2A452A5F2A792A942AAE2AC82AE32AFE2B182B332B4E2B682B832B9E2BB92BD42BEF2C0A2C252C412C5C2C772C932CAE2CCA2CE52D012D1D2D382D542D702D8C2DA82DC42DE02DFD2E192E352E512E6E2E8A2EA72EC42EE02EFD2F1A2F372F532F702F8D2FAB2FC82FE530023020303D305A3078309530B330D130EF310C312A31483166318431A231C131DF31FD321C323A32593277329632B532D332F233113330334F336E338D33AC33CC33EB340A342A34493469348934A834C834E83508352835483568358835A935C935E9360A362A364B366B368C36AD36CE36EF3710373137523773379437B537D7

/-- Entries 512 to 639 of PHI_ADD, 16 bits each, the lowest first (R119). -/
def phiAdd4 : Nat :=
  0x15CE15EB160816251641165F167C169916B716D516F21710172F174D176B178A17A917C717E61806182518441864188418A418C418E41904192519451966198719A819CA19EB1A0D1A2E1A501A721A951AB71ADA1AFC1B1F1B421B651B891BAC1BD01BF41C181C3C1C611C851CAA1CCF1CF41D191D3E1D641D8A1DB01DD61DFC1E231E491E701E971EBE1EE51F0D1F351F5D1F851FAD1FD51FFE20272050207920A220CC20F62120214A2174219F21C921F4221F224B227622A222CE22FA23262352237F23AC23D9240624342461248F24BD24EC251A2549257825A725D6260626362665269626C626F727272758278A27BB27ED281F2851288328B628E8291B

/-- Entries 640 to 767 of PHI_ADD, 16 bits each, the lowest first (R119). -/
def phiAdd5 : Nat :=
  0xB3A0B490B580B670B770B860B960BA50BB50BC50BD40BE40BF40C040C150C250C350C460C560C670C770C880C990CAA0CBB0CCC0CDD0CEE0D000D110D230D340D460D580D6A0D7C0D8E0DA00DB20DC50DD70DEA0DFC0E0F0E220E350E480E5B0E6E0E810E950EA80EBC0ECF0EE30EF70F0B0F1F0F330F480F5C0F700F850F9A0FAE0FC30FD80FED10031018102D10431059106E1084109A10B010C610DD10F3110A11201137114E1165117C119311AA11C211D911F1120912201238125112691281129A12B212CB12E412FD1316132F13481362137B139513AF13C913E313FD14171432144C14671482149D14B814D314EF150A15261541155D1579159615B2

/-- Entries 768 to 895 of PHI_ADD, 16 bits each, the lowest first (R119). -/
def phiAdd6 : Nat :=
  0xBA00BE00C300C700CB00D000D400D900DD00E200E700EC00F100F700FC01020107010D01130119011F0125012C0132013901400147014E0155015D0164016C0174017C0184018D0195019E01A701B001BA01C401CD01D701E201EC01F70202020D021902240230023C0249025502620270027D028B029902A802B702C602D502E502F50305031603270339034B035D03700383039603AA03BF03D303E903FE0414042B0442045A0472048A04A404BD04D704F2050E0529054605630581059F05BE05DE05FE061F06410664068706AB06CF06F5071B0742076A079307BC07E70812083E086C089A08C908F9092A095C098F09C309F90A2F0A670A9F0AD90B14

/-- Entries 896 to 1023 of PHI_ADD, 16 bits each, the lowest first (R119). -/
def phiAdd7 : Nat :=
  0x100010001000100010001000100010001000100010001000100010001000100010002000200020002000200020002000200020002000200020003000300030003000300030003000400040004000400040004000500050005000500050006000600060006000700070007000800080008000900090009000A000A000B000B000C000C000D000D000E000F000F00100011001100120013001400150016001700180019001A001B001C001D001F0020002100230024002600280029002B002D002F0031003300360038003B003D0040004300460049004C004F00530056005A005E00620067006B00700075007A00800085008B00910098009E00A500AD00B4

/-- Entries 0 to 127 of PHI_SUB, 20 bits each, the lowest first (R119); magnitudes of the negative entries. -/
def phiSub0 : Nat :=
  0xE35D0E4950E5D00E70E0E84E0E9920EAD90EC240ED710EEC20F0160F16D0F2C80F4260F5880F6EE0F8570F9C40FB350FCAA0FE230FFA010121102A610430105BE10750108E710A8310C2310DC810F7311122112D6114901164F11813119DD11BAD11D8311F5F1214112329125181270D1290912B0C12D1612F27131401336013588137B8139F113C3213E7B140CE1432A1458F147FF14A7814CFB14F8915223154C71577715A3415CFC15FD2162B5165A6168A516BB316ED0171FD1753A1788917BEA17F5C182E31867D18A2C18DF1191CD195C1199CE19DF41A2371A6961AB131AFB01B46F1B9521BE591C3891C8E21CE691D41F1DA081E0271E6801ED181F3F31FB172028A20A522127821B042240122D7A2377E2421C24D68259792666C2746228389294162A6512BA9C2D1792EBA630A4032F0E35D3739B1A3F92F4C3CF

/-- Entries 128 to 255 of PHI_SUB, 20 bits each, the lowest first (R119); magnitudes of the negative entries. -/
def phiSub1 : Nat :=
  0x8040080C108142081C408247082CB0834F083D40845A084E008567085EF08678087020878C08817088A30892F089BD08A4B08ADA08B6A08BFB08C8C08D1F08DB208E4608EDB08F7109008090A009138091D20926C09307093A409441094DF0957E0961E096BF0976109804098A80994E099F409A9B09B4309BEC09C9709D4209DEE09E9C09F4B09FFB0A0AC0A15E0A2110A2C50A37B0A4320A4EA0A5A30A65E0A7190A7D60A8950A9540AA150AAD70AB9B0AC600AD260ADEE0AEB70AF810B04D0B11A0B1E90B2B90B38B0B45E0B5320B6090B6E00B7BA0B8950B9710BA500BB2F0BC110BCF40BDD90BEC00BFA90C0930C17F0C26D0C35C0C44E0C5420C6370C72F0C8280C9230CA210CB200CC220CD250CE2B0CF330D03E0D14A0D2590D36A0D47D0D5930D6AB0D7C50D8E20DA020DB240DC490DD700DE9A0DFC70E0F60E228

/-- Entries 256 to 383 of PHI_SUB, 20 bits each, the lowest first (R119); magnitudes of the negative entries. -/
def phiSub2 : Nat :=
  0x50B3050F90514005187051CE052160525D052A5052EE0533705380053C9054130545D054A7054F10553C05588055D30561F0566B056B805705057520579F057ED0583C0588A058D90592805978059C805A1805A6905ABA05B0B05B5D05BAF05C0205C5505CA805CFB05D4F05DA405DF805E4E05EA305EF905F4F05FA605FFD06054060AC061040615D061B6062100626A062C40631F0637A063D5064310648E064EB06548065A60660406662066C10672106781067E106842068A40690506968069CA06A2E06A9106AF606B5A06BBF06C2506C8B06CF206D5906DC106E2906E9206EFB06F6406FCF07039070A5071110717D071EA07257072C507334073A30741307483074F407565075D70764A076BD07731077A50781A07890079060797D079F407A6C07AE507B5E07BD807C5307CCE07D4A07DC707E4407EC207F4107FC0

/-- Entries 384 to 511 of PHI_SUB, 20 bits each, the lowest first (R119); magnitudes of the negative entries. -/
def phiSub3 : Nat :=
  0x3535035600358B035B6035E20360D036390366403690036BC036E903715037420376E0379B037C8037F503823038500387E038AC038DA03908039370396503994039C3039F203A2103A5103A8003AB003AE003B1003B4103B7103BA203BD303C0403C3503C6603C9803CCA03CFC03D2E03D6003D9303DC603DF903E2C03E5F03E9303EC603EFA03F2E03F6303F9703FCC04001040360406B040A1040D70410D0414304179041B0041E60421D042550428C042C4042FC043340436C043A5043DD044160444F04489044C2044FC0453604571045AB045E6046210465C04698046D30470F0474C04788047C5048020483F0487C048BA048F80493604974049B3049F204A3104A7004AB004AF004B3004B7104BB104BF204C3404C7504CB704CF904D3B04D7E04DC104E0404E4704E8B04ECF04F1304F5804F9D04FE2050270506D

/-- Entries 512 to 639 of PHI_SUB, 20 bits each, the lowest first (R119); magnitudes of the negative entries. -/
def phiSub4 : Nat :=
  0x18BB018E0019050192A0194F019750199B019C1019E801A0E01A3501A5D01A8401AAC01AD301AFC01B2401B4D01B7601B9F01BC801BF201C1C01C4601C7101C9B01CC601CF201D1D01D4901D7501DA201DCE01DFB01E2901E5601E8401EB201EE101F0F01F3E01F6E01F9D01FCD01FFE0202E0205F02090020C2020F402126021580218B021BE021F2022260225A0228E022C3022F80232E023640239A023D1024080243F02477024AF024E7025200255902593025CD02607026420267D026B9026F4027310276D027AB027E80282602865028A3028E30292202962029A3029E402A2502A6702AA902AEC02B2F02B7302BB702BFC02C4102C8602CCC02D1302D5A02DA102DEA02E3202E7B02EC502F0F02F5902FA402FF00303C03089030D60312403172031C10321003260032B10330203354033A6033F90344D034A1034F5

/-- Entries 640 to 767 of PHI_SUB, 20 bits each, the lowest first (R119); magnitudes of the negative entries. -/
def phiSub5 : Nat :=
  0xBF400C0500C1600C2700C3900C4A00C5C00C6E00C8000C9200CA400CB600CC800CDB00CED00D0000D1200D2500D3800D4B00D5E00D7200D8500D9900DAC00DC000DD400DE800DFC00E1000E2400E3900E4D00E6200E7700E8C00EA100EB600ECB00EE100EF600F0C00F2200F3800F4E00F6400F7A00F9100FA700FBE00FD500FEC010030101A0103201049010610107901091010A9010C1010D9010F20110A011230113C011550116F01188011A2011BB011D5011EF01209012240123E01259012740128F012AA012C5012E1012FC0131801334013500136D01389013A6013C2013DF013FD0141A01438014550147301491014AF014CE014EC0150B0152A015490156901588015A8015C8015E801609016290164A0166B0168C016AD016CF016F10171301735017570177A0179D017C0017E3018060182A0184E0187201896

/-- Entries 768 to 895 of PHI_SUB, 20 bits each, the lowest first (R119); magnitudes of the negative entries. -/
def phiSub6 : Nat :=
  0xBB000BF000C3000C8000CC000D0000D5000DA000DF000E3000E8000ED000F3000F8000FD00103001090010F001140011B00121001270012E001340013B001420014900150001580015F001670016F001770017F001870019000199001A2001AB001B4001BE001C8001D2001DC001E7001F1001FC00208002130021F0022B0023700243002500025D0026A002780028600294002A3002B2002C1002D1002E0002F100301003120032400335003480035A0036D0038000394003A9003BD003D2003E8003FE004150042C004440045C004750048E004A8004C2004DD004F900515005320054F0056E0058D005AC005CC005EE0060F0063200655006790069E006C4006EB007120073B007640078E007B9007E6008130084100871008A1008D300905009390096E009A4009DC00A1500A4F00A8A00AC700B0500B4500B8600BC9

/-- Entries 896 to 1023 of PHI_SUB, 20 bits each, the lowest first (R119); magnitudes of the negative entries. -/
def phiSub7 : Nat :=
  0x100001000010000100001000010000100001000010000100001000010000100001000010000100001000020000200002000020000200002000020000200002000020000200002000030000300003000030000300003000030000400004000040000400004000040000500005000050000500005000060000600006000060000700007000070000800008000080000900009000090000A0000A0000B0000B0000C0000C0000D0000D0000E0000F0000F00010000110001100012000130001400015000160001700018000190001A0001B0001C0001D0001F000200002100023000240002600028000290002B0002D0002F000310003300036000380003B0003D000400004300046000490004C0004F00053000570005A0005E00063000670006C00070000750007B00080000860008C00092000980009F000A6000AD000B5

/-- Which of the eight parts of a correction table holds an entry. -/
def phiPart (t0 t1 t2 t3 t4 t5 t6 t7 : Nat) (i : Nat) : Nat :=
  match i / 128 with
  | 0 => t0 | 1 => t1 | 2 => t2 | 3 => t3 | 4 => t4 | 5 => t5 | 6 => t6 | _ => t7

/-- PHI_ADD[i] (R119). -/
def phiAdd (i : Nat) : Int :=
  (bits (phiPart phiAdd0 phiAdd1 phiAdd2 phiAdd3 phiAdd4 phiAdd5 phiAdd6 phiAdd7 i) (16 * (i % 128)) 16 : Nat)

/-- PHI_SUB[i] (R119). -/
def phiSub (i : Nat) : Int :=
  -(bits (phiPart phiSub0 phiSub1 phiSub2 phiSub3 phiSub4 phiSub5 phiSub6 phiSub7 i) (20 * (i % 128)) 20 : Nat)

/-- phi_index of a difference below 16, in units of 2^-15 (Table 5.2). -/
def phiIndex (d : Nat) : Nat :=
  if d < 2 * 32768 then d / 128 else if d < 4 * 32768 then 512 + (d - 2 * 32768) / 256
  else if d < 8 * 32768 then 768 + (d - 4 * 32768) / 1024 else 896 + (d - 8 * 32768) / 2048

/-- The sum (R118). -/
def Lns.add (a b : Lns) : Lns × LnsEv :=
  if a.isZero then (b, {}) else if b.isZero then (a, {})
  else
    let (a, b) := if a.l < b.l then (b, a) else (a, b)
    let d := (a.l - b.l).toNat
    if 16 * 32768 ≤ d then (a, {})
    else if a.neg = b.neg then Lns.fit a.neg (a.l + phiAdd (phiIndex d))
    else if d = 0 then (Lns.zero, {})
    else Lns.fit a.neg (a.l + phiSub (phiIndex d))

/-! ## Trees of sums (Section 3, R124) -/

/-- One level of a tree: neighbours are summed, a last one without a neighbour goes up as it is (log 18). -/
def lnsPairs : List Lns → List Lns × LnsEv
  | a :: b :: xs =>
    let (c, e) := a.add b
    let (cs, f) := lnsPairs xs
    (c :: cs, e.add f)
  | xs => (xs, {})

/-- A tree of at most `fuel` levels. -/
def lnsTree : Nat → List Lns → Lns × LnsEv
  | _, [] => (Lns.zero, {})
  | _, [a] => (a, {})
  | 0, a :: _ => (a, {})
  | fuel + 1, xs =>
    let (ys, e) := lnsPairs xs
    let (r, f) := lnsTree fuel ys
    (r, e.add f)

/-- The stack of partial sums, newest first with its weight: two partials of equal weight merge as soon as both exist. -/
def lnsPush : List (Nat × Lns) → Nat → Lns → List (Nat × Lns) × LnsEv
  | (v, y) :: st, w, x =>
    if v = w then
      let (z, e) := y.add x
      let (st, f) := lnsPush st (w + 1) z
      (st, e.add f)
    else ((w, x) :: (v, y) :: st, {})
  | [], w, x => ([(w, x)], {})

/-- The sum of an element's products: trees of 64, their results merged like a binary counter, and the remaining partials
merged from the newest on (Section 3; log 18). `fuel` bounds the trees. -/
def lnsReduce : Nat → List (Nat × Lns) → List Lns → Lns × LnsEv
  | fuel + 1, st, x :: xs =>
    let (t, e) := lnsTree 6 ((x :: xs).take 64)
    let (st, f) := lnsPush st 0 t
    let (r, g) := lnsReduce fuel st ((x :: xs).drop 64)
    (r, (e.add f).add g)
  | _, st, _ => match st with
    | [] => (Lns.zero, {})
    | (_, y) :: st => st.foldl (fun (a : Lns × LnsEv) v =>
        let (z, e) := v.2.add a.1
        (z, e.add a.2)) (y, {})

/-! ## Between integers and logarithms -/

/-- 2^(2^-j) for j = 1 to 15, in units of 2^-64, by repeated square roots of 2. -/
def pow2Root : Nat → Nat
  | 1 => 0x16A09E667F3BCC908
  | 2 => 0x1306FE0A31B7152DE
  | 3 => 0x1172B83C7D517ADCD
  | 4 => 0x10B5586CF9890F629
  | 5 => 0x1059B0D31585743AE
  | 6 => 0x102C9A3E778060EE6
  | 7 => 0x10163DA9FB33356D8
  | 8 => 0x100B1AFA5ABCBED61
  | 9 => 0x10058C86DA1C09EA1
  | 10 => 0x1002C605E2E8CEC50
  | 11 => 0x100162F3904051FA1
  | 12 => 0x1000B175EFFDC76BA
  | 13 => 0x100058BA01FB9F96D
  | 14 => 0x10002C5CC37DA9491
  | 15 => 0x1000162E525EE0547
  | _ => 0x10000000000000000

/-- 2^(l / 2^15) in units of 2^-64, to about 60 bits. -/
def pow2fix (l : Int) : Nat :=
  let n := l / 32768
  let f := (l % 32768).toNat
  let m := (List.range 15).foldl (fun m j => if bit f (14 - j) then m * pow2Root (j + 1) / 2 ^ 64 else m) (2 ^ 64)
  if 0 ≤ n then m <<< n.toNat else m >>> (-n).toNat

/-- The fraction of log2 of a mantissa in [1, 2) (units of 2^-64), `n` bits, by repeated squaring. -/
def log2Frac : Nat → Nat → Nat → Nat
  | 0, acc, _ => acc
  | n + 1, acc, m =>
    let q := m * m / 2 ^ 64
    if 2 ^ 65 ≤ q then log2Frac n (2 * acc + 1) (q / 2) else log2Frac n (2 * acc) q

/-- log2 of a positive number, in units of 2^-15, rounded down. -/
def log2fix (v : Nat) : Nat :=
  let k := Nat.log2 v
  k * 32768 + log2Frac 15 0 (if k ≤ 64 then v <<< (64 - k) else v >>> (k - 64))

end Sys2Proof.Machine
end

