-- ==== Sys2Proof/Machine/Convert.lean ====
section
/-! DEFINITION. Output conversions (Sections 4 and 5 of 05_lns_formats_outliers.md): conversion descriptors, range alarms,
draws from generators, and the writing of output rows in every OUT_FMT. -/

namespace Sys2Proof.Machine

/-! ## Range alarms and LNS events (R116, R133) -/

/-- A bit of the stall's range alarm set, with the frame (R133). -/
def Hw.alarm (s : Hw) (n t : Nat) : Hw :=
  if (s.penOf n).isSome then
    (s.set R.STL_RANGE_ALARM_ALARM n (s.get R.STL_RANGE_ALARM_ALARM n ||| 2 ^ t)).set R.STL_ALARM_FRAME_FRAME n s.clk.frame
  else s

/-- LNS saturations and underflows counted; a saturation raises the alarm of tensor `t`. -/
def Hw.lnsEvents (s : Hw) (n t : Nat) (e : LnsEv) : Hw :=
  let s := (s.incStl R.STL_LNS_EVT_LNS_SAT n e.sat).incStl R.STL_LNS_EVT_LNS_UFL n e.ufl
  if e.sat = 0 then s else s.alarm n t

/-! ## Conversion descriptors (Table 5.7) -/

/-- A conversion descriptor. -/
structure Cvd where
  rescale : Nat
  bexp    : Nat
  cap     : Nat
  tensor  : Nat
  sr      : Bool
  capture : Bool
  gen     : Nat
  aux     : Nat
  oBase   : Nat
  shift   : Nat
  expOff  : Nat
  ospOff  : Nat
  seg     : Nat
deriving DecidableEq, Repr

/-- A descriptor read from its 32 bytes. -/
def Cvd.ofBytes (b : Bytes) : Cvd :=
  { rescale := fld b 0 2, bexp := fld b 2 1, cap := fld b 3 1, tensor := fld b 4 1, sr := bit (fld b 5 1) 0,
    capture := bit (fld b 5 1) 1, gen := fld b 6 1, aux := fld b 7 1, oBase := fld b 8 4, shift := fld b 0xC 1,
    expOff := fld b 0x10 4, ospOff := fld b 0x14 4, seg := fld b 0x18 4 }

/-- Whether a descriptor is rejected as malformed: a reserved field, or one of the ranges that R129 names. -/
def cvdBad (b : Bytes) : Bool :=
  let d := Cvd.ofBytes b
  !(zeroAt b 0x0D 3) || !(zeroAt b 0x1C 4) || decide (3 < fld b 5 1) || decide (15 < d.cap) || decide (62 < d.tensor) ||
    decide (d.shift < 6) || decide (20 < d.shift) || decide (255 < d.bexp + d.cap)

/-- The descriptor an OUT_FMT names, if it is valid. -/
def Hw.cvd (s : Hw) (n fmt : Nat) : Option Cvd := (Tbl.find? (fmt / 16) (s.stl n).cvd).map Cvd.ofBytes

/-- The range-alarm bit of a command's output tensor: bit 63 for raw outputs (R133). -/
def Hw.tensorOf (s : Hw) (n fmt : Nat) : Nat :=
  if fmt % 16 = 0 then 63 else match s.cvd n fmt with
    | some d => d.tensor
    | none => 63

/-- Whether an OUT_FMT makes a command malformed: reserved code, unloaded descriptor, or the placement rules of R130 for
block-scaled formats. `cols` is the column count. -/
def Hw.fmtBad (s : Hw) (n fmt oOff oStride cols : Nat) : Bool :=
  let f := fmt % 16
  if 4 < f then true
  else if f = 0 then fmt / 16 != 0
  else match s.cvd n fmt with
    | none => true
    | some d =>
      if f = 1 ∨ f = 2 then
        let at0 := (oOff - d.oBase) % 2 ^ d.shift
        let col0 := if f = 2 then 2 * at0 else at0
        oStride != 2 ^ d.shift || decide (oOff < d.oBase) || col0 % 32 != 0 || cols % 32 != 0
      else false

/-- Bytes of `cols` outputs of one row (column w of Table 5.6). -/
def fmtBytes (fmt cols : Nat) : Nat :=
  match fmt % 16 with
  | 0 => 4 * cols
  | 1 => cols
  | 2 => (cols + 1) / 2
  | _ => 2 * cols

/-- First tensor row and column of a block-scaled command (R130). -/
def Cvd.origin (d : Cvd) (fmt oOff : Nat) : Nat × Nat :=
  let x := oOff - d.oBase
  (x / 2 ^ d.shift, (x % 2 ^ d.shift) * (if fmt % 16 = 2 then 2 else 1))

/-- Offset of the block exponent and of the outlier slot of column `c`, a multiple of 32, of tensor row `r` (R130, R134). -/
def Cvd.expAt (d : Cvd) (r c : Nat) : Nat := d.expOff + c / 2048 * d.seg + 64 * r + c % 2048 / 32
def Cvd.slotAt (d : Cvd) (r c : Nat) : Nat := d.ospOff + c / 2048 * d.seg + 256 * r + 4 * (c % 2048 / 32)

/-- The output extents of a command of `rows` rows of `cols` columns: the rows, the block exponents and the outlier slots
it owns. -/
def Hw.outExts (s : Hw) (n fmt reg oOff oStride rows cols : Nat) : List Ext :=
  let main := (List.range rows).map fun t => (⟨reg, oOff + t * oStride, fmtBytes fmt cols⟩ : Ext)
  match s.cvd n fmt, fmt % 16 == 1 || fmt % 16 == 2 with
  | some d, true =>
    let (r0, c0) := d.origin fmt oOff
    main ++ (List.range rows).flatMap fun t => (List.range (cols / 32)).flatMap fun b =>
      ⟨d.aux, d.expAt (r0 + t) (c0 + 32 * b), 1⟩ ::
        (if d.capture then [⟨d.aux, d.slotAt (r0 + t) (c0 + 32 * b), 4⟩] else [])
  | _, _ => main

/-! ## Generators (R137, R141, R142) -/

/-- The generator consumer code of an engine (Table 5.8). -/
def consumerOf (eng : Nat) : Nat := if eng = 0 then 0 else if eng = 1 then 1 else if eng = 2 then 2 else if eng = 3 then 3 else if eng = 5 then 5 else 4

/-- Whether generator `g` of a stall serves an engine. -/
def Hw.genOk (s : Hw) (n g eng : Nat) : Bool := match Tbl.find? g (s.stl n).gens with
  | some b => b.consumer == consumerOf eng
  | none => false

/-- A command that draws from a generator it may not use: not executed (R141). -/
def Run.genUnbound (r : Run) (c : Cx) (g : Nat) (outs : List Ext) (slots : List Nat) : Run :=
  let r := r.on fun s =>
    (((s.incStl R.STL_LNU_FAULT_GEN_FAULT c.n).inc R.GEN_FAULT_COUNT_UNBOUND c.p).logCx c E.GEN_UNBOUND 0 0xFFFF g).passSlots c slots
  let r := r.each outs fun x r => r.poisonExt c.n c.eng c.tk 3 x
  r.on fun s => s.blameCx c Crib.SCHEDULE_FAULT

/-- `k` blocks drawn: those within the range; a draw beyond it is GEN_RANGE, yields free values and poisons the output
(R141; log 19). Answers the blocks, the hardware and the poison. -/
def Hw.drawBlocks (s : Hw) (c : Cx) (g k : Nat) : List Nat × Hw × Nat :=
  match Tbl.find? g (s.stl c.n).gens with
  | none => ([], s, 0)
  | some b =>
    let m := min k (b.stop - b.next)
    let good := (List.range m).map fun i => leNat (genBlock b.key (b.next + i))
    let s := ((s.modStl c.n fun t => { t with gens := Tbl.insert g { b with next := b.next + m } t.gens }).showGen c.n g).inc
      R.GEN_DRAWS_DRAWS (c.n * 8 + g) m
    if m = k then (good, s, 0)
    else
      let (free, s) := (List.range (k - m)).foldl (fun (a : List Nat × Hw) _ =>
        let (v, s) := a.2.draw
        (a.1 ++ [v % 2 ^ 128], s)) ([], s)
      (good ++ free, (((s.incStl R.STL_LNU_FAULT_GEN_FAULT c.n).inc R.GEN_FAULT_COUNT_RANGE c.p).logCx c E.GEN_RANGE 0 0xFFFF g), 1)

/-- Draw `i` of the blocks: 16 bits (R142). -/
def draw16 (blocks : List Nat) (i : Nat) : Nat := bits ((blocks[i / 8]?).getD 0) (16 * (i % 8)) 16

/-! ## Values and their scaling (R132) -/

/-- A value at the output edge: an integer accumulator or an LNS24 number of the LNU. -/
inductive Val where
  | int (x : Int)
  | log (x : Lns)
deriving DecidableEq, Repr

/-- A value × RESCALE, in units of 2^-64: zero where either is zero; else the exact magnitude with a relative error of at
most 2^-12, which one the spec leaves open (R132; log 20). `down` is a power of two taken off. The exact magnitude is formed to 2^-31 of
itself, which the band leaves room for; values below 2^-50 round to 0 whatever their error. -/
def Val.scaled (v : Val) (rescale down : Nat) : Int :=
  let k := Lns.of16 rescale
  let near := fun (e : Nat) (x y : Int) =>
    let band := e / 4096 - e / 2 ^ 30 - 1
    (e - band) + Config.pick 1 x y % (2 * band + 1)
  match v with
  | .int x =>
    if x = 0 ∨ k.isZero then 0
    else
      let e := x.natAbs * pow2fix (k.l - 32768 * (down : Int))
      let m : Nat := near e x (rescale * 256 + down : Nat)
      if decide (x < 0) != k.neg then -(m : Int) else m
  | .log a =>
    if a.isZero || k.isZero then 0
    else
      let e := pow2fix (a.l + k.l - 32768 * (down : Int))
      let m : Nat := near e a.l (rescale * 256 + down : Nat)
      if a.neg != k.neg then -(m : Int) else m

/-- A computed value in units of 2^-64 as an LNS16 word, rounded to nearest (R116, R131): only a power of two has an exact logarithm, so
one that the 15 bits of `log2fix` show half way between two words lies above the middle. -/
def lns16Of (v : Int) : Nat × LnsEv :=
  if v = 0 then Lns.zero.narrow none
  else
    let l := (log2fix v.natAbs : Int) - 64 * 32768
    Lns.narrow none ⟨decide (v < 0), if l % 64 = 32 then l + 1 else l⟩

/-- A value × RESCALE as a logarithm: the product of LNS words is exact (R117). That of an integer is any number of the LNS24 grid within a
relative error of 2^-12, which is 11.5 steps of the grid (R132; log 20); `log2fix` rounds down. -/
def Val.scaledLns (v : Val) (rescale : Nat) : Lns × LnsEv :=
  let k := Lns.of16 rescale
  match v with
  | .int x =>
    if x = 0 ∨ k.isZero then (Lns.zero, {})
    else Lns.fit (decide (x < 0) != k.neg) ((log2fix x.natAbs : Int) + k.l - 10 + (Config.pick 45 x rescale % 22 : Nat))
  | .log a => a.mul k

/-! ## Blocks (R131, R134, R135) -/

/-- The events of a conversion: clamps without capture, outliers without a slot, slots used, LNS events. -/
structure ConvEv where
  clamp : Nat := 0
  ovr  : Nat := 0
  used  : Nat := 0
  lns   : LnsEv := {}
deriving DecidableEq, Repr

/-- Events joined. -/
def ConvEv.add (a b : ConvEv) : ConvEv := ⟨a.clamp + b.clamp, a.ovr + b.ovr, a.used + b.used, a.lns.add b.lns⟩

/-- Whether |v| at shift `s` rounds above qmax. -/
def tooBig (qmax s : Nat) (v : Int) : Bool := decide ((qmax : Int) < roundAt none v.natAbs (2 ^ (64 + s)))

/-- The block shift: the smallest at which every value that is no outlier fits; `fuel` counts the shifts left. -/
def blockShift (qmax : Nat) (vs : List Int) : Nat → Nat → Nat
  | 0, s => s
  | fuel + 1, s => if vs.all fun v => !(tooBig qmax s v) then s else blockShift qmax vs fuel (s + 1)

/-- One block of 32 values of a row: its narrow values, its exponent, the columns and words of the outliers that take a
slot (at most `free` of them), and its events. `draws` gives each value its rounding draw. -/
def convBlock (d : Cvd) (qmax free col : Nat) (vs : List Int) (draws : List (Option Nat)) : List Int × Nat × List Nat × ConvEv :=
  let out := vs.map (tooBig qmax d.cap)
  let s := blockShift qmax ((vs.zip out).filterMap fun x => if x.2 then none else some x.1) d.cap 0
  let r := ((vs.zip out).zip (draws.zip (List.range vs.length))).foldl
    (fun (a : List Int × List Nat × ConvEv) x =>
      let ((v, o), (dr, i)) := x
      if o then
        if d.capture ∧ a.2.1.length < free then
          let (w, e) := lns16Of v
          (a.1 ++ [0], a.2.1 ++ [2 ^ 31 + ((col + i) % 2048) * 65536 + w], a.2.2.add { used := 1, lns := e })
        else
          let q : Int := if v < 0 then -(qmax : Int) else qmax
          (a.1 ++ [q], a.2.1, a.2.2.add (if d.capture then { ovr := 1 } else { clamp := 1 }))
      else
        let q := roundAt dr v (2 ^ (64 + s))
        (a.1 ++ [max (-(qmax : Int)) (min (qmax : Int) q)], a.2.1, a.2.2))
    ([], [], {})
  (r.1, d.bexp + s, r.2.1, r.2.2)

/-- Values packed at 8 or 4 bits each. -/
def packNarrow (four : Bool) : List Int → Bytes
  | [] => []
  | a :: b :: xs => if four then BitVec.ofNat 8 (unsigned 4 a + 16 * unsigned 4 b) :: packNarrow four xs
      else BitVec.ofNat 8 (unsigned 8 a) :: BitVec.ofNat 8 (unsigned 8 b) :: packNarrow four xs
  | [a] => [BitVec.ofNat 8 (if four then unsigned 4 a else unsigned 8 a)]

/-- The blocks of one segment of a row converted in turn: bytes of the row, exponents with their columns, slot words used, events. -/
def convRow (d : Cvd) (qmax slots : Nat) : List (List Int × List (Option Nat)) → Nat → Nat → List Int × List (Nat × Nat) × List Nat × ConvEv
  | [], _, _ => ([], [], [], {})
  | (vs, drs) :: bs, col, used =>
    let (q, e, ws, ev) := convBlock d qmax (slots - used) col vs drs
    let (qs, es, wss, ev') := convRow d qmax slots bs (col + 32) (used + ws.length)
    (q ++ qs, (col, e) :: es, ws ++ wss, ev.add ev')

/-- The blocks of a row from column `col` on converted segment by segment: a segment's outliers take the slots that the command owns
there, one for each block, and slots without one are 0 (R134). Answers the slot words in the order of the blocks. -/
def convSegs (d : Cvd) (qmax : Nat) : Nat → List (List Int × List (Option Nat)) → Nat → List Int × List (Nat × Nat) × List Nat × ConvEv
  | 0, _, _ => ([], [], [], {})
  | _, [], _ => ([], [], [], {})
  | fuel + 1, bs, col =>
    let k := (2048 - col % 2048) / 32
    let here := bs.take k
    let (q, es, ws, ev) := convRow d qmax here.length here col 0
    let (qs, ess, wss, ev') := convSegs d qmax fuel (bs.drop k) (col + 32 * k)
    (q ++ qs, es ++ ess, ws ++ List.replicate (here.length - ws.length) 0 ++ wss, ev.add ev')

/-- A list cut into pieces of `k`; `fuel` bounds their number. -/
def chunks {α : Type} (k : Nat) : Nat → List α → List (List α)
  | 0, _ => []
  | _, [] => []
  | fuel + 1, xs => xs.take k :: chunks k fuel (xs.drop k)

/-! ## Output rows -/

/-- One row of values written in its format with poison `m`; `base` is the number of the row's first value among the
command's draws. Answers the run and the events. -/
def Run.putRow (r : Run) (c : Cx) (fmt reg off row : Nat) (d : Cvd) (blocks : List Nat) (base : Nat) (vs : List Val) (m : Nat) : Run × ConvEv :=
  let dr := fun i => if d.sr then some (draw16 blocks (base + i)) else none
  let iv := vs.zip (List.range vs.length)
  match fmt % 16 with
  | 0 => (r.putExt c reg off (vs.flatMap fun v => match v with
      | .int x => leBytes 4 (unsigned 32 x)
      | .log x => leBytes 4 x.to24) m, {})
  | 3 =>
    let (bs, e) := iv.foldl (fun (a : Bytes × LnsEv) x =>
      let (l, e1) := x.1.scaledLns d.rescale
      let (w, e2) := l.narrow (dr x.2)
      (a.1 ++ leBytes 2 w, (a.2.add e1).add e2)) ([], {})
    (r.putExt c reg off bs m, { lns := e })
  | 4 =>
    let bs := iv.flatMap fun x =>
      leBytes 2 (unsigned 16 (max (-32767) (min 32767 (roundAt (dr x.2) (x.1.scaled d.rescale 0) (2 ^ 64)))))
    (r.putExt c reg off bs m, {})
  | f =>
    let four := f == 2
    let col0 := (d.origin fmt off).2
    let cols := (List.range (vs.length / 32)).map fun b => col0 + 32 * b
    let bl := (chunks 32 vs.length (iv.map fun x => (x.1.scaled d.rescale d.bexp, dr x.2))).map fun b => (b.map (·.1), b.map (·.2))
    let (q, es, ws, ev) := convSegs d (if four then 7 else 127) bl.length bl col0
    let r := r.putExt c reg off (packNarrow four q) m
    let r := r.each es fun x r => r.putExt c d.aux (d.expAt row x.1) [BitVec.ofNat 8 x.2] m
    let r := if d.capture then r.each (cols.zip ws) fun x r => r.putExt c d.aux (d.slotAt row x.1) (leBytes 4 x.2) m else r
    (r, ev)

/-- A descriptor for raw outputs, of which nothing is used. -/
def Cvd.raw : Cvd := ⟨0, 0, 0, 63, false, false, 0, 0, 0, 6, 0, 0, 64⟩

/-- The output rows of a command written in its format: draws for every value under stochastic rounding (R142), then row by
row; events counted and alarms raised. Answers the run and the poison of the output. -/
def Run.putRows (r : Run) (c : Cx) (fmt reg oOff oStride : Nat) (rows : List (List Val)) (m : Nat) : Run × Nat :=
  let d := if fmt % 16 = 0 then Cvd.raw else (r.hw.cvd c.n fmt).getD Cvd.raw
  let n := (rows.map (·.length)).sum
  let (blocks, s, bad) := if d.sr then r.hw.drawBlocks c d.gen ((n + 7) / 8) else ([], r.hw, 0)
  let m := m ||| bad
  let r0 := (d.origin fmt oOff).1
  let (r, _, ev) := (rows.zip (List.range rows.length)).foldl (fun (a : Run × Nat × ConvEv) x =>
      let (r, e) := a.1.putRow c fmt reg (oOff + x.2 * oStride) (r0 + x.2) d blocks a.2.1 x.1 m
      (r, a.2.1 + x.1.length, a.2.2.add e)) ({ r with hw := s }, 0, {})
  let r := r.on fun s =>
    let s := ((s.incStl R.STL_NARROW_CONV_SAT c.n ev.clamp).incStl R.STL_NARROW_OSP_OVERFLOW c.n ev.ovr).incStl R.STL_OSP_USED c.n ev.used
    let s := s.lnsEvents c.n d.tensor ev.lns
    if ev.clamp + ev.ovr = 0 then s else s.alarm c.n d.tensor
  (r, m)

/-- The generator an OUT_FMT's descriptor draws from, if it rounds stochastically. -/
def Hw.fmtGen (s : Hw) (n fmt : Nat) : Option Nat :=
  if fmt % 16 = 0 then none else match s.cvd n fmt with
    | some d => if d.sr then some d.gen else none
    | none => none

end Sys2Proof.Machine
end

