-- ==== Sys2Proof/Machine/Hub.lean ====
section
/-! DEFINITION. What reaches memory from inside the module: a pen's ranges (R33, R188), reads and writes of HBM and loft
with retired pages (R206, R211), writes into a stall's scratchpad from outside it (R172, R184, R185), and the place of a
hub engine's command. -/

namespace Sys2Proof.Machine

/-! ## A pen's ranges -/

/-- Whether an HBM or loft granule, numbered from device address 0, is in the pen's ranges. -/
def Hw.ownsGranule (s : Hw) (p g : Nat) : Bool := match s.desc p with
  | none => false
  | some d =>
    d.hbm.any (fun x => decide (x.start ≤ g) && decide (g < x.start + x.count)) ||
    d.loft.any fun x => decide (loftBase / granule + x.start ≤ g) && decide (g < loftBase / granule + x.start + x.count)

/-- Whether an extent lies within the pen's HBM and loft ranges. -/
def Hw.inPenMem (s : Hw) (p a n : Nat) : Bool := (granulesOf a n).all (s.ownsGranule p)

/-- Whether a hub command's extent lies outside the pen's ranges. One that begins in them and reaches an unpopulated address does not:
it is an unpopulated-address access (R23, R343). -/
def Hw.outsidePen (s : Hw) (p a n : Nat) : Bool :=
  !(s.inPenMem p a n) && !(s.ownsGranule p (a / granule) && (unpopFirst (s.get R.HIF_MODULE_ID_LOFT_TIB) a n).isSome)

/-- The stall of a pen whose scratchpad slot holds address `a`. -/
def Hw.penSpd (s : Hw) (p a : Nat) : Option Nat :=
  if spdBase ≤ a ∧ a < spdBase + 192 * spdSlot then
    let n := (a - spdBase) / spdSlot
    if n ∈ s.penStalls p then some n else none
  else none

/-- Units of LOFT_TIB in force (R2). -/
def Hw.loftTib (s : Hw) : Nat := s.get R.HIF_MODULE_ID_LOFT_TIB

/-! ## Writes into a stall from outside it (R172, R184, R185) -/

/-- A counter of a stall rises for a remote write, and a slot write completes in the same cycle. -/
def Hw.landed (s : Hw) (n plan : Nat) (ctr : Option Nat) (slot : Nat) : Hw :=
  (match ctr with
    | some a => s.arrive n a
    | none => s).writeDone n plan slot

/-- Bytes written into stall `n` from outside it: held at the fabric while the stall is zero-filled, and lands after it. -/
def Run.remoteBytes (r : Run) (n a : Nat) (bs : Bytes) (m : Nat) : Run :=
  if r.hw.is R.SPD_STATUS_ZEROING n then
    r.on fun s => s.modStl n fun t => { t with held := t.held ++ [⟨a, bs, m, 0, none, 0xFFFF, 0⟩] }
  else r.store a bs m

/-- The rows of an extent poisoned with `bits`, which replace the poison bits they had (R177, R96), also in cached copies; a retired
page takes no write. -/
def Run.poisonRange (r : Run) (a n bits : Nat) : Run :=
  r.each (linesOf a n) fun l r =>
    if r.hw.deadGranule (l * 64 / granule) then r else (r.setMark l bits).on fun s => s.cacheWrite (l * 64) 64 fun _ => bits

/-- Rows of stall `n` poisoned from outside it, with the same hold. -/
def Run.remoteArea (r : Run) (n a k bits : Nat) : Run :=
  if r.hw.is R.SPD_STATUS_ZEROING n then
    r.on fun s => s.modStl n fun t => { t with held := t.held ++ [⟨a, [], bits, k, none, 0xFFFF, 0⟩] }
  else r.poisonRange a k bits

/-- The end of a remote write: its counter and its slot. -/
def Run.remoteEnd (r : Run) (n plan : Nat) (ctr : Option Nat) (slot : Nat) : Run :=
  r.on fun s =>
    if s.is R.SPD_STATUS_ZEROING n then s.modStl n fun t => { t with held := t.held ++ [⟨0, [], 0, 0, ctr, slot, plan⟩] }
    else s.landed n plan ctr slot

/-- The entry count of a hub's unavailable-block list, as MHB_UNAVAIL shows it (R219). -/
def Hw.showUnav (s : Hw) (u : Nat) : Hw := s.set R.MHB_UNAVAIL_COUNT u (Tbl.get [] u s.dev.unav).length

/-! ## Hub engines -/

/-- A hub engine's command in its place: hub, pen, engine number, and what issued it. -/
structure Hx where
  m     : Nat
  p     : Nat
  eng   : Nat
  plan  : Nat
  frame : Nat
  task  : Nat
  pos   : Option Nat
deriving DecidableEq, Repr

/-- The place of a command of pen `p`'s queue on hub `m`: none where the pen is not present or in reset. -/
def Hw.hx (s : Hw) (m p eng : Nat) (i : Issue) : Option Hx :=
  if s.present p && s.penLive p then some ⟨m, p, eng, s.slotOf p i.frame, i.frame, i.task, i.pos.map (·.val)⟩ else none

/-- Runs a command of a hub engine: nothing where the pen is not present or in reset. -/
def State.runHub (s : State) (m p eng : Nat) (i : Issue) (f : Hx → Run → Run) : Host.Outcome State Fault Refusal :=
  s.run fun r => match r.hw.hx m p eng i with
    | none => r
    | some h => f h (r.on fun s => s.upset i.upsets)

/-- The yields and same-row events that a hub command's remote writes met in the stall they go to (R174, R175). -/
def Hw.metFar (s : Hw) (n : Nat) (i : Issue) : Hw := s.metBanks n i.ports.far

/-- Those of the stall of its pen that holds address `a`. -/
def Hw.metDst (s : Hw) (p a : Nat) (i : Issue) : Hw := match s.penSpd p a with
  | some n => s.metFar n i
  | none => s

/-- The TASK field of a record: task index and engine (Table 13.2). -/
def Hx.taskWord (h : Hx) : Nat := h.task % 2 ^ 24 + h.eng * 2 ^ 24

/-- A record of a hub engine's command. -/
def Hw.logHx (s : Hw) (h : Hx) (e : Err) (addr slot detail : Nat) : Hw :=
  s.log e { kind := 1, unit := h.m, pen := h.p, task := h.taskWord, addr := addr, slot := slot, detail := detail }

/-- A crib code made to apply to the requests the command serves. -/
def Hw.blameHx (s : Hw) (h : Hx) (code : Nat) : Hw := s.blame h.p (servedBy h.frame h.pos) code

/-- The requests that poison bits reach. -/
def Hw.blameHxPoison (s : Hw) (h : Hx) (bits : Nat) : Hw :=
  if bit bits 1 then s.blameHx h Crib.SCHEDULE_FAULT else if bit bits 0 then s.blameHx h Crib.POISONED_OUTPUT else s

end Sys2Proof.Machine
end

