-- ==== Sys2Proof/Machine/Bound.lean ====
section
/-! DEFINITION. What the outputs of a queued command are, read from its bytes; the outcome of an access out of its region or to
an unpopulated address (R177, R178, R343); and the frame in which every good command of a stall's engine runs (R177, R181, R182,
R171). -/

namespace Sys2Proof.Machine

/-! ## The fields of DMA_MOVE (Table 7.5) -/

/-- One side of a move: kind, selector and address (R188). -/
structure Side where
  kind : Nat
  sel  : Nat
  addr : Nat
deriving DecidableEq, Repr

/-- The fields of a DMA_MOVE command. -/
structure DmaMove where
  src   : Side
  dst   : Side
  gath  : Bool
  idx16 : Bool
  cntI  : Bool
  arrEn : Bool
  iReg  : Nat
  ctr   : Nat
  ish   : Nat
  elem  : Nat
  count : Nat
  rep   : Nat
  idxO  : Nat
  cntO  : Nat
  hi    : Nat
  lo    : Nat
  srep  : Nat
  dk    : Nat
  drep  : Nat
  bound : Nat
  slotS : Nat
  slotI : Nat
  slotD : Nat
deriving DecidableEq, Repr

/-- The fields read from the command's 128 bytes. -/
def DmaMove.of (b : Bytes) : DmaMove :=
  let ctl := fld b 1 1
  { src := ⟨ctl % 4, fld b 2 1, fld b 8 8⟩, dst := ⟨bits ctl 2 2, fld b 3 1, fld b 0x10 8⟩, gath := bit ctl 4, idx16 := bit ctl 5,
    cntI := bit ctl 6, arrEn := bit ctl 7, iReg := fld b 4 1, ctr := fld b 5 1, ish := fld b 6 1, elem := fld b 0x18 4,
    count := fld b 0x1C 2, rep := fld b 0x1E 2, idxO := fld b 0x20 4, cntO := fld b 0x24 4, hi := fld b 0x28 4, lo := fld b 0x2C 4,
    srep := fld b 0x30 4, dk := fld b 0x34 4, drep := fld b 0x38 4, bound := fld b 0x3C 4, slotS := fld b 0x40 2,
    slotI := fld b 0x42 2, slotD := fld b 0x44 2 }

/-- The stall a side lies in: the command's own, or another of the pen. -/
def Side.stall (x : Side) (s : Hw) (c : Cx) : Option Nat :=
  if x.kind = 0 then some c.n else if x.kind = 1 then (s.penStalls c.p)[x.sel]? else none

/-- The device or host address of offset `a` of a side. -/
def Side.at (x : Side) (s : Hw) (c : Cx) (a : Nat) : Nat := match x.kind with
  | 0 => s.extAddr c.n c.eng c.tk ⟨x.sel, a, 1⟩
  | 1 => spdAddr ((x.stall s c).getD 0) + a
  | _ => a

/-- Source and destination offsets of the copies of element `k` with index `idx` (R187). -/
def DmaMove.copies (f : DmaMove) (k idx : Nat) : List (Nat × Nat) :=
  let s := f.src.addr + idx / 2 ^ f.ish * f.hi + idx % 2 ^ f.ish * f.lo
  (List.range f.rep).map fun r => (f.dst.addr + k * f.dk + r * f.drep, s + r * f.srep)

/-! ## The outputs of a command -/

/-- The output slots a command of a stall's engine names in its own stall. -/
def outSlotsOf (cmd : Bytes) : List Nat :=
  let op := fld cmd 0 1
  if op = 0x21 ∨ op = 0x23 then [fld cmd 0x30 2]
  else if op = 0x22 ∨ op = 0x61 then [fld cmd 0x28 2]
  else if op = 0x24 then [fld cmd 0x44 2, fld cmd 0x46 2]
  else if op = 0x41 then [fld cmd 0x30 2]
  else if op = 0x31 then [fld cmd 0x34 2]
  else if op = 0x46 ∨ op = 0x47 then [fld cmd 0x22 2]
  else if op = 0x48 then [fld cmd 0x1A 2]
  else if op = 0x15 then [fld cmd 8 2]
  else []

/-- The output extents of a command of stall `n` in its own scratchpad: Tables 4.2, 4.6, 5.3, 6.2, 6.4, 6.5, 6.7, 8.7, 9.11
and 10.8. The spec gives a queued TRIT_COMBINE no byte layout: its fields lie where TDA_MAC has its own (DESIGN CHOICE, log 26). -/
def Run.outsOf (r : Run) (c : Cx) (cmd : Bytes) : List Ext :=
  let op := fld cmd 0 1
  let rows := fld cmd 2 1 + 1
  let out := fun fmt off str cols =>
    if bit (fld cmd 1 1) 1 then r.hw.outExts c.n (fld cmd fmt 1) (fld cmd 0xA 1) (fld cmd off 4) (fld cmd str 4) rows cols else []
  if op = 0x21 then out 7 0x20 0x24 256
  else if op = 0x22 then out 0xB 0x18 0x1C (fld cmd 6 2)
  else if op = 0x23 then out 7 0x20 0x24 (fld cmd 0x34 2)
  else if op = 0x24 then
    let list : Ext := ⟨fld cmd 0xB 1, fld cmd 0x28 4, 8768⟩
    let p0 := min (r.readNat (r.hw.extAddr c.n c.eng c.tk list + 0x200) 2) (fld cmd 6 2)
    list :: rowExts (fld cmd 0xC 1) (fld cmd 0x2C 4 + 4 * p0) (fld cmd 0x30 4) rows 256
  else if op = 0x41 then r.hw.outExts c.n (fld cmd 7 1) (fld cmd 0xA 1) (fld cmd 0x20 4) (fld cmd 0x24 4) rows (fld cmd 4 2)
  else if op = 0x31 then
    r.hw.outExts c.n (fld cmd 3 1) (fld cmd 0xA 1) (fld cmd 0x1C 4) (fld cmd 0x20 4) rows
      (if fld cmd 1 1 % 8 = 2 then fld cmd 4 2 else fld cmd 6 2)
  else if op = 0x46 then [⟨fld cmd 9 1, fld cmd 0x14 4, 34816⟩]
  else if op = 0x47 then [⟨fld cmd 9 1, fld cmd 0x14 4, 8768⟩]
  else if op = 0x48 then [⟨fld cmd 3 1, fld cmd 0xC 4, fld cmd 4 4⟩]
  else if op = 0x61 then [⟨fld cmd 0xB 1, fld cmd 0x18 4, 16⟩]
  else if op = 0x15 then (if fld cmd 4 4 = 0xFFFFFFFF then [] else [⟨fld cmd 2 1, fld cmd 4 4, 16⟩])
  else []

/-- The rows that a move writes at destination offsets `ds`, in a scratchpad of its pen, poisoned with `bits`. -/
def Run.moveRows (r : Run) (c : Cx) (f : DmaMove) (bits : Nat) (ds : List Nat) : Run :=
  match f.dst.stall r.hw c with
  | none => r
  | some _ => r.each ds fun x r =>
      if f.dst.kind = 0 then r.poisonExt c.n c.eng c.tk bits ⟨f.dst.sel, x, f.elem⟩
      else r.poisonRange (f.dst.at r.hw c x) (min f.elem (spdSize - x)) bits

/-- The destination offsets of a move's copies. -/
def DmaMove.dsts (f : DmaMove) : List Nat := (List.range (min f.count 4096)).flatMap fun k => (f.copies k k).map (·.1)

/-- The outputs of a move that is not executed, or that stops: the rows it names in scratchpads of its pen are poisoned, and its
output slot completes, its write start checked unless that was done (R181). -/
def Run.spoilMove (r : Run) (c : Cx) (f : DmaMove) (bits : Nat) (checked : Bool := false) : Run :=
  match f.dst.stall r.hw c with
  | none => r
  | some d => (r.moveRows c f bits f.dsts).on fun s =>
      (if checked then s else s.writeStart d c.plan f.slotD c.taskWord).writeDone d c.plan f.slotD

/-- The in-bound output rows of a stall engine's command poisoned. -/
def Run.spoilRows (r : Run) (c : Cx) (cmd : Bytes) (bits : Nat) : Run :=
  if fld cmd 0 1 = 0x12 then r.moveRows c (DmaMove.of cmd) bits (DmaMove.of cmd).dsts
  else r.each (r.outsOf c cmd) fun x r => r.poisonExt c.n c.eng c.tk bits x

/-- A command that is not queued because an earlier one of its task met a fault (R177): its in-bound output rows are poisoned
with POISON alone and its output slots complete. -/
def Run.spoil (r : Run) (c : Cx) (cmd : Bytes) : Run :=
  if fld cmd 0 1 = 0x12 then r.spoilMove c (DmaMove.of cmd) 1
  else (r.spoilRows c cmd 1).on fun s => s.passSlots c (outSlotsOf cmd)

/-! ## Accesses out of bound or unpopulated (R177, R178, R343) -/

/-- The remaining commands of a task, which no queue of engine `k` holds any more. -/
def Hw.restOf (s : Hw) (k p f task : Nat) : List QCmd :=
  let e := s.eng k
  (e.u0 ++ e.lap ++ e.main).filter fun q => q.pen == p && q.frame == f && q.task == task

/-- The remaining commands of a task are not queued and the task counts as completed (R177): they leave their engine's queues,
and only commands that already started are left of the task. -/
def Hw.unqueue (s : Hw) (k p f task : Nat) : Hw :=
  let keep := fun q : QCmd => !(q.pen == p && q.frame == f && q.task == task)
  let m := (s.restOf k p f task).length
  let s := s.modEng k fun e => { e with u0 := e.u0.filter keep, lap := e.lap.filter keep, main := e.main.filter keep }
  s.modPen p fun ps => { ps with frames := ps.frames.map fun x =>
    if x.frame = f then { x with left := Tbl.set 0 task (Tbl.get 0 task x.left - m) x.left } else x }

/-- The rest of a stall command's task dropped, with the outputs of what is dropped (R177). -/
def Run.dropTask (r : Run) (c : Cx) : Run :=
  let k := c.n * 16 + c.eng
  let qs := r.hw.restOf k c.p c.frame c.task
  (r.on fun s => s.unqueue k c.p c.frame c.task).each qs fun q r => r.spoil c q.cmd

/-- An SPD_BOUND event counted, and logged with region and offset (R177, R192). -/
def Hw.boundEvent (s : Hw) (c : Cx) (reg off addr : Nat) : Hw :=
  (s.incStl R.SPD_BOUND_CNT_BOUND c.n).logCx c E.SPD_BOUND addr 0xFFFF (reg + 2 ^ 8 * off)

/-- An unpopulated-address event of a stall's command counted, and logged with the first unpopulated address (R178, R343). -/
def Hw.unpopEvent (s : Hw) (c : Cx) (addr : Nat) : Hw := (s.incStl R.SPD_BOUND_CNT_UNPOP c.n).logCx c E.UNPOP_ADDR addr 0xFFFF 0

/-- The events of a command's faults, each counted and logged (R192). -/
def Hw.extEvents (s : Hw) (c : Cx) (x : ExtFaults) : Hw :=
  let s := match x.bound with
    | some (reg, off) => s.boundEvent c reg off (s.extAddr c.n c.eng c.tk ⟨reg, off, 1⟩)
    | none => s
  match x.unpop with
  | some a => s.unpopEvent c a
  | none => s

/-- A command out of bound or at an unpopulated address (R177, R178, R343): not executed; counted and logged; in-bound output rows
poisoned with POISON alone; output slots complete; requests POISONED_OUTPUT; the task's remaining commands are not queued. -/
def Run.extFaulted (r : Run) (c : Cx) (x : ExtFaults) (outs : List Ext) (slots : List Nat) : Run :=
  let r := r.on fun s => (s.extEvents c x).passSlots c slots
  let r := r.each outs fun x r => r.poisonExt c.n c.eng c.tk 1 x
  (r.dropTask c).on fun s => s.blameCx c Crib.POISONED_OUTPUT

/-- A hub command that reaches an unpopulated address (R343): not executed; counted, logged; the outcome of an SPD_BOUND
fault. `spoil` poisons the outputs of a command of this engine and completes its output slot. -/
def Run.hubUnpop (r : Run) (h : Hx) (addr : Nat) (cmd : Bytes) (spoil : Bytes → Run → Run) : Run :=
  let r := r.on fun s => ((s.inc R.ERR_COUNTS2_UNPOP).logHx h E.UNPOP_ADDR addr 0xFFFF 0).blameHx h Crib.POISONED_OUTPUT
  let k := 4096 + (h.m * 16 + h.eng) * 16 + h.p
  let qs := r.hw.restOf k h.p h.frame h.task
  (r.on fun s => s.unqueue k h.p h.frame h.task).each (cmd :: qs.map (·.cmd)) spoil

/-! ## Good commands (R171, R177, R181, R182) -/

/-- The poison of a command's operand rows, joined. -/
def Run.extMarks (r : Run) (c : Cx) (xs : List Ext) : Nat :=
  xs.foldl (fun m x => m ||| r.marks (r.hw.extAddr c.n c.eng c.tk x) x.len) 0

/-- A command whose fields are good: bounds of every operand and output are checked at issue, then slots at start; `body`
runs with the poison its slots give and answers the run with the poison of its outputs; then reads and writes of slots
complete, reads first (R182). -/
def Run.commandOn (r : Run) (c : Cx) (ins outs : List Ext) (inSlots outSlots : List Nat) (body : Nat → Run → Run × Nat) : Run :=
  let x := r.hw.extFault c (ins ++ outs)
  if !x.none? then r.extFaulted c x outs outSlots
  else
    let (s, m, full) := r.hw.readStart c.n c.taskWord inSlots.eraseDups
    let s := s.each outSlots fun i s => s.writeStart c.n c.plan i c.taskWord
    let r := { r with hw := s }
    let r := r.each ins fun x r => r.senseExt c x
    let (r, m) := body m r
    r.on fun s =>
      let s := s.blamePoison c m
      let s := s.each full fun i s => s.readDone c.n c.plan i
      s.each outSlots fun i s => s.writeDone c.n c.plan i

/-- A good command all of whose operand rows give their poison to all its outputs (R171). -/
def Run.command (r : Run) (c : Cx) (ins outs : List Ext) (inSlots outSlots : List Nat) (body : Nat → Run → Run × Nat) : Run :=
  r.commandOn c ins outs inSlots outSlots fun m r => body (m ||| r.extMarks c ins) r

end Sys2Proof.Machine
end

