-- ==== Sys2Proof/Machine/Dma.lean ====
section
/-! DEFINITION. The DMA port of a stall and arrivals (Sections 5 to 7 of 07_scratchpad.md, R244): WAIT_ARRIVALS, DMA_MOVE,
CRIB_EMIT, remote writes, the end of a zero-fill, and completions of host reads. -/

namespace Sys2Proof.Machine

/-- A malformed DMA_MOVE or WAIT_ARRIVALS counted (Table 7.7). -/
def Hw.dmaMalformed (c : Cx) (s : Hw) : Hw := s.incStl R.SPD_DMA_MAL_MALFORMED c.n

/-- A detached command put into a free slot of its stall. -/
def Hw.detach (s : Hw) (c : Cx) (d : Nat) (x : Detached) : Hw := s.modStl c.n fun t => { t with det := Tbl.insert d x t.det }

/-- The detached command of a place, before what it waits for is filled in. -/
def Cx.detached (c : Cx) (op : Nat) (cmd : Bytes) : Detached :=
  { pen := c.p, plan := c.plan, frame := c.frame, task := c.task, pos := c.pos, u0 := c.u0, op := op, cmd := cmd }

/-- The class of a task of an open frame (R61). -/
def Hw.taskClass (s : Hw) (p f task : Nat) : Option QClass :=
  (((s.pen p).frames.find? (·.frame == f)).bind fun x => x.tasks[task]?).map (·.cls)

/-! ## WAIT_ARRIVALS (R186) -/

/-- Whether a WAIT_ARRIVALS on engine `e` is malformed. -/
def waitBad (e : Nat) (b : Bytes) : Bool :=
  let t := fld b 4 4
  b.length != 64 || decide (3 < fld b 1 1) || decide (63 < fld b 2 1) || !(zeroAt b 3 1) || decide (t = 0) || decide (2 ^ 31 ≤ t) ||
  decide (fld b 8 4 < 4) || decide (52000 < fld b 8 4) || !(zeroAt b 0xC 52) || (bit (fld b 1 1) 1 && e != 6)

/-- WAIT_ARRIVALS on an engine of a stall: the wait enters the stall's list, from which an arrival takes it (or the value
already there); a remote one waits in a detached slot, and without a slot it is not ready. -/
def execWaitArrivals (n : StallId) (e : EngKind) (i : Issue) (cmd : Bytes) (s : State) : Host.Outcome State Fault Refusal :=
  s.runStall n.val (engNum e) i fun c r =>
      let r := if c.eng = 0 then r.on fun s => (s.dropPrefetch c) else r
      if waitBad c.eng cmd then r.malformed c 0x11 (Hw.dmaMalformed c) [] []
      else
        let w : WaitArr := ⟨c.eng, c.frame, c.task, fld cmd 2 1, fld cmd 4 4, bit (fld cmd 1 1) 0, none⟩
        let go := fun s : Hw => Hw.takeWaits c.n (s.stl c.n).waits.length s
        if bit (fld cmd 1 1) 1 then
          match r.hw.freeSlot c.n c.u0 with
          | none => r
          | some d => r.on fun s =>
            go ((s.detach c d { c.detached 0x11 cmd with waits := 1 }).modStl c.n fun t => { t with waits := t.waits ++ [{ w with det := some d }] })
        else r.on fun s => go (s.modStl c.n fun t => { t with waits := t.waits ++ [w] })

/-! ## DMA_MOVE (Table 7.5) -/

/-- Far-side latency of a side (R189, R190). -/
def Side.lat (x : Side) (n : Nat) : Nat :=
  if x.kind = 1 then 400
  else if x.kind = 2 then (if x.addr < hbmEnd then (if x.addr / stackSize / 2 = hubOf n then 400 else 900) else 1800)
  else 0

/-- C_max (R189). -/
def DmaMove.cMax (f : DmaMove) (n : Nat) : Nat :=
  16 + max (f.src.lat n) (f.dst.lat n) + (if f.gath then cdiv (f.count * (if f.idx16 then 2 else 1)) 64 + (if f.cntI then 1 else 0) else 0) +
    cdiv (f.count * f.rep * (cdiv f.elem 64 + 1)) 2 + 4

/-- Whether a side's selector is out of range. -/
def Side.bad (x : Side) (stalls : Nat) : Bool :=
  decide (2 ^ 48 ≤ x.addr) || (x.kind == 0 && decide (7 < x.sel)) || (x.kind == 1 && decide (stalls ≤ x.sel)) ||
  (decide (2 ≤ x.kind) && x.sel != 0)

/-- Whether a command is malformed (R189); a kind 3 side is for head and tail tasks alone. -/
def DmaMove.bad (f : DmaMove) (s : Hw) (c : Cx) (b : Bytes) : Bool :=
  let k := (s.penStalls c.p).length
  let far := fun x : Side => decide (2 ≤ x.kind)
  b.length != 128 || f.src.bad k || f.dst.bad k || decide (7 < f.iReg) || decide (63 < f.ctr) || decide (16 < f.ish) || !(zeroAt b 7 1) ||
  decide (f.elem = 0) || decide (0x1000000 < f.elem) || decide (f.count = 0) || decide (4096 < f.count) || decide (f.rep = 0) ||
  decide (4096 < f.rep) || !(zeroAt b 0x46 58) || (far f.src && f.slotS != 0xFFFF) || (f.src.kind != 0 && f.dst.kind != 0) ||
  decide (52000 < f.bound) || decide (f.bound < f.cMax c.n) ||
  ((f.src.kind == 3 || f.dst.kind == 3) && (match s.taskClass c.p c.frame c.task with
    | some .u0 => true
    | some .body => true
    | _ => false))

/-- Why an access may not go on: out of its region or the pen's ranges, unpopulated, or outside the host DMA windows. -/
inductive MoveFault where
  | bound (reg off addr : Nat)
  | unpop (addr : Nat)
  | host (addr : Nat)
deriving DecidableEq, Repr

/-- The function whose windows bound a command's host accesses: that of the tenant whose sequence it serves, the PF where it
serves none (log 23). -/
def Hw.hostFn (s : Hw) (c : Cx) : Nat :=
  match (s.pen c.p).bound.find? fun b => b.frame == c.frame && c.pos == some b.pos with
  | some b => s.fnOf b.tenant
  | none => 0

/-- The fault of `len` bytes at offset `a` of a side, if any (R177, R178, R188, R343). -/
def Side.fault (x : Side) (s : Hw) (c : Cx) (write : Bool) (a len : Nat) : Option MoveFault :=
  match x.kind with
  | 0 =>
    if !(s.inBound c.n c.eng c.tk ⟨x.sel, a, len⟩) then some (.bound x.sel a (x.at s c a))
    else if !(s.populated c.n c.eng c.tk ⟨x.sel, a, len⟩) then some (.unpop (max (x.at s c a) (spdAddr c.n + spdSize))) else none
  | 1 => if spdSize < a + len then some (.unpop (x.at s c (max a spdSize))) else none
  | 2 => match unpopFirst s.loftTib a len with
    | some y => some (.unpop y)
    | none => if s.inPenMem c.p a len then none else some (.bound 0xFF 0 a)
  | _ => if s.dmaOk (s.hostFn c) a len write then none else some (.host a)

/-- Bytes read from a side with their poison. -/
def Run.sideRead (r : Run) (x : Side) (c : Cx) (a n : Nat) : Bytes × Nat × Run :=
  let p := x.at r.hw c a
  match x.kind with
  | 0 => let r := r.sense p n; (r.read p n, r.marks p n, r)
  | 1 => let r := r.sense p n; (r.read p n, r.marks p n, r)
  | 2 => r.memRead (.pen c.p) p n
  | _ => (r.readHost p n, 0, r)

/-- Bytes written to a side with poison. -/
def Run.sideWrite (r : Run) (x : Side) (c : Cx) (a : Nat) (bs : Bytes) (m : Nat) : Run :=
  let p := x.at r.hw c a
  match x.kind with
  | 0 => r.store p bs m
  | 1 => r.remoteBytes ((x.stall r.hw c).getD 0) p bs m
  | 2 => r.memWrite p bs m
  | _ => r.writeHost p bs

/-- The fault of an element's copies, if any. -/
def DmaMove.elemFault (f : DmaMove) (s : Hw) (c : Cx) (cs : List (Nat × Nat)) : Option MoveFault :=
  cs.findSome? fun x => match f.src.fault s c false x.2 f.elem with
    | some e => some e
    | none => f.dst.fault s c true x.1 f.elem

/-- The elements copied in order, each checked as its address is formed; a fault stops them. Answers the run, the poison
met, the elements copied and the fault. -/
def Run.moveElems (f : DmaMove) (c : Cx) (m : Nat) : List (List (Nat × Nat)) → Run → Run × Nat × Nat × Option MoveFault
  | [], r => (r, 0, 0, none)
  | cs :: rest, r =>
    match f.elemFault r.hw c cs with
    | some e => (r, 0, 0, some e)
    | none =>
      let (r, pm) := cs.foldl (fun (a : Run × Nat) x =>
        let (bs, pm, r) := a.1.sideRead f.src c x.2 f.elem
        (r.sideWrite f.dst c x.1 bs (m ||| pm), a.2 ||| pm)) (r, 0)
      let (r, pm', n, e) := Run.moveElems f c m rest r
      (r, pm ||| pm', n + 1, e)

/-- The index list of a move: as the command counts, or gathered (R187). -/
def DmaMove.index (f : DmaMove) (r : Run) (c : Cx) (n : Nat) : List Nat :=
  if f.gath then
    let w := if f.idx16 then 2 else 1
    (List.range n).map fun k => r.readNat (r.hw.extAddr c.n c.eng c.tk ⟨f.iReg, f.idxO + w * k, w⟩) w
  else List.range n

/-- The index list and count word as operands. -/
def DmaMove.idxExts (f : DmaMove) : List Ext :=
  if f.gath then ⟨f.iReg, f.idxO, f.count * (if f.idx16 then 2 else 1)⟩ :: (if f.cntI then [⟨f.iReg, f.cntO, 2⟩] else []) else []

/-- The event of a fault: counted and logged with region and offset, a far side's as region 0xFF (R177, R188, R192, R343). -/
def Hw.moveEvent (s : Hw) (f : DmaMove) (c : Cx) : MoveFault → Hw
  | .bound reg off a => s.boundEvent c reg off a
  | .host a => (s.dmaReject (s.hostFn c) a (f.dst.kind == 3)).boundEvent c 0xFF 0 a
  | .unpop a => s.unpopEvent c a

/-- Of the faults a move meets at issue, those that count: one out of bound and one unpopulated (R192). -/
def firstFaults (es : List MoveFault) : List MoveFault :=
  let un := fun e : MoveFault => match e with
    | .unpop _ => true
    | _ => false
  (es.find? fun e => !(un e)).toList ++ (es.find? un).toList

/-- A move stopped by faults: the outcome of R177; the destination rows of the pen's scratchpads that the command names are
poisoned, its output slot completes. `checked` says that its write start is past (R181). -/
def Run.moveFault (r : Run) (f : DmaMove) (c : Cx) (es : List MoveFault) (checked : Bool) : Run :=
  let r := r.each es fun e r => r.on fun s => s.moveEvent f c e
  ((r.spoilMove c f 1 checked).dropTask c).on fun s => s.blameCx c Crib.POISONED_OUTPUT

/-- The elements of a move, each as its copies; an excess of the count word is counted (R187). -/
def Run.moveEls (r : Run) (f : DmaMove) (c : Cx) : List (List (Nat × Nat)) × Run :=
  let cnt := if f.gath && f.cntI then r.readNat (r.hw.extAddr c.n c.eng c.tk ⟨f.iReg, f.cntO, 2⟩) 2 else f.count
  let n := min cnt f.count
  let r := r.on fun s => if f.count < cnt then (s.incStl R.STL_SPARSE_OOR c.n (cnt - f.count)).logCx c E.SPARSE_OOR 0 0xFFFF cnt else s
  (((f.index r c n).zip (List.range n)).map fun x => f.copies x.2 x.1, r)

/-- The moving part: count word, indices, copies, counters. Answers the run, its poison and a fault that stopped it. -/
def Run.moveBody (r : Run) (f : DmaMove) (c : Cx) (m : Nat) : Run × Nat × Option MoveFault :=
  let (els, r) := r.moveEls f c
  let (r, pm, done, e) := Run.moveElems f c m els r
  (r.on fun s => s.incStl R.SPD_DMA_BYTES_BYTES c.n (done * f.rep * f.elem), m ||| pm, e)

/-- The bytes that a move asked of the host land. Its local part has formed and checked every address, so a window written since
then changes nothing (R191, R393). -/
def Run.moveLand (r : Run) (f : DmaMove) (c : Cx) (m : Nat) (cs : List (Nat × Nat)) : Run :=
  let r := r.each cs fun x r => r.sideWrite f.dst c x.1 (r.readHost x.2 f.elem) m
  r.on fun s => (s.incStl R.SPD_DMA_BYTES_BYTES c.n (cs.length * f.elem)).blamePoison c m

/-- The completion of a move: reads that began FULL, then the arrival and the slot write of the destination (R182, R184,
R187). -/
def Run.moveDone (r : Run) (f : DmaMove) (c : Cx) (full : List (Nat × Nat)) : Run :=
  let r := r.on fun s => (s.incStl R.SPD_DMA_CMDS_CMDS c.n).each full fun x s => s.readDone x.1 c.plan x.2
  match f.dst.stall r.hw c with
  | some d => r.remoteEnd d c.plan (if f.arrEn then some f.ctr else none) f.slotD
  | none => r

/-- The start checks of a move's slots: the poison they give, and the reads that began FULL. -/
def Hw.moveSlots (s : Hw) (f : DmaMove) (c : Cx) : Hw × Nat × List (Nat × Nat) :=
  let rd := fun (s : Hw) (d : Option Nat) (slots : List Nat) => match d with
    | some d =>
      let (s, m, fs) := s.readStart d c.taskWord slots
      (s, m, fs.map fun i => (d, i))
    | none => (s, 0, [])
  let own := f.src.stall s c == some c.n
  let (s, m1, f1) := rd s (f.src.stall s c) (if f.gath && own && f.slotI == f.slotS then [] else [f.slotS])
  let (s, m2, f2) := if f.gath then rd s (some c.n) [f.slotI] else (s, 0, [])
  let s := match f.dst.stall s c with
    | some d => s.writeStart d c.plan f.slotD c.taskWord
    | none => s
  (s, m1 ||| m2, f1 ++ f2)

/-- The faults a move meets at issue: of its index operands, and without a gather of every extent (R177). -/
def Run.moveEarly (r : Run) (f : DmaMove) (c : Cx) : List MoveFault :=
  let s := r.hw
  let x := s.extFault c f.idxExts
  (x.bound.map fun b => MoveFault.bound b.1 b.2 (s.extAddr c.n c.eng c.tk ⟨b.1, b.2, 1⟩)).toList ++ (x.unpop.map MoveFault.unpop).toList ++
  if f.gath then [] else (List.range f.count).flatMap fun k => (f.copies k k).flatMap fun y =>
    (f.src.fault s c false y.2 f.elem).toList ++ (f.dst.fault s c true y.1 f.elem).toList

/-- A well-formed move in its place. -/
def Run.dmaMove (r : Run) (c : Cx) (f : DmaMove) (cmd : Bytes) : Run :=
  match firstFaults (r.moveEarly f c) with
  | e :: es => r.moveFault f c (e :: es) false
  | [] =>
    let host := f.src.kind == 3 || f.dst.kind == 3
    match host, r.hw.freeSlot c.n c.u0 with
    | true, none => r
    | _, d =>
      let (s, m, full) := r.hw.moveSlots f c
      let r := ({ r with hw := s }).each f.idxExts fun x r => r.senseExt c x
      let m := m ||| r.extMarks c f.idxExts
      if f.src.kind = 3 then
        let (els, r) := r.moveEls f c
        match els.findSome? (f.elemFault r.hw c) with
        | some e => r.moveFault f c [e] true
        | none => r.on fun s => s.detach c (d.getD 0) { c.detached 0x12 cmd with reads := full, copies := els.flatten, poison := m, waits := 1 }
      else
        let (r, m, e) := r.moveBody f c m
        match e with
        | some e => r.moveFault f c [e] true
        | none =>
          let r := r.on fun s => s.blamePoison c m
          if host then r.on fun s => s.detach c (d.getD 0) { c.detached 0x12 cmd with reads := full, poison := m }
          else r.moveDone f c full

/-- DMA_MOVE (R187). A move with a kind 3 side is detached: bytes to the host are handed off by its local part; bytes from
the host are asked for there, and come with their completion (log 24). -/
def execDmaMove (n : StallId) (i : Issue) (cmd : Bytes) (s : State) : Host.Outcome State Fault Refusal :=
  s.runStall n.val 6 i fun c r =>
      let f := DmaMove.of cmd
      if f.bad r.hw c cmd then
        (r.malformed c 0x12 (Hw.dmaMalformed c) [] []).spoilMove c f 3
      else match f.dst.kind, f.dst.stall r.hw c with
        | 1, some d => (r.on fun s => s.metFar d i).dmaMove c f cmd
        | _, _ => r.dmaMove c f cmd

/-! ## Remote writes and zero-fill (R172, R185) -/

/-- REMOTE_WRITE_ARRIVAL: the last bytes of a remote write land at an offset of a stall's scratchpad; its counter rises and
its slot write, whose start the stall has checked, completes (R181, R184, R185); yields and same-row events count (R174, R175). A
stall outside every pen takes no remote write (R33). -/
def execRemoteWriteArrival (n : StallId) (off : Nat) (w : Landing) (poison : Nat) (ctr : Option (Fin 64)) (slot : Nat) (s : State) : Host.Outcome State Fault Refusal :=
  s.run fun r => match r.hw.penOf n.val with
    | none => r
    | some p =>
      if r.hw.mgt.phase ≠ .run ∨ spdSize < off + w.bytes.length then r
      else
      let plan := r.hw.slotOf p r.hw.clk.frame
      let r := r.on fun s => (s.metBanks n.val (w.met.yields, w.met.sameRow)).writeStart n.val plan slot 0xFFFFFFFF
      (r.remoteBytes n.val (spdAddr n.val + off) w.bytes (poison % 4)).remoteEnd n.val plan (ctr.map (·.val)) slot

/-- ZERO_FILL_DONE: ZEROING clears, and the remote writes held at the fabric land in the order they came (R172). -/
def execZeroFillDone (n : StallId) (s : State) : Host.Outcome State Fault Refusal :=
  s.run fun r =>
    if r.hw.is R.SPD_STATUS_ZEROING n.val then
      let held := (r.hw.stl n.val).held
      let r := r.on fun s => (s.set R.SPD_STATUS_ZEROING n.val 0).modStl n.val fun t => { t with held := [] }
      r.each held fun w r =>
        if w.area ≠ 0 then r.poisonRange w.addr w.area w.mark
        else if w.bytes = [] then r.on fun s => s.landed n.val w.plan w.ctr w.slot else r.store w.addr w.bytes w.mark
    else r

/-! ## CRIB_EMIT (R244) -/

/-- A malformed CRIB_EMIT or SAMPLE counted (Table 9.14). -/
def Hw.smpMalformed (c : Cx) (s : Hw) : Hw := s.incStl R.SMP_BAD_MALFORMED c.n

/-- Whether a CRIB_EMIT is malformed. -/
def emitBad (b : Bytes) : Bool :=
  let so := fld b 4 4
  b.length != 64 || decide (31 < fld b 1 1) || decide (7 < fld b 2 1) || decide (7 < fld b 3 1) || (so != 0xFFFFFFFF && so % 16 != 0) ||
  fld b 8 4 % 64 != 0 || decide (0x1000000 < fld b 0xC 4) || decide (52000 < fld b 0x10 4) ||
  (so == 0xFFFFFFFF && fld b 0x14 2 != 0xFFFF) || (fld b 0xC 4 == 0 && fld b 0x16 2 != 0xFFFF) || !(zeroAt b 0x18 40)

/-- A bound sequence of a pen changed. -/
def Hw.modBound (s : Hw) (p : Nat) (b : Bound) (f : Bound → Bound) : Hw :=
  s.modPen p fun ps => { ps with bound := ps.bound.map fun x => if x.same b then f x else x }

/-- What a CRIB_EMIT puts into its sequence's entry: token, state, flags from the sampler record, bytes written. -/
def Bound.emit (b : Bound) (smp : Option Bytes) (trunc : Bool) (outB : Nat) : Bound :=
  let t := if trunc then 64 else 0
  match smp with
  | none => { b with emitted := true, token := 0xFFFFFFFF, flags := t, outB := outB }
  | some r =>
    let fl := fld r 8 1
    { b with emitted := true, token := fld r 0 4, state := fld r 4 2, outB := outB,
             flags := t + (if bit fl 0 then 16 else 0) + (if bit fl 1 then 32 else 0) }

/-- The local part of a CRIB_EMIT for bound sequence `b`: the copy to the host, the fields of the entry. -/
def Run.emitLocal (r : Run) (c : Cx) (d : Nat) (b : Bound) (smp data : List Ext) (cmd : Bytes) : Run :=
  let (s, m, full) := r.hw.readStart c.n c.taskWord [fld cmd 0x14 2, fld cmd 0x16 2].eraseDups
  let r := ({ r with hw := s }).each (smp ++ data) fun x r => r.senseExt c x
  let s := r.hw
  let m := m ||| r.extMarks c (smp ++ data)
  let rec' := (smp.head?).map (r.ext c)
  let dLen := fld cmd 0xC 4
  let addr := fld b.entry 0x20 8
  let room := if addr = 0 then 0 else fld b.entry 0x28 4
  let k := min dLen room
  let fn := s.fnOf b.tenant
  let ok := s.dmaOk fn addr k true
  let r := if ok then r.writeHost addr ((data.head?.map (r.ext c)).getD [] |>.take k) else r.on fun s => s.dmaReject fn addr true
  r.on fun s =>
    let s := s.modBound c.p b fun x => { x.emit rec' (decide (room < dLen)) (if ok then k else 0) with
      data := if s.mirrored c.p then (data.head?.map (r.ext c)).getD [] else [] }
    let s := s.modPen c.p fun ps => { ps with emits := (c.frame, b.pos) :: ps.emits.filter fun e => ps.frames.any fun x => x.frame == e.1 }
    let code := if bit m 1 then [Crib.SCHEDULE_FAULT] else if bit m 0 || !ok then [Crib.POISONED_OUTPUT] else []
    let s := s.each code fun k s => s.blame c.p (fun x => x.same b) k
    s.detach c d { c.detached 0x13 cmd with key := fld cmd 1 1, reads := full.map fun i => (c.n, i) }

/-- CRIB_EMIT (R244): a second one for a position is CRIB_DUP, also once the first one's entry is written; a position with no bound
sequence has nothing to answer; none
starts in a DRAINING pen, and one for a disabled tenant writes nothing (R348, R351). -/
def execCribEmit (n : StallId) (i : Issue) (cmd : Bytes) (s : State) : Host.Outcome State Fault Refusal :=
  s.runStall n.val 6 i fun c r =>
      if emitBad cmd then r.malformed c 0x13 (Hw.smpMalformed c) [] []
      else
        let smp := if fld cmd 4 4 = 0xFFFFFFFF then [] else [(⟨fld cmd 2 1, fld cmd 4 4, 16⟩ : Ext)]
        let data := if fld cmd 0xC 4 = 0 then [] else [(⟨fld cmd 3 1, fld cmd 8 4, fld cmd 0xC 4⟩ : Ext)]
        let x := r.hw.extFault c (smp ++ data)
        if !x.none? then r.extFaulted c x [] []
        else
          match (r.hw.pen c.p).bound.find? fun b => b.frame == c.frame && b.pos == fld cmd 1 1 with
          | none => if (r.hw.pen c.p).emits.contains (c.frame, fld cmd 1 1) then r.on fun s => s.logCx c E.CRIB_DUP 0 0xFFFF (fld cmd 1 1) else r
          | some b =>
            if !(r.hw.penRun c.p) || (r.hw.ten b.tenant).disabling.isSome || (r.hw.pen c.p).yoke.demote.isSome then r
            else if b.emitted then r.on fun s => s.logCx c E.CRIB_DUP 0 0xFFFF b.pos
            else match r.hw.freeSlot c.n c.u0 with
              | none => r
              | some d => r.emitLocal c d b smp data cmd

/-! ## Host read completions (R394) -/

/-- HOST_READ_COMPLETION: the data of a detached host read is there; an error or a timeout delivers it poisoned and counts. -/
def execHostReadCompletion (n : StallId) (d : Fin 8) (res : Completion) (s : State) : Host.Outcome State Fault Refusal :=
  s.onHw fun h => match Tbl.find? d.val (h.stl n.val).det with
    | none => h
    | some x =>
      if x.op = 0x12 ∧ x.waits = 1 then
        (h.cplErr res).modStl n.val fun t => { t with det := Tbl.insert d.val { x with waits := 0, poison := x.poison ||| (if res = .ok then 0 else 1) } t.det }
      else h

end Sys2Proof.Machine
end

