-- ==== Sys2Proof/Machine/Lnu.lean ====
section
/-! DEFINITION. The log-number unit and what the VPU does for output conversion: LNU_OP, CVD_LOAD, GEN_BIND and GEN_UNBIND
(05_lns_formats_outliers.md). -/

namespace Sys2Proof.Machine

/-- A malformed LNU_OP, CVD_LOAD, GEN_BIND or GEN_UNBIND counted (Table 5.11). -/
def Hw.lnuMalformed (c : Cx) (s : Hw) : Hw := s.incStl R.STL_LNU_FAULT_MALFORMED c.n

/-! ## LNU_OP (Table 5.3) -/

/-- The fields of an LNU_OP command. -/
structure LnuOp where
  func   : Nat
  bT     : Bool
  accIn  : Bool
  t      : Nat
  fmt    : Nat
  k      : Nat
  c      : Nat
  aReg   : Nat
  bReg   : Nat
  oReg   : Nat
  aOff   : Nat
  aStr   : Nat
  bOff   : Nat
  bStr   : Nat
  oOff   : Nat
  oStr   : Nat
  bound  : Nat
  scale  : Nat
  eps    : Nat
  causal : Nat
  slotA  : Nat
  slotB  : Nat
  slotO  : Nat
deriving DecidableEq, Repr

/-- The fields read from the command's 64 bytes. -/
def LnuOp.of (b : Bytes) : LnuOp :=
  let ctl := fld b 1 1
  { func := ctl % 8, bT := bit ctl 3, accIn := bit ctl 4, t := fld b 2 1 + 1, fmt := fld b 3 1, k := fld b 4 2, c := fld b 6 2,
    aReg := fld b 8 1, bReg := fld b 9 1, oReg := fld b 0xA 1, aOff := fld b 0xC 4, aStr := fld b 0x10 4, bOff := fld b 0x14 4,
    bStr := fld b 0x18 4, oOff := fld b 0x1C 4, oStr := fld b 0x20 4, bound := fld b 0x24 4, scale := fld b 0x28 2,
    eps := fld b 0x2A 2, causal := fld b 0x2C 2, slotA := fld b 0x30 2, slotB := fld b 0x32 2, slotO := fld b 0x34 2 }

/-- Columns of the output: K for NORM, else C. -/
def LnuOp.outCols (f : LnuOp) : Nat := if f.func = 2 then f.k else f.c

/-- Columns of a row of A: K for DOT and NORM, else C. -/
def LnuOp.aCols (f : LnuOp) : Nat := if f.func = 0 ∨ f.func = 2 then f.k else f.c

/-- C_max (Table 5.4). -/
def LnuOp.cMax (f : LnuOp) : Nat :=
  let w := cdiv (fmtBytes f.fmt (f.t * f.outCols)) 64
  let r := f.t * f.c
  match f.func with
  | 0 => 16 + cdiv r 16 * cdiv f.k 64 + w + (if f.accIn then cdiv r 16 else 0)
  | 1 => 16 + 3 * cdiv r 1024 + w
  | 2 => 16 + 2 * cdiv (f.t * f.k) 1024 + w
  | _ => 16 + cdiv r 1024 + w

/-- Whether a command is malformed (R122, R123, R128 to R130). -/
def LnuOp.bad (f : LnuOp) (s : Hw) (n : Nat) (b : Bytes) : Bool :=
  let m := f.fmt % 16
  b.length != 64 || decide (31 < fld b 1 1) || decide (4 < f.func) || decide (64 < f.t) || decide (f.k = 0) || decide (16384 < f.k) ||
  (f.func != 0 && f.func != 2 && f.k != 1) || decide (f.c = 0) || decide (4096 < f.c) || (f.func == 2 && f.c != 1) ||
  decide (7 < f.aReg) || decide (7 < f.bReg) || decide (7 < f.oReg) || !(zeroAt b 0x0B 1) || f.aOff % 64 != 0 || f.aStr % 64 != 0 ||
  f.bOff % 64 != 0 || f.bStr % 64 != 0 || f.oOff % 64 != 0 || f.oStr % 64 != 0 || (f.func != 2 && f.eps != 0x4000) ||
  !(zeroAt b 0x2E 2) || !(zeroAt b 0x36 10) || (f.func == 1 && f.slotB != 0xFFFF) || (f.accIn && f.fmt != 0) ||
  ((f.func == 1 || f.func == 2) && (m == 1 || m == 2 || m == 4)) || s.fmtBad n f.fmt f.oOff f.oStr f.outCols ||
  decide (52000 < f.bound) || decide (f.bound < f.cMax)

def LnuOp.aExts (f : LnuOp) : List Ext := rowExts f.aReg f.aOff f.aStr f.t (2 * f.aCols)

/-- Rows and columns of B as its elements are named: C by K for DOT, 1 by K for NORM, T by C for EW_MUL and EW_ADD. -/
def LnuOp.bShape (f : LnuOp) : Nat × Nat := if f.func = 0 then (f.c, f.k) else if f.func = 2 then (1, f.k) else (f.t, f.c)

def LnuOp.bExts (f : LnuOp) : List Ext :=
  let (x, y) := f.bShape
  if f.func = 1 then [] else if f.bT then rowExts f.bReg f.bOff f.bStr y (2 * x) else rowExts f.bReg f.bOff f.bStr x (2 * y)

/-- The LNS16 numbers of a row of bytes. -/
def lns16s (k : Nat) (bs : Bytes) : List Lns := (chunks 2 k bs).map fun b => Lns.of16 (leNat b)

/-- The numbers of results with their events, and the events joined. -/
def lnsJoin (ps : List (Lns × LnsEv)) (e : LnsEv) : List Lns × LnsEv := (ps.map (·.1), ps.foldl (fun e p => e.add p.2) e)

/-- Rows become columns; `n` is the number of columns. -/
def transpose {α : Type} (n : Nat) (rows : List (List α)) : List (List α) :=
  (List.range n).map fun i => rows.filterMap fun r => r[i]?

/-- The rows of B: row `x` holds B(x, y) for every y. -/
def Run.bRows (r : Run) (c : Cx) (f : LnuOp) : List (List Lns) :=
  let (x, y) := f.bShape
  if f.bT then transpose x (f.bExts.map fun e => lns16s x (r.ext c e)) else f.bExts.map fun e => lns16s y (r.ext c e)

/-- Products of two rows, with their events. -/
def mulRows (a b : List Lns) : List Lns × LnsEv := lnsJoin (List.zipWith Lns.mul a b) {}

/-- -log2 K in the LNS24 grid: exact for a power of two; else which neighbour is not stated (log 20). -/
def negLog2 (k : Nat) : Int :=
  let l := log2fix k
  if 2 ^ Nat.log2 k = k then -(l : Int) else -(l : Int) - (Config.pick 2 k 0 % 2 : Nat)

/-- The power -1/2 in the LNS24 grid; the rounding of an odd logarithm is not stated, nor the result for a number that is
not positive (log 20). -/
def Lns.rsqrt (a : Lns) : Lns :=
  if a.isZero || a.neg then Lns.of24 (Config.pick 3 a.l (if a.neg then 1 else 0))
  else if a.l % 2 = 0 then ⟨false, -a.l / 2⟩
  else ⟨false, -a.l / 2 + (Config.pick 4 a.l 0 % 2 : Nat)⟩

/-- log2 exp(x) in fixed point with 15 fraction bits: log2(log2 e) is added to L(x), and 2^L is taken. The rounding of the
constant and of the conversion are not stated (log 20). -/
def Lns.expLog (a : Lns) : Int :=
  if a.isZero then 0
  else
    let l : Int := a.l + 17326 + (Config.pick 5 0 0 % 2 : Nat)
    let m : Nat := pow2fix l / 2 ^ 49 + Config.pick 6 l 0 % 2
    if a.neg then -(m : Int) else m

/-- The greatest of a list, if it has one. -/
def maxOf : List Int → Option Int
  | [] => none
  | x :: xs => match maxOf xs with
    | none => some x
    | some y => some (max x y)

/-- One row of SOFTMAX over columns 0 on, of which the first `kept` are kept (R123). -/
def softmaxRow (scale : Lns) (kept : Nat) (a : List Lns) : List Lns × LnsEv :=
  let xs := a.map fun x => scale.mul x
  let e0 := (lnsJoin (xs.take kept) {}).2
  let ys := (xs.take kept).map fun x => x.1.expLog
  match maxOf ys with
  | none => (a.map fun _ => Lns.zero, {})
  | some m =>
    let es := ys.map fun y => Lns.fit false (y - m)
    let e1 := (lnsJoin es e0).2
    let (sum, e2) := lnsTree 12 (es.map (·.1) ++ List.replicate (a.length - kept) Lns.zero)
    let os := (ys.zip es).map fun x => if x.2.1.isZero then (Lns.zero, ({} : LnsEv)) else Lns.fit false (x.1 - m - sum.l)
    let (os, e) := lnsJoin os (e1.add e2)
    (os ++ List.replicate (a.length - kept) Lns.zero, e)

/-- One element of DOT: the sum of products, scaled. -/
def dotElem (scale : Lns) (a b : List Lns) : Lns × LnsEv :=
  let (ps, e0) := mulRows a b
  let (s, e1) := lnsReduce (cdiv ps.length 64) [] ps
  let (o, e2) := scale.mul s
  (o, (e0.add e1).add e2)

/-- One row of NORM (R123). -/
def normRow (eps : Lns) (a b : List Lns) : List Lns × LnsEv :=
  let (sq, e0) := mulRows a a
  let (s, e1) := lnsReduce (cdiv sq.length 64) [] sq
  let (mean, e2) := if s.isZero then (s, {}) else Lns.fit s.neg (s.l + negLog2 a.length)
  let (x, e3) := eps.add mean
  let r := x.rsqrt
  let (ab, e4) := mulRows a b
  let os := ab.map fun p => p.mul r
  lnsJoin os ((((e0.add e1).add e2).add e3).add e4)

/-- Row `t` of the output before ACC_IN. -/
def LnuOp.row (f : LnuOp) (bs : List (List Lns)) (t : Nat) (a : List Lns) : List Lns × LnsEv :=
  let scale := Lns.of16 f.scale
  let b := fun i => (bs[i]?).getD []
  match f.func with
  | 0 =>
    let os := bs.map fun b => dotElem scale a b
    lnsJoin os {}
  | 1 => softmaxRow scale (if f.causal = 0xFFFF then f.c else min f.c (f.causal + t + 1)) a
  | 2 => normRow (Lns.of16 f.eps) a (b 0)
  | 3 =>
    let (ps, e0) := mulRows a (b t)
    let os := ps.map fun p => scale.mul p
    lnsJoin os e0
  | _ =>
    let os := List.zipWith Lns.add a (b t)
    lnsJoin os {}

/-- The LNU's work: rows, then with ACC_IN one more sum with the LNS24 values in place. -/
def Run.lnuBody (c : Cx) (f : LnuOp) (m : Nat) (r : Run) : Run × Nat :=
  let bs := r.bRows c f
  let rows := (f.aExts.zip (List.range f.t)).map fun x =>
    let (os, e) := f.row bs x.2 (lns16s f.aCols (r.ext c x.1))
    if f.func = 0 ∧ f.accIn then
      let old := (chunks 4 f.c (r.ext c ⟨f.oReg, f.oOff + x.2 * f.oStr, 4 * f.c⟩)).map fun b => Lns.of24 (leNat b)
      let ss := List.zipWith Lns.add os old
      lnsJoin ss e
    else (os, e)
  let ev := rows.foldl (fun (e : LnsEv) x => e.add x.2) {}
  let r := r.on fun s => (s.lnsEvents c.n (s.tensorOf c.n f.fmt) ev).incStl R.STL_LNU_CMDS_CMDS c.n
  r.putRows c f.fmt f.oReg f.oOff f.oStr (rows.map fun x => x.1.map Val.log) m

/-- LNU_OP (R122, R123). -/
def execLnuOp (n : StallId) (i : Issue) (cmd : Bytes) (s : State) : Host.Outcome State Fault Refusal :=
  s.runStall n.val 3 i fun c r =>
      let f := LnuOp.of cmd
      let outs := r.hw.outExts c.n f.fmt f.oReg f.oOff f.oStr f.t f.outCols
      let accs := if f.func = 0 ∧ f.accIn then rowExts f.oReg f.oOff f.oStr f.t (4 * f.c) else []
      if f.bad r.hw c.n cmd then r.malformed c 0x31 (Hw.lnuMalformed c) outs [f.slotO]
      else match (r.hw.fmtGen c.n f.fmt).filter (fun g => !(r.hw.genOk c.n g c.eng)) with
        | some g => r.genUnbound c g outs [f.slotO]
        | none => r.command c (f.aExts ++ f.bExts ++ accs) outs [f.slotA, f.slotB] [f.slotO] (Run.lnuBody c f)

/-! ## CVD_LOAD (R129) -/

/-- STL_CVD_VALID brought up to date. -/
def Hw.showCvd (s : Hw) (n : Nat) : Hw :=
  s.set R.STL_CVD_VALID_VALID n ((s.stl n).cvd.foldl (fun m kv => m ||| 2 ^ kv.1) 0)

/-- CVD_LOAD: 32 bytes become descriptor INDEX; a descriptor that R129 rejects makes the command malformed and the index
invalid. -/
def execCvdLoad (n : StallId) (i : Issue) (f : CvdLoad) (s : State) : Host.Outcome State Fault Refusal :=
  s.runStall n.val 4 i fun c r =>
      if 15 < f.index ∨ 7 < f.region then r.malformed c 0x43 (Hw.lnuMalformed c) [] []
      else r.command c [⟨f.region, f.off, 32⟩] [] [] [] fun m r =>
        let b := r.ext c ⟨f.region, f.off, 32⟩
        if cvdBad b then
          ((r.on fun s => s.modStl c.n fun t => { t with cvd := Tbl.erase f.index t.cvd }).malformed c 0x43 (Hw.lnuMalformed c) [] [] |>.on
            fun s => s.showCvd c.n, m)
        else (r.on fun s => (s.modStl c.n fun t => { t with cvd := Tbl.insert f.index b t.cvd }).showCvd c.n, m)

/-! ## GEN_BIND and GEN_UNBIND (R138 to R140) -/

/-- Whether a GEN_BIND is malformed; `base` is its first counter (R138). -/
def genBindBad (b : Bytes) (base : Nat) : Bool :=
  let flags := fld b 3 1
  b.length != 64 || decide (7 < fld b 1 1) || decide (5 < fld b 2 1) || decide (3 < flags) || (!(bit flags 1) && fld b 4 2 != 0) ||
  decide (7 < fld b 6 1) || !(zeroAt b 7 1) || fld b 8 4 % 16 != 0 || decide (fld b 0xC 4 = 0) || decide (2 ^ 64 < base + fld b 0xC 4) ||
  decide (52000 < fld b 0x18 4) || decide (fld b 0x18 4 < 400) || !(zeroAt b 0x1C 36)

/-- Whether a ledger entry clashes with a new binding: same key, ranges that overlap, not both SHARED (R139). -/
def ledgerClash (key : Bytes) (lo hi : Nat) (shared : Bool) (e : Bytes × Nat × Nat × Bool) : Bool :=
  e.1 == key && decide (lo < e.2.2.1) && decide (e.2.1 < hi) && !(shared && e.2.2.2)

/-- A rejected binding: counted, logged with stall, generator and task; the generator stays unbound (R139). -/
def Hw.genReject (s : Hw) (c : Cx) (g : Nat) (full : Bool) : Hw :=
  ((if full then s.inc R.GEN_ALIAS_COUNT_LEDGER_FULL c.p else s.inc R.GEN_ALIAS_COUNT_ALIAS c.p)).logCx c E.GEN_ALIAS 0 g (if full then 1 else 0)

/-- A binding entered in the ledger and made (R139). -/
def Hw.genAccept (s : Hw) (c : Cx) (g : Nat) (b : GenBind) : Hw :=
  let s := s.modPen c.p fun ps => { ps with ledger := (b.key, b.next, b.stop, b.shared) :: ps.ledger }
  let used := (s.pen c.p).ledger.length
  let s := (s.set R.GEN_LEDGER_USED c.p used).raise R.GEN_LEDGER_PEAK c.p used
  (s.modStl c.n fun t => { t with gens := Tbl.insert g b t.gens }).showGen c.n g

/-- GEN_BIND (R138): an earlier binding of the generator is released first; the ledger decides. The first counter is the one that this
release leaves in the context. -/
def execGenBind (n : StallId) (i : Issue) (cmd : Bytes) (s : State) : Host.Outcome State Fault Refusal :=
  s.runStall n.val 4 i fun c r =>
      let g := fld cmd 1 1
      let flags := fld cmd 3 1
      let ctx := fld cmd 4 2
      let key := (⟨fld cmd 6 1, fld cmd 8 4, 16⟩ : Ext)
      let first := fun r : Run => if bit flags 1 then r.recGet c.p ctx 0x28 8 else fld cmd 0x10 8
      if genBindBad cmd (first (r.unbindGen c.n g)) then r.malformed c 0x44 (Hw.lnuMalformed c) [] []
      else r.command c [key] [] [] [] fun m r =>
        let r := r.unbindGen c.n g
        let k := r.ext c key
        let lo := first r
        let hi := lo + fld cmd 0xC 4
        let led := (r.hw.pen c.p).ledger
        let r := if led.any (ledgerClash k lo hi (bit flags 0)) then r.on fun s => s.genReject c g false
          else if 2048 ≤ led.length then r.on fun s => s.genReject c g true
          else r.on fun s => s.genAccept c g ⟨fld cmd 2 1, bit flags 0, bit flags 1, ctx, k, lo, hi, c.frame, c.task⟩
        (r, m)

/-- GEN_UNBIND (R140). -/
def execGenUnbind (n : StallId) (i : Issue) (gen : Nat) (s : State) : Host.Outcome State Fault Refusal :=
  s.runStall n.val 4 i fun c r => if 7 < gen then r.malformed c 0x45 (Hw.lnuMalformed c) [] [] else r.unbindGen c.n gen

end Sys2Proof.Machine
end

