-- ==== Sys2Proof/Machine/Mac.lean ====
section
/-! DEFINITION. The arithmetic that the dense array, the table path, the sparse engine and ANP_CHECK share
(04_ternary_arithmetic.md): quintets, activation planes, lane-group partials, accumulator banks, the outlier side path at
the join. -/

namespace Sys2Proof.Machine

/-! ## Quintets and tiles (R81 to R84) -/

/-- The trits of a quintet byte, none for a corrupt one (R81). -/
def quintet (b : Nat) : Option (List Int) :=
  if 242 < b then none else some ((List.range 5).map fun i => ((b / 3 ^ i % 3 : Nat) : Int) - 1)

/-- The five rows of weights of a quintet group, and the offsets of its corrupt bytes; a corrupt byte gives zeros. -/
def groupRows (g : Bytes) : List (List Int) × List Nat :=
  let qs := g.map fun b => quintet b.toNat
  let ts := qs.map fun q => q.getD [0, 0, 0, 0, 0]
  ((List.range 5).map fun i => ts.map fun t => (t[i]?).getD 0,
   (List.range qs.length).filter fun i => ((qs[i]?).getD none).isNone)

/-- The weight rows of a quintet tile of `rows` rows (R82), trits of rows beyond it ignored (R83), and the offsets of its
corrupt bytes. -/
def tileRows (bs : Bytes) (rows : Nat) : List (List Int) × List Nat :=
  let gs := (chunks 256 (cdiv rows 5) bs).map groupRows
  ((gs.flatMap (·.1)).take rows,
   ((gs.zip (List.range gs.length)).flatMap fun x => x.1.2.map (256 * x.2 + ·)))

/-! ## Planes (R85 to R87, R97) -/

/-- Two rows of numbers added. -/
def addVec (a b : List Int) : List Int := List.zipWith (· + ·) a b

/-- The sum of the weight rows whose value has bit `p` set: the rows follow value `k` on. -/
def planeSum (cols bitsW p : Nat) (a : Nat) : Nat → List (List Int) → List Int
  | _, [] => List.replicate cols 0
  | k, w :: ws => if bit a (bitsW * k + p) then addVec w (planeSum cols bitsW p a (k + 1) ws) else planeSum cols bitsW p a (k + 1) ws

/-- Whether plane `p` is 0 over `n` values from value `k` on. -/
def planeZero (bitsW p a : Nat) (k n : Nat) : Bool := (List.range n).all fun i => !(bit a (bitsW * (k + i) + p))

/-- Two rows added with saturation to 32 bits, and how many entries saturated (R93). -/
def satVec (a b : List Int) : List Int × Nat :=
  let r := (List.zipWith (· + ·) a b).map (saturate 32)
  (r.map (·.1), (r.filter (·.2)).length)

/-- One lane group over one token: its 64 weight rows (values from `k` on), the planes from the highest to the lowest, the
block shifts of its halves; the partial starts at 0. Answers the partial, the saturations and the planes not skipped
(R89, R97). -/
def laneToken (cols bitsW : Nat) (signed : Bool) (skip : Bool) (a k : Nat) (ws : List (List Int)) (sLo sHi : Nat) (planes : List Nat) :
    List Int × Nat × Nat :=
  planes.foldl (fun (acc : List Int × Nat × Nat) p =>
    if skip && planeZero bitsW p a k ws.length then acc
    else
      let lo := (planeSum cols bitsW p a k (ws.take 32)).map (· * (2 : Int) ^ (p + sLo))
      let hi := (planeSum cols bitsW p a (k + 32) (ws.drop 32)).map (· * (2 : Int) ^ (p + sHi))
      let d := addVec lo hi
      let d := if signed && p + 1 == bitsW then d.map (- ·) else d
      let (v, n) := satVec acc.1 d
      (v, acc.2.1 + n, acc.2.2 + 1)) (List.replicate cols 0, 0, 0)

/-- What one command's pass over its tokens gives: for each token the sum of the lane groups' partials, the saturations, and
for each lane group the planes it ran. -/
structure Pass where
  sums : List (List Int)
  sat  : Nat
  runs : List Nat
deriving DecidableEq, Repr

/-- A pass of weight rows over tokens: lane groups of 64 rows; `shift t j` is the shift of block `j` of token `t`. -/
def macPass (cols bitsW : Nat) (signed skip : Bool) (acts : List Nat) (ws : List (List Int)) (shift : Nat → Nat → Nat) (planes : List Nat) : Pass :=
  let lanes := chunks 64 (cdiv ws.length 64) ws
  let byTok := (acts.zip (List.range acts.length)).map fun a =>
    (lanes.zip (List.range lanes.length)).map fun l =>
      laneToken cols bitsW signed skip a.1 (64 * l.2) l.1 (shift a.2 (2 * l.2)) (shift a.2 (2 * l.2 + 1)) planes
  { sums := byTok.map fun ls => ls.foldl (fun v l => addVec v l.1) (List.replicate cols 0)
    sat := (byTok.map fun ls => (ls.map (·.2.1)).sum).sum
    runs := (List.range lanes.length).map fun g => (byTok.map fun ls => ((ls[g]?).map (·.2.2)).getD 0).sum }

/-! ## Block exponents and outlier slots (R87, R88, R136, R148) -/

/-- The block shift of an exponent byte, and whether it was clamped (R87). -/
def blockShiftOf (e base : Nat) : Nat × Bool := if e < base then (0, true) else if 15 < e - base then (15, true) else (e - base, false)

/-- The integer of an outlier slot's LNS16 value, saturated to 32 bits, and whether it saturated (R136). Only L = -1, which is 0.5, can tie;
it rounds to the even 0 (DESIGN CHOICE, log 20). -/
def ospValue (w : Nat) : Int × Bool :=
  let a := Lns.of16 w
  if a.isZero then (0, false)
  else
    let m := roundAt none (pow2fix a.l) (2 ^ 64)
    saturate 32 (if a.neg then -m else m)

/-- The contributions of one token's slots to the columns: `width` bounds a slot's column, `weight h` gives the weights of
that input. Answers the row, the slots ignored and the values that saturated. -/
def ospRow (cols width : Nat) (weight : Nat → List Int) (slots : Bytes) : List Int × Nat × Nat :=
  (List.range 64).foldl (fun (a : List Int × Nat × Nat) i =>
    let w := fld slots (4 * i) 4
    let h := bits w 16 11
    if !(bit w 31) then a
    else if width ≤ h then (a.1, a.2.1 + 1, a.2.2)
    else
      let (v, sat) := ospValue (w % 65536)
      (addVec a.1 ((weight h).map (· * v)), a.2.1, a.2.2 + (if sat then 1 else 0))) (List.replicate cols 0, 0, 0)

/-! ## Banks (R90 to R94) -/

/-- A bank of a stall. -/
def Hw.bank (s : Hw) (n b : Nat) : Bank := Tbl.get {} b (s.stl n).banks

/-- Bank ownership and poison as STL_STATUS shows them. -/
def Hw.showBanks (s : Hw) (n : Nat) : Hw :=
  let own := fun lo k => (List.range k).foldl (fun m i => m + (if (s.bank n (lo + i)).owner.isSome then 2 ^ i else 0)) 0
  let poi := fun lo k => (List.range k).foldl (fun m i => m + (if (s.bank n (lo + i)).poison ≠ 0 then 2 ^ i else 0)) 0
  (((s.set R.STL_STATUS_TDA_BANK_OWNED n (own 0 4)).set R.STL_STATUS_TDA_BANK_POISON n (poi 0 4)).set
    R.STL_STATUS_LUT_BANK_OWNED n (own 4 2)).set R.STL_STATUS_LUT_BANK_POISON n (poi 4 2)

/-- A bank set. -/
def Hw.setBank (s : Hw) (n b : Nat) (x : Bank) : Hw := (s.modStl n fun t => { t with banks := Tbl.set {} b x t.banks }).showBanks n

/-- Row `t` of a bank's accumulators. -/
def Bank.row (b : Bank) (t : Nat) : List Int :=
  let r := b.acc.filter fun kv => kv.1 / 256 == t
  (List.range 256).map fun c => Tbl.get 0 (256 * t + c) r

/-- The rows of tokens 0 on replaced. -/
def Bank.setRows (b : Bank) (rows : List (List Int)) : Tbl Int :=
  ((rows.zip (List.range rows.length)).flatMap fun r =>
    ((r.1.zip (List.range r.1.length)).filter fun x => x.1 != 0).map fun x => (256 * r.2 + x.2, x.1)) ++
    b.acc.filter fun kv => decide (256 * rows.length ≤ kv.1)

/-- Rows added to a bank's rows with saturation, columns beyond them kept; answers the rows and the saturations. -/
def Bank.addRows (b : Bank) (rows : List (List Int)) : List (List Int) × Nat :=
  let r := (rows.zip (List.range rows.length)).map fun x =>
    let old := b.row x.2
    let (v, n) := satVec (old.take x.1.length) x.1
    (v ++ old.drop x.1.length, n)
  (r.map (·.1), (r.map (·.2)).sum)

/-- The number a command gives bank `b` of its engine (ACC_BANK). -/
def bankNum (b : Nat) : Nat := if b < 4 then b else b % 2

/-- An ownership fault (R92): not executed; ACC_OWNER logged with bank, owner task and command task; output rows within
bound poisoned with both bits; output slots complete; requests SCHEDULE_FAULT; bank and owner unchanged. The owner task of an
unowned bank reads 0xFFFFFFFF (DESIGN CHOICE, log 64). -/
def Run.ownerFault (r : Run) (c : Cx) (b : Nat) (count : Hw → Hw) (outs : List Ext) (slots : List Nat) : Run :=
  let r := r.on fun s =>
    ((count s).logCx c E.ACC_OWNER 0 (bankNum b) (((s.bank c.n b).owner.map (·.2)).getD 0xFFFFFFFF)).passSlots c slots
  let r := r.each outs fun x r => r.poisonExt c.n c.eng c.tk 3 x
  r.on fun s => s.blameCx c Crib.SCHEDULE_FAULT

/-- What ACC_OP asks of a bank: `wait` is a clearing command that another task's bank keeps from starting (R91), `fault` a
command without its bank (R92). -/
inductive BankGate where
  | go | wait | fault
deriving DecidableEq, Repr

/-- The gate of a command on its bank. -/
def Hw.bankGate (s : Hw) (c : Cx) (b op : Nat) : BankGate :=
  let o := (s.bank c.n b).owner
  if op = 0 ∨ op = 3 then (if o = none ∨ o = some (c.frame, c.task) then .go else .wait)
  else if o = some (c.frame, c.task) then .go else .fault

/-- The bank a chain's command works on: cleared, poison and all, by ACC_OP 0 and 3. -/
def Hw.openBank (s : Hw) (c : Cx) (b op : Nat) : Bank :=
  if op = 0 ∨ op = 3 then { owner := some (c.frame, c.task) } else s.bank c.n b

/-- Corrupt weight bytes counted and logged, each with its address (Table 4.9). -/
def Hw.quintetBad (s : Hw) (c : Cx) (base : Nat) (offs : List Nat) : Hw :=
  s.each offs fun o s => ((s.incStl R.STL_BAD_QUINTET_BAD c.n).logCx c E.QUINTET_BAD (base + o) 0xFFFF 0).lastErr c 1

/-! ## Operands -/

/-- Bytes of `k` values of `b` bits. -/
def valBytes (k b : Nat) : Nat := (k * b + 7) / 8

/-- The rows of an operand, each as one little-endian number. -/
def Run.actRows (r : Run) (c : Cx) (xs : List Ext) : List Nat := xs.map fun x => leNat (r.ext c x)

/-- The end of a chain's command: the accumulators take the sums, and ACC_OP 2 and 3 write the rows out and release the
bank, whose poison bit stays until a clearing command (Table 4.1, R94). `m` is the poison of the operands. Answers the run and the
poison of what it leaves. -/
def Run.closeBank (r : Run) (c : Cx) (b op : Nat) (bank : Bank) (rows : List (List Int)) (cols fmt oReg oOff oStride m : Nat) : Run × Nat :=
  let bank := { bank with acc := bank.setRows rows, poison := bank.poison ||| m }
  if op = 2 ∨ op = 3 then
    let (r, m) := r.putRows c fmt oReg oOff oStride (rows.map fun x => (x.take cols).map Val.int) bank.poison
    (r.on fun s => s.setBank c.n b { bank with owner := none }, m)
  else (r.on fun s => s.setBank c.n b bank, m)

end Sys2Proof.Machine
end

