-- ==== Sys2Proof/Machine/Keccak.lean ====
section
/-! DEFINITION. SHAKE256 and SHA3-512 (FIPS 202), which plans, truss images, prefix hashes and measurements use (R29,
R58, R256, R301, R382). -/

namespace Sys2Proof.Machine

/-! The state is one number of 1600 bits: lane (x, y) at bit 64 (x + 5y), so that plane y is the 320 bits from bit 320y on. -/

/-- A lane rotated left by `n`. -/
def laneRot (v n : Nat) : Nat := (v * 2 ^ n) % 2 ^ 64 + v / 2 ^ (64 - n)

/-- The lanes of a plane moved up by `k` places, round the plane. -/
def planeUp (k p : Nat) : Nat := (p * 2 ^ (64 * k)) % 2 ^ 320 + p / 2 ^ (320 - 64 * k)

/-- A number put into each of `n` places that lie `w` bits apart. -/
def spread (w : Nat) : Nat → Nat → Nat
  | 0, _ => 0
  | n + 1, v => v + spread w n v * 2 ^ w

/-- Every lane of a plane rotated left by one: no bit crosses into the next lane. -/
def planeTwist (p : Nat) : Nat :=
  ((p &&& spread 64 5 (2 ^ 63 - 1)) * 2) ||| ((p / 2 ^ 63) &&& spread 64 5 1)

/-- Theta: each lane takes the parity of the column before it and that of the column after it, rotated. -/
def keccakTheta (s : Nat) : Nat :=
  let c := (List.range 5).foldl (fun c y => c ^^^ bits s (320 * y) 320) 0
  s ^^^ spread 320 5 (planeUp 1 c ^^^ planeUp 4 (planeTwist c))

/-- Rho and pi on the lanes met from (x, y) on, the `t`-th being rotated by the triangular number of `t` and moved to (y, 2x + 3y); the walk
of 24 steps from (1, 0) meets every lane but (0, 0), which stays. -/
def keccakWalk (s : Nat) : Nat → Nat → Nat → Nat → Nat
  | 0, _, _, _ => bits s 0 64
  | n + 1, t, x, y =>
    let z := (2 * x + 3 * y) % 5
    laneRot (bits s (64 * (x + 5 * y)) 64) (t * (t + 1) / 2 % 64) * 2 ^ (64 * (y + 5 * z)) + keccakWalk s n (t + 1) y z

/-- Chi on one plane. -/
def chiPlane (p : Nat) : Nat := p ^^^ ((2 ^ 320 - 1 - planeUp 4 p) &&& planeUp 3 p)

/-- Chi on all planes. -/
def keccakChi (s : Nat) : Nat := ((List.range 5).map fun y => chiPlane (bits s (320 * y) 320) * 2 ^ (320 * y)).sum

/-- Iota's constant of a round from its register (FIPS 202, Algorithm 5): the register's low bits of seven steps stand at bits 2^j - 1.
Answers the constant and the register after the steps. -/
def keccakIota (g : Nat) : Nat × Nat :=
  (List.range 7).foldl (fun (a : Nat × Nat) j =>
    (a.1 + a.2 % 2 * 2 ^ (2 ^ j - 1), if 128 ≤ a.2 then (2 * a.2 - 256) ^^^ 0x71 else 2 * a.2)) (0, g)

/-- Rounds of Keccak-f[1600]; `g` is the register of the round constants. -/
def keccakRounds : Nat → Nat → Nat → Nat
  | 0, _, s => s
  | n + 1, g, s =>
    let (rc, g) := keccakIota g
    keccakRounds n g (keccakChi (keccakWalk (keccakTheta s) 24 1 1 0) ^^^ rc)

/-- Keccak-f[1600]. -/
def keccakF (s : Nat) : Nat := keccakRounds 24 1 s

/-- The sponge absorbs its padded input block by block. -/
def absorb (rate : Nat) : Nat → Bytes → Nat → Nat
  | 0, _, st => st
  | n + 1, bs, st => absorb rate n (bs.drop rate) (keccakF (st ^^^ leNat (bs.take rate)))

/-- The sponge gives `n` blocks. -/
def squeeze (rate : Nat) : Nat → Nat → Bytes
  | 0, _ => []
  | n + 1, st => leBytes rate st ++ squeeze rate n (keccakF st)

/-- Input padded with the domain suffix and the final bit. -/
def keccakPad (rate suffix : Nat) (bs : Bytes) : Bytes :=
  let n := rate - bs.length % rate
  if n = 1 then bs ++ [BitVec.ofNat 8 (suffix ^^^ 0x80)]
  else bs ++ [BitVec.ofNat 8 suffix] ++ zeros (n - 2) ++ [0x80#8]

/-- A Keccak sponge of the given rate and suffix, `n` bytes out. -/
def sponge (rate suffix : Nat) (bs : Bytes) (n : Nat) : Bytes :=
  let p := keccakPad rate suffix bs
  (squeeze rate ((n + rate - 1) / rate) (absorb rate (p.length / rate) p 0)).take n

/-- The first `n` bytes of SHAKE256. -/
def shake256 (bs : Bytes) (n : Nat) : Bytes := sponge 136 0x1F bs n

/-- SHA3-512. -/
def sha3_512 (bs : Bytes) : Bytes := sponge 72 0x06 bs 64

end Sys2Proof.Machine
end

