-- ==== Sys2Proof/Machine/Pair.lean ====
section
/-! DEFINITION. What a yoked pen sends of its own accord (R301, R302): digests, the CTRL payload of Table 11.2, HELLO and
HEARTBEAT. -/

namespace Sys2Proof.Machine

/-- The YOKE section in force. -/
def Hw.yokeCfg (s : Hw) : Option YokeCfg := s.dev.truss.bind (·.yoke)

/-- Whether pen `p` is yoked. -/
def Hw.yoked (s : Hw) (p : Nat) : Bool := match s.yokeCfg with
  | some y => bit y.penMask p
  | none => false

/-- The yoke state of a pen (Table 11.4). -/
def Hw.yokeSt (s : Hw) (p : Nat) : Nat := s.get R.YOK_PEN_STATE_STATE p

/-- The yoke part of a pen changed. -/
def Hw.modYoke (s : Hw) (p : Nat) (f : YokeSt → YokeSt) : Hw := s.modPen p fun ps => { ps with yoke := f ps.yoke }

/-- The descriptor digest of a pen: PEN section, STAGE entry and the TENANT entries that name it (R301). -/
def Hw.descDigest (s : Hw) (p : Nat) : Bytes :=
  match s.dev.truss, s.desc p with
  | some t, some d =>
    let g := ((t.yoke.bind fun y => y.stage[p]?).map fun g => leBytes 4 g.start ++ leBytes 4 g.count).getD (zeros 8)
    (shake256 (d.raw ++ g ++ (t.tenants.filter fun x => bit x.penMask p).flatMap (·.raw)) 16).take 16
  | _, _ => zeros 16

/-- The service digest of a pen: KVM_POOL to KVM_WATER, the plan digests by slot, the sequencer and hub firmware versions
(R301). -/
def Hw.svcDigest (s : Hw) (p : Nat) : Bytes :=
  let regs := leBytes 4 (s.get R.KVM_POOL_BASE p) ++ leBytes 4 (s.get R.KVM_POOL_CNT_COUNT p) ++ leBytes 4 (s.get R.KVM_LOFT_BASE p) ++
    leBytes 4 (s.get R.KVM_LOFT_CNT_COUNT p) ++ leBytes 4 (s.get R.KVM_PFX_BASE p) ++ leBytes 4 (s.get R.KVM_PFX_CNT_COUNT p) ++
    leBytes 4 (s.get R.KVM_GEOM_G_KV p + 256 * s.get R.KVM_GEOM_MAX_SPANS p) ++
    leBytes 4 (s.get R.KVM_WATER_LOW_G p + 65536 * s.get R.KVM_WATER_HIGH_G p)
  let plans := (List.range 8).flatMap fun i => ((s.adm p i).map (·.digest)).getD []
  (shake256 (regs ++ plans ++ leBytes 4 (s.get R.SEC_IMG_VER_VERSION 1) ++ leBytes 4 (s.get R.SEC_IMG_VER_VERSION 3)) 16).take 16

/-- The CTRL payload (Table 11.2). -/
def ctrlPayload (sub p st commit posted jlen addr : Nat) (digest : Bytes) (tag : Nat) : Bytes :=
  leBytes 1 sub ++ leBytes 1 p ++ leBytes 1 st ++ [0#8] ++ leBytes 4 commit ++ leBytes 4 posted ++ leBytes 4 jlen ++ leBytes 8 addr ++
  padTo 16 digest ++ leBytes 4 tag ++ zeros 20

/-- A CTRL packet of pen `p`. -/
def Hw.ctrlPkt (s : Hw) (p sub commit posted jlen addr : Nat) (digest : Bytes) : Pkt :=
  { typ := 7, tc := 1, src := 0, dst := 0,
    payload := ctrlPayload sub p (s.yokeSt p) commit posted jlen addr digest ((s.yokeCfg.map (·.pairTag)).getD 0) }

/-- A CTRL packet sent to the partner. -/
def Hw.sendCtrl (s : Hw) (p sub commit posted jlen addr : Nat) (digest : Bytes) : Hw :=
  s.yokeSend p (s.ctrlPkt p sub commit posted jlen addr digest)

/-- HELLO (R301): after a whole-device commit and after each reset of a yoked pen. -/
def Hw.sendHello (s : Hw) (p : Nat) : Hw := if s.yoked p then s.sendCtrl p 1 0 0 0 0 (s.descDigest p) else s

/-- HEARTBEAT of a pen that is not UNPAIRED (R311); with ALT_PATH also on the routed port of the partner (R300). -/
def Hw.sendHeartbeat (s : Hw) (p : Nat) : Hw :=
  if !(s.yoked p) || s.yokeSt p == 0 then s
  else
    let s := s.sendCtrl p 2 0 0 0 0 (s.svcDigest p)
    match s.yokeCfg with
    | none => s
    | some y => match y.altPath, s.route y.partner with
      | true, some k => s.sendRel k p { s.ctrlPkt p 2 0 0 0 0 (s.svcDigest p) with
          dst := y.partner, pen := p, job := s.get R.ZLT_JOB_JOB_ID p }
      | _, _ => s

end Sys2Proof.Machine
end

