-- ==== Sys2Proof/Machine/Cde.lean ====
section
/-! DEFINITION. The compression engine (Sections 7 to 10 of 08_memory_compression.md): stream blocks, KV-45 blocks, the
unavailable-block list, CDE_CMD and TERNARISE. -/

namespace Sys2Proof.Machine

/-! ## Stream headers and codes (R212, R215, R218) -/

/-- A stream header (Table 8.3). -/
structure CwHdr where
  shared : Bool
  nblk   : Nat
  tail   : Nat
  idx    : Nat
  data   : Nat
  lens   : List Nat
deriving DecidableEq, Repr

/-- The 288 code lengths of a header. -/
def cwLens (b : Bytes) : List Nat := (List.range 288).map fun k => bits (fld b (0x40 + k / 2) 1) (4 * (k % 2)) 4

/-- The fields of a header as read. -/
def CwHdr.of (b : Bytes) : CwHdr :=
  { shared := bit (fld b 6 2) 0, nblk := fld b 8 4, tail := fld b 0xC 2, idx := fld b 0x18 4, data := fld b 0x1C 4, lens := cwLens b }

/-- Whether a code table is valid (R215). -/
def codeValid (lens : List Nat) : Bool :=
  let used := lens.filter (· != 0)
  !used.isEmpty && decide ((used.map fun n => 2 ^ (15 - n)).sum ≤ 2 ^ 15)

/-- Whether a header at `a` passes its checks (R218). -/
def cwHdrOk (a : Nat) (b : Bytes) : Bool :=
  let h := CwHdr.of b
  fld b 0 4 == 0x5357434B && fld b 4 2 == 1 && decide (fld b 6 2 < 2) && decide (1 ≤ h.nblk) && decide (h.nblk ≤ 16777216) &&
  decide (1 ≤ h.tail) && decide (h.tail ≤ 4096) && zeroAt b 0xE 2 && fld b 0x10 8 == 4096 * (h.nblk - 1) + h.tail && h.idx % 16 == 0 &&
  decide (0x100 ≤ h.idx) && h.data % 64 == 0 && decide (h.idx + 4 * (h.nblk + 1) ≤ h.data) && zeroAt b 0x20 32 && zeroAt b 0xD0 44 &&
  fld b 0xFC 4 == crc32c (b.take 252) && codeValid h.lens && a % 256 == 0

/-- The declared size of block `i` (R213). -/
def CwHdr.size (h : CwHdr) (i : Nat) : Nat := if i + 1 = h.nblk then min h.tail 4096 else 4096

/-- The symbols of code length `n`, rising. -/
def symsOf (lens : List Nat) (n : Nat) : List Nat := (List.range lens.length).filter fun k => lens[k]? == some n

/-- The canonical code as RFC 1951, Section 3.2.2, assigns it: for each length from 1 to 15 its first code and its symbols. -/
def codeTable (lens : List Nat) : List (Nat × List Nat) :=
  ((List.range 15).foldl (fun (a : Nat × List (Nat × List Nat)) n =>
    let syms := symsOf lens (n + 1)
    ((a.1 + syms.length) * 2, a.2 ++ [(a.1, syms)])) (0, [])).2

/-- The next symbol of a bit row: none where the bits end or match no code. -/
def nextSym : List (Nat × List Nat) → Nat → List Bool → Option (Nat × List Bool)
  | (first, syms) :: t, code, b :: bs =>
    let code := 2 * code + b.toNat
    match (if first ≤ code then syms[code - first]? else none) with
    | some s => some (s, bs)
    | none => nextSym t code bs
  | _, _, _ => none

/-- The bits of a row of bytes, least-significant first. -/
def bitsOfBytes (bs : Bytes) : List Bool := bs.flatMap fun b => (List.range 8).map b.getLsbD

/-- A row of bits packed into bytes, least-significant first. -/
def packBits (bs : List Bool) : Bytes :=
  (chunks 8 (cdiv bs.length 8) bs).map fun g => BitVec.ofNat 8 (g.foldr (fun b n => 2 * n + b.toNat) 0)

/-! ## Decoding and encoding blocks (R214 to R217) -/

/-- What a symbol stands for: a byte and how often. -/
def symRun (s : Nat) : Nat × Byte :=
  if s < 256 then (1, BitVec.ofNat 8 s) else if s < 268 then (2 ^ (s - 255), 0x79#8) else (2 ^ (s - 267), 0#8)

/-- The decoder of R216: `fuel` symbols at most; answers the dense bytes and whether the block is corrupt. -/
def cwDecode (tab : List (Nat × List Nat)) (dlen : Nat) : Nat → List Bool → Bytes → Bytes × Bool
  | 0, bs, out => (out, !(decide (bs.length < 8) && bs.all (! ·)))
  | fuel + 1, bs, out =>
    if dlen ≤ out.length then (out, !(decide (bs.length < 8) && bs.all (! ·)))
    else match nextSym tab 0 bs with
      | none => (padTo dlen out, true)
      | some (s, bs) =>
        if 280 ≤ s then (padTo dlen out, true)
        else
          let (run, v) := symRun s
          if dlen < out.length + run then (out ++ List.replicate (dlen - out.length) v, true)
          else cwDecode tab dlen fuel bs (out ++ List.replicate run v)

/-- The bits of a symbol's code, most-significant first. -/
def codeBits (tab : List (Nat × List Nat)) (s : Nat) : Option (List Bool) :=
  ((tab.zip (List.range 15)).findSome? fun x => (x.1.2.findIdx? (· == s)).map fun i =>
    (List.range (x.2 + 1)).map fun j => bit (x.1.1 + i) (x.2 - j))

/-- How many bytes equal to `v` a row begins with. -/
def runLen (v : Byte) : Bytes → Nat
  | [] => 0
  | b :: bs => if b = v then runLen v bs + 1 else 0

/-- The symbol the greedy encoder emits at the head of a row (R217), and how many bytes it stands for. -/
def pickSym (tab : List (Nat × List Nat)) (b : Byte) (bs : Bytes) : Nat × Nat :=
  let r := runLen b (b :: bs)
  let base := if b = 0x79#8 then 256 else 268
  let k := if (b = 0x79#8 ∨ b = 0#8) ∧ 2 ≤ r then
      ((List.range 12).filter fun k => decide (2 ^ (k + 1) ≤ r) && (codeBits tab (base + k)).isSome).getLast?
    else none
  match k with
  | some k => (base + k, 2 ^ (k + 1))
  | none => (b.toNat, 1)

/-- The greedy encoding of a row: none where a literal has no code. -/
def cwEncode (tab : List (Nat × List Nat)) : Nat → Bytes → Option (List Bool)
  | _, [] => some []
  | 0, _ => none
  | fuel + 1, b :: bs =>
    let (s, n) := pickSym tab b bs
    match codeBits tab s, cwEncode tab fuel ((b :: bs).drop n) with
    | some c, some rest => some (c ++ rest)
    | _, _ => none

/-- A stored block: header, payload, padding to 16 B (R214). -/
def storedBlock (dense payload : Bytes) : Bytes :=
  let b := leBytes 4 (crc32c dense) ++ leBytes 2 payload.length ++ zeros 2 ++ payload
  b ++ zeros ((16 - b.length % 16) % 16)

/-- The block as PACK stores it, and whether it is RAW (R217). -/
def cwStore (tab : List (Nat × List Nat)) (dense : Bytes) : Bytes × Bool :=
  let raw := storedBlock dense dense
  match (cwEncode tab dense.length dense).map packBits with
  | none => (raw, true)
  | some p => if raw.length ≤ (storedBlock dense p).length then (raw, true) else (storedBlock dense p, false)

/-! ## KV-45 (R223 to R226) -/

/-- The quotient |x| / s rounded to nearest, ties to even, for |x| = 2^(l/512) and s = 2^(e − 127) × (16 + sub) ÷ 16: how many
of the thresholds k + 1/2 it exceeds, compared exactly (R224). -/
def kvQuot (l : Int) (e sub : Nat) : Nat :=
  ((List.range 7).filter fun k => decide ((Nat.log2 (((2 * k + 1) * (16 + sub)) ^ 512) : Int) < l - 512 * ((e : Int) - 132))).length

/-- Whether s ≥ m ÷ 7 for m = 2^(l/512), compared exactly. -/
def kvFits (l : Int) (e sub : Nat) : Bool := decide (l ≤ (Nat.log2 ((7 * (16 + sub)) ^ 512) : Int) + 512 * ((e : Int) - 131))

/-- The pair (E, SUB) with the smallest s that satisfies s ≥ m ÷ 7. -/
def kvScale (l : Int) : Nat × Nat :=
  let e := ((List.range 255).find? fun e => kvFits l (e + 1) 15).getD 254 + 1
  (e, ((List.range 16).find? fun sub => kvFits l e sub).getD 15)

/-- The XOR of the nibbles of a row. -/
def xorNibbles (bs : Bytes) : Nat := bs.foldl (fun x b => x ^^^ b.toNat % 16 ^^^ b.toNat / 16) 0

/-- A KV-45 block of 32 LNS16 words (Table 8.6). -/
def kvEncode (ws : List Nat) : Bytes :=
  let xs := ws.map fun w => (bit w 15, signed 15 w)
  let live := xs.filter fun x => x.2 != -16384
  match live.map (·.2) with
  | [] => zeros 18
  | l :: ls =>
    let (e, sub) := kvScale (ls.foldl max l)
    let qs := xs.map fun x => if x.2 = -16384 then 0 else
      let q := kvQuot x.2 e sub
      if x.1 then (16 - q) % 16 else q
    let b := (List.range 16).map fun i => BitVec.ofNat 8 ((qs[2 * i]?).getD 0 + 16 * (qs[2 * i + 1]?).getD 0)
    let b := b ++ leBytes 1 e
    b ++ leBytes 1 (16 * sub + (xorNibbles b ^^^ sub))

/-- The LNS16 word of q × s, rounded to nearest (R116, R224). -/
def kvWord (q : Int) (e sub : Nat) : Nat :=
  if q = 0 ∨ e = 0 then 0x4000
  else
    let k := q.natAbs * (16 + sub)
    (Lns.narrow none ⟨decide (q < 0), (((Nat.log2 (k ^ 1024) + 1) / 2 : Nat) + 512 * ((e : Int) - 131)) * 64⟩).1

/-- The 32 words of a KV-45 block. -/
def kvDecode (b : Bytes) : List Nat :=
  (List.range 32).map fun i => kvWord (signed 4 (bits (fld b (i / 2) 1) (4 * (i % 2)) 4)) (fld b 16 1) (bits (fld b 17 1) 4 4)

/-! ## The command (Table 8.4) -/

/-- The fields of a CDE_CMD. -/
structure CdeCmd where
  op    : Nat
  arrEn : Bool
  ctr   : Nat
  slotI : Nat
  slotO : Nat
  src   : Nat
  dst   : Nat
  first : Nat
  count : Nat
  limit : Nat
  bound : Nat
deriving DecidableEq, Repr

/-- The fields read from the command's 64 bytes. -/
def CdeCmd.of (b : Bytes) : CdeCmd :=
  let ctl := fld b 1 1
  { op := ctl % 4, arrEn := bit ctl 2, ctr := fld b 2 1, slotI := fld b 4 2, slotO := fld b 6 2, src := fld b 8 8, dst := fld b 0x10 8,
    first := fld b 0x18 4, count := fld b 0x1C 4, limit := fld b 0x20 4, bound := fld b 0x24 4 }

/-- Whether the command works on a stream (UNPACK and PACK). -/
def CdeCmd.stream (f : CdeCmd) : Bool := decide (f.op < 2)

/-- The address of the stream header. -/
def CdeCmd.hdr (f : CdeCmd) : Nat := if f.op = 0 then f.src else f.dst

/-- Ten times the bound of Table 8.5 with its division term dropped. -/
def CdeCmd.minBound10 (f : CdeCmd) : Nat := 10000 + (if f.op = 0 then 25 else if f.op = 1 then 100 else 1) * f.count

/-- Whether an extent lies outside the pen's HBM and loft ranges and the slots of its scratchpads (R188); one that begins in them and
reaches an unpopulated address is an unpopulated-address access and does not (R23, R343). -/
def Hw.penLacks (s : Hw) (p a n : Nat) : Bool := match s.penSpd p a with
  | some k => decide (spdBase + (k + 1) * spdSlot < a + n)
  | none => s.outsidePen p a n

/-- The extents known before the header is read: source and destination. -/
def CdeCmd.exts (f : CdeCmd) : List (Nat × Nat) :=
  if f.op = 0 then [(f.src, 256), (f.dst, 4096 * (f.count - 1) + 1)]
  else if f.op = 1 then [(f.src, 4096 * (f.count - 1) + 1), (f.dst, 256)]
  else if f.op = 2 then [(f.src, 64 * f.count), (f.dst, 18 * f.count)] else [(f.src, 18 * f.count), (f.dst, 64 * f.count)]

/-- Whether a command is malformed before its header is read (R222). -/
def CdeCmd.bad (f : CdeCmd) (s : Hw) (p : Nat) (b : Bytes) : Bool :=
  b.length != 64 || decide (7 < fld b 1 1) || decide (63 < f.ctr) || !(zeroAt b 3 1) || decide (2 ^ 48 ≤ f.src) || decide (2 ^ 48 ≤ f.dst) ||
  (!f.stream && f.first != 0) || decide (f.count = 0) || decide ((if f.stream then 4096 else 65536) < f.count) ||
  (f.op != 1 && f.limit != 0) || decide (40000 < f.bound) || decide (10 * f.bound < f.minBound10) || !(zeroAt b 0x28 24) ||
  f.dst % 64 != 0 || (f.op == 2 && f.src % 2 != 0) || ((s.penSpd p f.src).isNone && f.slotI != 0xFFFF) ||
  ((s.penSpd p f.dst).isNone && f.slotO != 0xFFFF) || f.exts.any fun x => s.penLacks p x.1 x.2

/-! ## Moving data -/

/-- Bytes the CDE reads: from a scratchpad, or from memory for the pen. -/
def Run.cdeRead (r : Run) (h : Hx) (a n : Nat) : Bytes × Nat × Run :=
  (r.on fun s => s.inc R.CDE_BYTES_IN_BYTES h.m n).memRead (.pen h.p) a n

/-- Bytes the CDE writes. -/
def Run.cdeWrite (r : Run) (h : Hx) (a : Nat) (bs : Bytes) (m : Nat) : Run :=
  let r := r.on fun s => s.inc R.CDE_BYTES_OUT_BYTES h.m bs.length
  match r.hw.penSpd h.p a with
  | some n => r.remoteBytes n a bs m
  | none => r.memWrite a bs m

/-- An event counted, recorded and logged (Table 8.8): `code` is that of CDE_LAST_ERR. -/
def Hw.cdeEvent (s : Hw) (h : Hx) (f : Fld) (code : Nat) (e : Err) (addr detail : Nat) : Hw :=
  ((((s.inc f h.m).set R.CDE_LAST_ERR_CODE h.m code).set R.CDE_LAST_ERR_PEN h.m h.p).set R.CDE_LAST_ADDR_ADDR h.m addr).logHx h e addr 0xFFFF detail

/-! ## The unavailable-block list (R219, R353, R355) -/

/-- The hub whose list a stream belongs to: the one that holds its header; for a header outside HBM the command's (log 35). -/
def unavHub (h : Hx) (hdr : Nat) : Nat := if hdr < hbmEnd then hdr / stackSize / 2 else h.m

/-- The plan slot of a hub command. -/
def Hx.slot (h : Hx) : Nat := h.plan % 8

/-- The refetch range of a block: the whole lines that hold its two index entries and its stored bytes (R355). -/
def refetchRange (hdr : Nat) (b : Bytes) (i off len : Nat) : List (Nat × Nat) :=
  let h := CwHdr.of b
  let whole := fun a n : Nat => (a / 64 * 64, (a + n - 1) / 64 * 64 + 64 - a / 64 * 64)
  whole (hdr + h.idx + 4 * i) 8 :: if len = 0 then [] else [whole (hdr + h.data + 16 * off) len]

/-- A failing block of a SHARED stream enters the list: recorded with pen and slot, logged, the hub-error vector raised, its
refetch asked of the yoke partner or left to the host; a full list only counts it. -/
def Hw.listBlock (s : Hw) (h : Hx) (hdr i : Nat) (range : List (Nat × Nat)) : Hw :=
  let u := unavHub h hdr
  let l := Tbl.get [] u s.dev.unav
  if 64 ≤ l.length then s.inc R.MHB_UNAVAIL_OVERFLOW u
  else
    let yoke := s.is R.YOK_STATUS_PAIRED && (match s.yokeCfg with
      | some y => bit y.penMask h.p
      | none => false)
    let e : Unavail := { hdr := hdr, block := i, mask := [(h.p, h.slot)], state := if yoke then 1 else 2, listed := s.clk.frame, need := range }
    let s := ({ s with dev.unav := Tbl.insert u (l ++ [e]) s.dev.unav }).showUnav u
    let s := (s.log E.WEIGHT_UNAVAIL { kind := 1, unit := u, pen := h.p, task := h.taskWord, addr := hdr, detail := i }).msi 0 2
    let s := s.blameHx h Crib.WEIGHT_UNAVAILABLE
    if yoke then s.each range fun x s => s.sendCtrl h.p 5 0 0 x.2 x.1 [] else s.msi 0 2

/-- Whether a block is listed. -/
def Hw.listed (s : Hw) (u hdr i : Nat) : Bool := (Tbl.get [] u s.dev.unav).any fun e => e.hdr == hdr && e.block == i

/-- A command that meets a listed block adds its pen and slot to the mask. -/
def Hw.addMask (s : Hw) (u hdr i p slot : Nat) : Hw :=
  { s with dev.unav := Tbl.insert u ((Tbl.get [] u s.dev.unav).map fun e =>
      if e.hdr = hdr ∧ e.block = i ∧ !(e.mask.contains (p, slot)) then { e with mask := e.mask ++ [(p, slot)] } else e) s.dev.unav }

/-! ## UNPACK -/

/-- How a stored block came out. -/
inductive BlkEvent where
  | ok | poison | index | length | crc
deriving DecidableEq, Repr

/-- A stored block looked at: its place, its dense bytes and its event. `e0` and `e1` are index entries i and i + 1. -/
structure BlkRes where
  off  : Nat
  len  : Nat
  raw  : Bool
  out  : Bytes
  ev   : BlkEvent
deriving DecidableEq, Repr

/-- The extent of a block from its index entries: none where they give no length up to 4,112 B. -/
def blkExt (e0 e1 : Nat) : Option (Nat × Nat) :=
  let o := e0 % 2 ^ 31
  let n := e1 % 2 ^ 31
  if n < o + 1 ∨ 257 < n - o then none else some (o, 16 * (n - o))

/-- A block decoded from its stored bytes (R214, R216, R218). -/
def blkDecode (h : CwHdr) (i e0 off : Nat) (st : Bytes) (poisoned : Bool) : BlkRes :=
  let dlen := h.size i
  let clen := fld st 4 2
  let raw := bit e0 31
  if st.length < 8 + clen ∨ 8 + clen + 15 < st.length ∨ fld st 6 2 ≠ 0 ∨ (raw ∧ clen ≠ dlen) then
    ⟨off, st.length, raw, zeros dlen, if poisoned then .poison else .index⟩
  else
    let p := slice st 8 clen
    let (out, bad) := if raw then (p, false) else cwDecode (codeTable h.lens) dlen dlen (bitsOfBytes p) []
    ⟨off, st.length, raw, out, if poisoned then .poison else if bad then .length else if crc32c out = fld st 0 4 then .ok else .crc⟩

/-- Block `i` of the stream at `hdr` read and decoded: a poisoned line of its index entries or stored bytes is its event. -/
def Run.blkRead (r : Run) (h : Hx) (hd : CwHdr) (hdr i : Nat) : BlkRes × Run :=
  let (ib, im, r) := r.cdeRead h (hdr + hd.idx + 4 * i) 8
  match blkExt (fld ib 0 4) (fld ib 4 4) with
  | none => (⟨0, 0, false, zeros (hd.size i), if im = 0 then .index else .poison⟩, r)
  | some (o, n) =>
    let (st, sm, r) := r.cdeRead h (hdr + hd.data + 16 * o) n
    (blkDecode hd i (fld ib 0 4) o st (im ||| sm != 0), r)

/-- One block of an UNPACK, written at `a` with poison bits `m` beside its own. -/
def Run.unpackBlock (r : Run) (h : Hx) (hd : CwHdr) (hb : Bytes) (hdr i a m : Nat) : Run :=
  let u := unavHub h hdr
  if hd.shared && r.hw.listed u hdr i then
    let r := r.on fun s => ((s.inc R.CDE_ERR2_UNAVAIL h.m).addMask u hdr i h.p h.slot).blameHx h Crib.WEIGHT_UNAVAILABLE
    (r.cdeWrite h a (zeros (hd.size i)) (m ||| 1)).on fun s => s.blameHxPoison h (m ||| 1)
  else
    let (x, r) := r.blkRead h hd hdr i
    let bad := x.ev != .ok
    let r := r.on fun s =>
      let s := if x.ev = .index then s else (s.inc R.CDE_BLOCKS_BLOCKS h.m).inc R.CDE_RAW_RAW h.m x.raw.toNat
      let s := match x.ev with
        | .ok => s
        | .poison => s.inc R.CDE_ERR2_POISON_IN h.m
        | .index => s.cdeEvent h R.CDE_ERR_INDEX 3 E.CDE_INDEX hdr i
        | .length => s.cdeEvent h R.CDE_ERR_LENGTH 1 E.CDE_LENGTH hdr i
        | .crc => s.cdeEvent h R.CDE_ERR_CRC 2 E.CDE_CRC hdr i
      if bad && hd.shared then s.listBlock h hdr i (refetchRange hdr hb i x.off x.len) else s
    let m := if bad then m ||| 1 else m
    (r.cdeWrite h a x.out m).on fun s => s.blameHxPoison h m

/-- UNPACK (R221): a header that fails its checks gives zeros (R218). -/
def Run.cdeUnpack (r : Run) (h : Hx) (f : CdeCmd) (m : Nat) : Run :=
  let (hb, hm, r) := r.cdeRead h f.src 256
  let hd := CwHdr.of hb
  if cwHdrOk f.src hb then
    r.each (List.range f.count) fun k r => r.unpackBlock h hd hb f.src (f.first + k) (f.dst + 4096 * k) (m ||| hm)
  else
    let r := r.on fun s => s.cdeEvent h R.CDE_ERR_HDR 4 E.CDE_HDR f.src 0
    let r := r.each (List.range f.count) fun k r => r.cdeWrite h (f.dst + 4096 * k) (zeros (hd.size (f.first + k))) (m ||| 1)
    r.on fun s => s.blameHxPoison h (m ||| 1)

/-! ## PACK -/

/-- One block of a PACK: read, encoded, and written at unit `off` from DATA_OFF with its index entry; a block that would end
beyond the limit is read and not written, and stops the command. Answers the next free unit where it goes on. -/
def Run.packBlock (r : Run) (h : Hx) (hd : CwHdr) (f : CdeCmd) (off0 off k m : Nat) : Option Nat × Run :=
  let i := f.first + k
  let (dense, dm, r) := r.cdeRead h (f.src + 4096 * k) (hd.size i)
  let (st, raw) := cwStore (codeTable hd.lens) dense
  let m := m ||| dm
  if f.limit < 16 * (off - off0) + st.length then (none, r)
  else
    let r := r.on fun s => ((s.inc R.CDE_BLOCKS_BLOCKS h.m).inc R.CDE_RAW_RAW h.m raw.toNat).blameHxPoison h m
    let r := r.cdeWrite h (f.dst + hd.data + 16 * off) st m
    (some (off + st.length / 16), r.cdeWrite h (f.dst + hd.idx + 4 * i) (leBytes 4 (off + if raw then 2 ^ 31 else 0)) m)

/-- The blocks of a PACK from the `k`-th on, then the index entry behind the last one written; the RAW bit of an entry whose
block this command does not write is open (log 36). -/
def Run.packLoop (h : Hx) (hd : CwHdr) (f : CdeCmd) (off0 m : Nat) : Nat → Nat → Nat → Run → Run
  | fuel, off, k, r =>
    let close := fun r : Run =>
      let i := f.first + k
      let (v, s) := r.hw.draw
      let raw := if i = hd.nblk then 0 else v % 2
      if k = 0 then r
      else ({ r with hw := s }).cdeWrite h (f.dst + hd.idx + 4 * i) (leBytes 4 (off + 2 ^ 31 * raw)) m
    match fuel with
    | 0 => close r
    | fuel + 1 => match r.packBlock h hd f off0 off k m with
      | (some off, r) => Run.packLoop h hd f off0 m fuel off (k + 1) r
      | (none, r) => (close r).on fun s => (s.cdeEvent h R.CDE_ERR2_FULL 5 E.CDE_FULL f.dst (f.first + k)).blameHx h Crib.POISONED_OUTPUT

/-- PACK (R221). A header that fails its checks gives no block and no place to write one. -/
def Run.cdePack (r : Run) (h : Hx) (f : CdeCmd) (m : Nat) : Run :=
  let (hb, hm, r) := r.cdeRead h f.dst 256
  let hd := CwHdr.of hb
  if cwHdrOk f.dst hb then
    let (ib, im, r) := r.cdeRead h (f.dst + hd.idx + 4 * f.first) 4
    let off := fld ib 0 4 % 2 ^ 31
    Run.packLoop h hd f off (m ||| hm ||| im) f.count off 0 r
  else r.on fun s => (s.cdeEvent h R.CDE_ERR_HDR 4 E.CDE_HDR f.dst 0).blameHxPoison h (m ||| 1)

/-! ## KV-45 arrays -/

/-- KV_ENC (R224): each line written carries the poison of the blocks it holds. -/
def Run.kvEnc (r : Run) (h : Hx) (f : CdeCmd) (m : Nat) : Run :=
  let (bs, _, r) := r.cdeRead h f.src (64 * f.count)
  let ms := (List.range f.count).map fun k => m ||| r.readMarks (.pen h.p) (f.src + 64 * k) 64
  let blocks := (chunks 64 f.count bs).map fun b => kvEncode ((chunks 2 32 b).map leNat)
  let out := blocks.flatMap id
  let r := r.each (List.range (cdiv out.length 64)) fun j r =>
    let lo := 64 * j / 18
    let hi := min f.count ((64 * j + 63) / 18 + 1)
    r.cdeWrite h (f.dst + 64 * j) (slice out (64 * j) 64) (((ms.take hi).drop lo).foldl (· ||| ·) 0)
  r.on fun s => (s.inc R.CDE_KV_ZERO_BLK h.m (blocks.filter fun b => fld b 16 1 == 0).length).blameHxPoison h (ms.foldl (· ||| ·) 0)

/-- KV_DEC (R224, R226). -/
def Run.kvDec (r : Run) (h : Hx) (f : CdeCmd) (m : Nat) : Run :=
  let (bs, _, r) := r.cdeRead h f.src (18 * f.count)
  let ms := (List.range f.count).map fun k => r.readMarks (.pen h.p) (f.src + 18 * k) 18
  r.each (((chunks 18 f.count bs).zip ms).zip (List.range f.count)) fun y r =>
    let x := (y.1.1, y.2)
    let a := f.src + 18 * x.2
    let pm := y.1.2
    let bad := xorNibbles x.1 != 0
    let r := r.on fun s =>
      if pm ≠ 0 then s.inc R.CDE_ERR2_POISON_IN h.m
      else if bad then s.cdeEvent h R.CDE_KV_PARITY 6 E.KV45_PARITY a 0 else s
    let fail := pm != 0 || bad
    let m := m ||| pm ||| (if fail then 1 else 0)
    (r.cdeWrite h (f.dst + 64 * x.2) (if fail then (List.range 32).flatMap fun _ => leBytes 2 0x4000 else (kvDecode x.1).flatMap (leBytes 2)) m).on
      fun s => s.blameHxPoison h m

/-! ## CDE_CMD -/

/-- The extents of a stream command that its good header names: index entries, stored blocks with a length, dense data. -/
def Run.streamExts (r : Run) (f : CdeCmd) (hd : CwHdr) : List (Nat × Nat) :=
  let ent := fun i => r.readNat (f.hdr + hd.idx + 4 * i) 4
  let dense := 4096 * (f.count - 1) + hd.size (f.first + f.count - 1)
  let idx := (f.hdr + hd.idx + 4 * f.first, 4 * (f.count + 1))
  if f.op = 0 then
    [idx, (f.dst, dense)] ++ (List.range f.count).filterMap fun k =>
      (blkExt (ent (f.first + k)) (ent (f.first + k + 1))).map fun x => (f.hdr + hd.data + 16 * x.1, x.2)
  else [idx, (f.src, dense)] ++ (if f.limit = 0 then [] else [(f.hdr + hd.data + 16 * (ent f.first % 2 ^ 31), min f.limit (4112 * f.count))])

/-- The extents a command touches, and whether it is malformed: a stream command with a good header is judged by what its
header and index name (R222). -/
def Run.cdeCheck (r : Run) (p : Nat) (f : CdeCmd) (b : Bytes) : Bool × List (Nat × Nat) :=
  if f.bad r.hw p b then (true, [])
  else if f.stream then
    let hb := r.read f.hdr 256
    let hd := CwHdr.of hb
    if cwHdrOk f.hdr hb then
      if hd.nblk < f.first + f.count then (true, [])
      else
        let xs := f.exts ++ r.streamExts f hd
        (xs.any fun x => r.hw.penLacks p x.1 x.2, xs)
    else (false, f.exts)
  else (false, f.exts)

/-- The output slot of a command that does not run passes: write start and completion together. -/
def Hw.cdePass (s : Hw) (h : Hx) (f : CdeCmd) : Hw := match s.penSpd h.p f.dst with
  | some n => (s.writeStart n h.plan f.slotO h.taskWord).writeDone n h.plan f.slotO
  | none => s

/-- The output extents a command names: dense data, KV-45 blocks or values at DST; of a PACK the index entries it writes and the
block area that LIMIT gives it, where its header is good. COUNT counts up to its maximum. -/
def Run.cdeOuts (r : Run) (f : CdeCmd) : List (Nat × Nat) :=
  let f := { f with count := min f.count (if f.stream then 4096 else 65536) }
  let hb := r.read f.hdr 256
  let hd := CwHdr.of hb
  let good := f.stream && cwHdrOk f.hdr hb
  if f.count = 0 then []
  else if f.op = 1 then
    if good then [(f.dst + hd.idx + 4 * (f.first + 1), 4 * f.count),
      (f.dst + hd.data + 16 * (r.readNat (f.dst + hd.idx + 4 * f.first) 4 % 2 ^ 31), min f.limit (4112 * f.count))] else []
  else if f.op = 0 then [(f.dst, 4096 * (f.count - 1) + if good then hd.size (f.first + f.count - 1) else 4096)]
  else [(f.dst, (if f.op = 2 then 18 else 64) * f.count)]

/-- The rows of an extent that lie in the pen's populated memory and scratchpads. -/
def Hw.penRows (s : Hw) (p a n : Nat) : List Nat :=
  (linesOf a n).filter fun l => !(s.penLacks p (l * 64) 64) && (unpopFirst s.loftTib (l * 64) 64).isNone

/-- The outputs of a command that does not run: its named rows that lie in the pen's ranges are poisoned with `bits`, and its output
slot completes (R96, R177, R222). -/
def Run.cdeSpoil (h : Hx) (f : CdeCmd) (bits : Nat) (r : Run) : Run :=
  (r.each ((r.cdeOuts f).flatMap fun x => r.hw.penRows h.p x.1 x.2) fun l r => r.poisonRange (l * 64) 64 bits).on fun s => s.cdePass h f

/-- A command that runs: slots as R181 and R182 say, the work, then the end of its writes and its reads. -/
def Run.cdeRun (r : Run) (h : Hx) (f : CdeCmd) : Run :=
  let src := r.hw.penSpd h.p f.src
  let dst := r.hw.penSpd h.p f.dst
  let r := r.on fun s => (s.set R.CDE_STATUS_PEN h.m h.p).set R.CDE_STATUS_OP h.m f.op
  let (s, m, full) := match src with
    | some n => r.hw.readStart n h.taskWord [f.slotI]
    | none => (r.hw, 0, [])
  let s := match dst with
    | some n => s.writeStart n h.plan f.slotO h.taskWord
    | none => s
  let r := { r with hw := s }
  let r := if f.op = 0 then r.cdeUnpack h f m else if f.op = 1 then r.cdePack h f m else if f.op = 2 then r.kvEnc h f m else r.kvDec h f m
  let r := match src with
    | some n => r.on fun s => s.each full fun i s => s.readDone n h.plan i
    | none => r
  let r := match dst with
    | some n => r.remoteEnd n h.plan (if f.arrEn then some f.ctr else none) f.slotO
    | none => r
  r.on fun s => s.inc R.CDE_CMDS_CMDS h.m

/-- CDE_CMD (R221, R222): malformed commands and unpopulated extents (R343) are not executed. -/
def execCdeCmd (m : HubId) (p : PenId) (i : Issue) (cmd : Bytes) (s : State) : Host.Outcome State Fault Refusal :=
  s.runHub m.val p.val 7 i fun h r =>
    let f := CdeCmd.of cmd
    let (bad, xs) := r.cdeCheck p.val f cmd
    if bad then
      Run.cdeSpoil h f 3 (r.on fun s =>
        ((s.inc R.CDE_ERR2_MALFORMED h.m).logHx h E.CMD_MALFORMED 0 0xFFFF 0x52).blameHx h Crib.SCHEDULE_FAULT)
    else match xs.findSome? fun x => unpopFirst r.hw.loftTib x.1 x.2 with
      | some a =>
        r.hubUnpop h a cmd fun b => Run.cdeSpoil h (CdeCmd.of b) 1
      | none => (r.on fun s => s.metDst h.p f.dst i).cdeRun h f

/-! ## TERNARISE (R227, R228) -/

/-- Whether a TERNARISE is malformed. -/
def ternariseBad (b : Bytes) : Bool :=
  let q := fld b 4 4
  let theta := fld b 0x10 2
  b.length != 64 || !(zeroAt b 1 1) || decide (7 < fld b 2 1) || decide (7 < fld b 3 1) || decide (q = 0) || decide (1048576 < q) ||
  fld b 8 4 % 64 != 0 || fld b 0xC 4 % 64 != 0 || bit theta 15 || theta == 0x4000 || !(zeroAt b 0x12 2) || decide (52000 < fld b 0x14 4) ||
  decide (fld b 0x14 4 < 12 + cdiv (10 * q) 256 + cdiv q 256) || !(zeroAt b 0x1C 36)

/-- The trit of a latent weight: compared on the logarithms. -/
def latentTrit (theta x : Lns) : Int := if x.isZero || decide (x.l < theta.l) then 0 else if x.neg then -1 else 1

/-- TERNARISE: Q quintet bytes from 5 × Q latent values. -/
def execTernarise (n : StallId) (i : Issue) (cmd : Bytes) (s : State) : Host.Outcome State Fault Refusal :=
  s.runStall n.val 4 i fun c r =>
    let q := fld cmd 4 4
    let inp : Ext := ⟨fld cmd 2 1, fld cmd 8 4, 10 * q⟩
    let out : Ext := ⟨fld cmd 3 1, fld cmd 0xC 4, q⟩
    let slots := [fld cmd 0x1A 2]
    if ternariseBad cmd then r.malformed c 0x48 (Hw.lnuMalformed c) [out] slots
    else r.command c [inp] [out] [fld cmd 0x18 2] slots fun m r =>
      let theta := Lns.of16 (fld cmd 0x10 2)
      let ts := (lns16s (5 * q) (r.ext c inp)).map (latentTrit theta)
      let bs := (chunks 5 q ts).map fun g => BitVec.ofNat 8 (g.foldr (fun t n => 3 * n + (t + 1).toNat) 0)
      (r.putExt c out.reg out.off bs m, m)

end Sys2Proof.Machine
end

