-- ==== Sys2Proof/Machine/Queue.lean ====
section
/-! DEFINITION. The frame sequencer's task graph and the engines' queues (Sections 2 and 3.2 of 03_frames.md): when a task
is ready (R55, R61), elided tasks (R157), the command an engine starts (R56), the end of a command, a task, a body and a
tail, and results never emitted (R244). -/

namespace Sys2Proof.Machine

/-! ## What is left of a frame -/

/-- What is left of task `i`: 0 once it has completed. -/
def PenFrame.taskLeft (x : PenFrame) (i : Nat) : Nat := Tbl.get 0 i x.left

/-- The tasks of a frame with their indices. -/
def PenFrame.numbered (x : PenFrame) : List (Task × Nat) := x.tasks.zip (List.range x.tasks.length)

/-- Whether every task that `sel` picks has completed. -/
def PenFrame.allDone (x : PenFrame) (sel : Task → Bool) : Bool := x.numbered.all fun t => !(sel t.1) || x.taskLeft t.2 == 0

/-- Whether a task is of the body. -/
def Task.isBody (t : Task) : Bool := t.cls == .body

/-- Whether a task is U0 work, or a tail task that follows U0 work and is carried with it (R66). -/
def PenFrame.carried (x : PenFrame) (t : Task) : Bool :=
  t.cls == .u0 || (t.cls == .tail && t.preds.any fun j => (x.tasks[j]?.map (·.cls)) == some QClass.u0)

/-- Whether the tail of a frame is complete: every task that is not carried U0 work has completed. -/
def PenFrame.tailOk (x : PenFrame) : Bool := x.allDone fun t => !(x.carried t)

/-- A frame whose body counts as done once every body task has completed (R55, R61). -/
def PenFrame.settled (x : PenFrame) : PenFrame := { x with bodyDone := x.bodyDone || x.allDone Task.isBody }

/-- A frame of a pen changed. -/
def PenSt.modFrame (ps : PenSt) (f : Nat) (g : PenFrame → PenFrame) : PenSt :=
  { ps with frames := ps.frames.map fun x => if x.frame = f then g x else x }

/-- The sequence bound to a bind position of a frame. -/
def Hw.boundAt (s : Hw) (p f q : Nat) : Option Bound := (s.pen p).bound.find? fun b => b.frame == f && b.pos == q

/-! ## Contexts at command boundaries (Table 3.6) -/

/-- Whether an engine runs a command of a bind position. -/
def Hw.running (s : Hw) (p f q : Nat) : Bool :=
  s.dev.engs.any fun kv => match kv.2.run with
    | some c => c.pen == p && c.frame == f && c.pos == some q
    | none => false

/-- Whether a command of a bind position waits in a detached slot of the pen. -/
def Hw.waitsAt (s : Hw) (p f q : Nat) : Bool :=
  (s.penStalls p).any fun n => (s.stl n).det.any fun kv => kv.2.pen == p && kv.2.frame == f && kv.2.pos == some q

/-- Whether every body command of a bind position has completed. -/
def Hw.lastBody (s : Hw) (p f q : Nat) : Bool := match (s.pen p).frames.find? (·.frame == f) with
  | none => true
  | some x => x.allDone fun t => t.pos == some q && (t.cls == .body || t.cls == .u0)

/-- A context enters a residency state, noting the instant. -/
def Hw.enter (s : Hw) (p x : Nat) (st : Residency) : Hw :=
  s.modPen p fun ps => ps.modCtx x fun k => if k.res = st then k else { k with res := st, since := s.clk.now }

/-- The context of a bind position at a command boundary: RUNNING, IDLE after its last body command of the frame, BLOCKED
while it waits, else READY. -/
def Hw.park (s : Hw) (p f : Nat) (pos : Option Nat) : Hw :=
  match pos with
  | none => s
  | some q => match s.boundAt p f q with
    | none => s
    | some b =>
      let k := (s.pen p).ctx b.ctx
      if k.res ≠ .ready ∧ k.res ≠ .running ∧ k.res ≠ .blocked then s
      else if s.running p f q then s.enter p b.ctx .running
      else
        let st := if s.lastBody p f q then Residency.idle else if s.waitsAt p f q then .blocked else .ready
        s.enter p b.ctx st

/-- FSQ_STATE.RESIDENT and FSQ_STATE.BLOCKED of a pen. -/
def Hw.showResident (s : Hw) (p : Nat) : Hw :=
  let cs := (s.pen p).ctxs
  (s.set R.FSQ_STATE_RESIDENT p (cs.filter (·.2.res.resident)).length).set R.FSQ_STATE_BLOCKED p
    (cs.filter (·.2.res == .blocked)).length

/-! ## Ready tasks (R55, R61) -/

/-- Whether a task of an open frame is ready: predecessors complete, bodies of earlier frames complete, its context
resident and its tenant not being disabled (R351). U0 work is ready only where a U0 sequence is bound (log 27). -/
def Hw.taskReady (s : Hw) (p : Nat) (x : PenFrame) (i : Nat) (t : Task) : Bool :=
  !(x.pushed.contains i) && x.taskLeft i != 0 && (t.preds.all fun j => x.taskLeft j == 0) &&
  ((s.pen p).frames.all fun y => y.bodyDone || decide (x.frame ≤ y.frame)) &&
  match t.pos with
  | none => t.cls != .u0 || (s.pen p).bound.any fun b => b.frame == x.frame && b.cls == 0
  | some q => match s.boundAt p x.frame q with
    | none => t.cls != .u0
    | some b =>
      let k := (s.pen p).ctx b.ctx
      (t.cls != .u0 || b.cls == 0) && k.res.resident && k.res != .swapOut && (s.ten b.tenant).disabling.isNone && (s.pen p).yoke.demote.isNone

/-- The ready tasks of a pen, with their frames and indices. -/
def Hw.readyTasks (s : Hw) (p : Nat) : List (PenFrame × Nat × Task) :=
  (s.pen p).frames.flatMap fun x => (x.numbered.filter fun t => s.taskReady p x t.2 t.1).map fun t => (x, t.2, t.1)

/-- The task the FSQ pushes next: the one with the least slack, ties to the lower index, whatever its frame (R61); of two frames'
tasks that tie in both, the older frame's (DESIGN CHOICE, log 64). Only a pen in RUN makes tasks ready (Table 13.6). -/
def Hw.nextTask (s : Hw) (p : Nat) : Option (PenFrame × Nat × Task) :=
  if !s.penRun p then none
  else leastBy (fun t : PenFrame × Nat × Task => t.2.2.slack * 2 ^ 24 + t.2.1) (s.readyTasks p)

/-- The stall of a task of a stall's engine. -/
def Hw.taskStall (s : Hw) (p : Nat) (t : Task) : Option Nat := if engNum t.eng < 7 then (s.penStalls p)[t.unit]? else none

/-- The queues a task's commands enter: those of its stall's engine, or of its pen on its hub. -/
def Hw.taskEng (s : Hw) (p : Nat) (t : Task) : Option Nat :=
  if engNum t.eng < 7 then (s.taskStall p t).map fun n => engKey n t.eng 0 else some (engKey t.unit t.eng p)

/-- The eight region descriptors of a task (R176), in the region table at `base`. -/
def Run.regionsOf (r : Run) (base i : Nat) : List (Nat × Nat) :=
  (List.range 8).map fun j =>
    let a := base + 64 * i + 8 * j
    (r.readNat a 4, r.readNat (a + 4) 4)

/-- A task's commands at the tail of its engine's queue (R61); its region registers are loaded with its first command
(R176), and those of frames that are no longer open are dropped. -/
def Run.queueTask (r : Run) (p : Nat) (x : PenFrame) (i : Nat) (t : Task) : Run :=
  match r.hw.taskEng p t with
  | none => r
  | some k =>
    let regs := r.regionsOf x.regs i
    r.on fun s =>
      let s := match s.taskStall p t with
        | some n =>
          let live := fun kv : Nat × List (Nat × Nat) => (s.pen p).frames.any fun y => y.frame == kv.1 / 16 / 2 ^ 24
          s.modStl n fun y => { y with regions := Tbl.insert (regionKey (engNum t.eng) (taskKey x.frame i)) regs (y.regions.filter live) }
        | none => s
      let cs := (t.cmds.zip (List.range t.cmds.length)).map fun c => (⟨p, x.frame, i, c.2, t.pos, t.cls == .u0, c.1⟩ : QCmd)
      let s := s.modEng k fun e => match t.cls with
        | .u0 => { e with u0 := e.u0 ++ cs }
        | .head => { e with lap := e.lap ++ cs }
        | .tail => { e with lap := e.lap ++ cs }
        | .body => { e with main := e.main ++ cs }
      s.traceAdd 3 p ((s.taskStall p t).getD t.unit) (engNum t.eng) i x.frame

/-- What a task's condition says (R157): elided with the stall of its count word, or it runs, perhaps for an address outside
the pen's populated scratchpads. -/
inductive Cond where
  | elide (stall : Nat)
  | run
  | bad
deriving DecidableEq, Repr

/-- The condition of a task evaluated. -/
def Run.condition (r : Run) (p : Nat) (t : Task) : Cond :=
  match t.cond with
  | none => .run
  | some a => match r.hw.penSpd p a with
    | none => .bad
    | some n => if spdAddr n + spdSize < a + 2 then .bad else if r.readNat a 2 = 0 then .elide n else .run

/-- The buffer slots a command of a task would write, each with its stall (R157): those its bytes name, in its own stall or in the
one that holds the destination. -/
def Hw.writesOf (s : Hw) (p : Nat) (t : Task) (cmd : Bytes) : List (Nat × Nat) :=
  let op := fld cmd 0 1
  let own := s.taskStall p t
  let at_ := fun (n : Option Nat) (slots : List Nat) => match n with
    | some n => (slots.filter (· < 4096)).map fun i => (n, i)
    | none => []
  if op = 0x12 then
    let d := (DmaMove.of cmd).dst
    at_ (if d.kind = 0 then own else if d.kind = 1 then (s.penStalls p)[d.sel]? else none) [fld cmd 0x44 2]
  else if op = 0x51 then at_ (s.penSpd p (fld cmd 0x20 8)) [fld cmd 6 2]
  else if op = 0x52 then at_ (s.penSpd p (fld cmd 0x10 8)) [fld cmd 6 2]
  else at_ own (outSlotsOf cmd)

/-- Every buffer slot an elided task would write passes its write start and its completion in one cycle (R157, R181). -/
def Hw.elideSlots (s : Hw) (p key task : Nat) (t : Task) : Hw :=
  let own := match s.taskStall p t with
    | some n => t.slots.map fun i => (n, i)
    | none => []
  s.each (own ++ t.cmds.flatMap (s.writesOf p t)).eraseDups fun x s => (s.writeStart x.1 key x.2 task).writeDone x.1 key x.2

/-- A ready task pushed, or elided: its slots' tags advance and it counts as complete (R157). -/
def Run.pushTask (r : Run) (p : Nat) (x : PenFrame) (i : Nat) (t : Task) : Run :=
  let mark := fun (elide : Bool) (s : Hw) => s.modPen p fun ps => ps.modFrame x.frame fun y =>
    PenFrame.settled { y with pushed := i :: y.pushed, left := Tbl.set 0 i (if elide then 0 else Tbl.get 0 i y.left - 1) y.left }
  match r.condition p t with
  | .elide n => r.on fun s =>
    ((mark true s).incStl R.STL_ROUTE_COND_ELIDED n).elideSlots p x.key (i % 2 ^ 24 + engNum t.eng * 2 ^ 24) t
  | .run => (r.on (mark false)).queueTask p x i t
  | .bad =>
    let n := (r.hw.taskStall p t).getD ((r.hw.penStalls p).headD 0)
    ((r.on (mark false)).on fun s => (s.incStl R.STL_ANP_MISC_COND_BAD n).log E.COND_BAD
      { kind := 0, unit := n, pen := p, task := i + engNum t.eng * 2 ^ 24, addr := t.cond.getD 0 }).queueTask p x i t

/-- Every ready task pushed, at most `fuel` of them. -/
def Run.pushReady (p : Nat) : Nat → Run → Run
  | 0, r => r
  | fuel + 1, r => match r.hw.nextTask p with
    | none => r
    | some (x, i, t) => Run.pushReady p fuel (r.pushTask p x i t)

/-- Every ready task of a pen pushed. -/
def Run.makeReady (r : Run) (p : Nat) : Run := r.pushReady p (((r.hw.pen p).frames.map fun x => x.tasks.length).sum + 1)

/-! ## The end of commands, tasks, bodies and tails -/

/-- Whether a task belongs to the step of a bound sequence: it has that sequence's bind position, or no context; U0 work
without a context belongs to U0 sequences. -/
def Task.serves (t : Task) (b : Bound) : Bool := match t.pos with
  | some q => q == b.pos
  | none => t.cls != .u0 || b.cls == 0

/-- The bound sequences whose step's last task has completed with no CRIB_EMIT (R244). -/
def Hw.missingEmit (s : Hw) (p : Nat) : List Bound :=
  (s.pen p).bound.filter fun b => !b.emitted && !b.held && match (s.pen p).frames.find? (·.frame == b.frame) with
    | none => false
    | some x => (x.tasks.any fun t => Task.serves t b) && x.allDone fun t => Task.serves t b

/-- Whether the heavy per-pen load of pen `p` may commit: intake is refused since its frame F, and the tail of frame F − 1 is complete
with every entry written (R49). -/
def Hw.mayCommit (s : Hw) (p : Nat) : Bool := match s.dev.load with
  | none => false
  | some l =>
    let ps := s.pen p
    let st := s.get R.TRS_STATUS_STATE
    l.pen == p && !l.whole && l.heavy && l.refuseF.isSome && (st == 4 || st == 5) && ps.frames.all (·.tailDone) && ps.bound.isEmpty && ps.deferred.isEmpty

/-- A heavy per-pen load that may commit is in COMMIT (Table 2.11). -/
def Hw.enterCommit (s : Hw) (p : Nat) : Hw := if s.mayCommit p then s.set R.TRS_STATUS_STATE 0 5 else s

/-- What follows the end of commands in a pen: bodies that are done, tasks that became ready, perhaps elided ones that complete at
once, entries never emitted (SCHEDULE_FAULT), and frames with nothing left. -/
def Run.afterEnd (r : Run) (p : Nat) : Run :=
  let r := r.on fun s => s.modPen p fun ps => { ps with frames := ps.frames.map PenFrame.settled }
  let r := r.makeReady p
  let r := r.each (r.hw.missingEmit p) fun b r => r.deliver p { b with emitted := true, codes := Crib.SCHEDULE_FAULT :: b.codes }
  let r := r.on fun s => s.modPen p fun ps => { ps with frames := ps.frames.filter fun x => !(x.tailDone && x.left.isEmpty) }
  r.on fun s => (s.showResident p).enterCommit p

/-- A command of a task completed: with the task's last command the generators it bound are released (R140). -/
def Run.cmdDone (r : Run) (q : QCmd) : Run :=
  match (r.hw.pen q.pen).frames.find? (·.frame == q.frame) with
  | none => r
  | some x =>
    let n := x.taskLeft q.task - 1
    let r := r.on fun s => s.modPen q.pen fun ps => ps.modFrame q.frame fun y => { y with left := Tbl.set 0 q.task n y.left }
    match n, x.tasks[q.task]? with
    | 0, some t => match r.hw.taskStall q.pen t with
      | some m => (r.unbindTask m q.frame q.task).afterEnd q.pen
      | none => r.afterEnd q.pen
    | _, _ => r.afterEnd q.pen

/-- U0 work of earlier frames that was never admitted is dropped, so that the frame's carried tail can end (log 27). -/
def Run.dropIdleU0 (r : Run) (p : Nat) : Run :=
  r.on fun s => s.modPen p fun ps => { ps with frames := ps.frames.map fun x =>
    { x with left := (x.numbered.filter fun t => t.1.cls == .u0 && !(x.pushed.contains t.2) && (match t.1.pos with
        | some q => (s.boundAt p x.frame q).isNone
        | none => !(ps.bound.any fun b => b.frame == x.frame && b.cls == 0))).foldl (fun l t => Tbl.erase t.2 l) x.left } }

/-! ## Engines (R56) -/

/-- The key's stall, for the engines of a stall. -/
def stallOfKey (k : Nat) : Option Nat := if k < 4096 then some (k / 16) else none

/-- Whether the running command of an engine waits on arrivals inside the module (R61, R186). -/
def Hw.waitsLocal (s : Hw) (k : Nat) : Bool := match stallOfKey k with
  | none => false
  | some n => (s.stl n).waits.any fun w => w.eng == k % 16 && w.det.isNone

/-- Whether a command still waits in a detached slot (R191). -/
def Hw.waitsDetached (s : Hw) (k : Nat) (q : QCmd) : Bool := match stallOfKey k with
  | none => false
  | some n => (s.stl n).det.any fun kv => kv.2.frame == q.frame && kv.2.task == q.task && kv.2.cmd == q.cmd

/-- An engine at its command boundary takes STL_CTRL (R112) and starts its next command. No command starts on a stall that is
being zero-filled (R172). -/
def Hw.startNext (s : Hw) (k : Nat) : Hw :=
  let s := match stallOfKey k with
    | some n => s.takeCtl n (k % 16)
    | none => s
  let busy := match stallOfKey k with
    | some n => s.is R.SPD_STATUS_ZEROING n
    | none => false
  if busy then s
  else match s.nextCmd k with
    | none => s
    | some q =>
      let s := s.modEng k fun e => { e with u0 := e.u0.erase q, lap := e.lap.erase q, main := e.main.erase q, run := some q }
      let s := s.traceAdd 4 q.pen ((stallOfKey k).getD 0xFF) (if k < 4096 then k % 16 else (k - 4096) / 16 % 16) q.task q.frame
      let s := if s.is R.FSQ_STATE_SUSPENDED q.pen then s.markSusp q.pen (servedBy q.frame q.pos) else s
      s.park q.pen q.frame q.pos

/-- COMMAND_BOUNDARY (R56): the engine's command completes, unless it still waits on arrivals, and the engine starts the
oldest ready command of its U0, lap or main queue. A detached command leaves the engine and completes with its wait. -/
def execCommandBoundary (e : Eng) (s : State) : Host.Outcome State Fault Refusal :=
  s.run fun r =>
    let k := Eng.key e
    let x := r.hw.eng k
    if x.reset || r.hw.waitsLocal k then r
    else match x.run with
      | none => r.on fun s => s.startNext k
      | some q =>
        let r := r.on fun s => (s.modEng k fun y => { y with run := none }).traceAdd 5 q.pen ((stallOfKey k).getD 0xFF)
          (engNum (Eng.kind e)) q.task q.frame
        let r := if r.hw.waitsDetached k q || !(r.hw.penRun q.pen) then r else r.cmdDone q
        r.on fun s => ((s.park q.pen q.frame q.pos).startNext k).showResident q.pen

end Sys2Proof.Machine
end

