-- ==== Sys2Proof/Machine/Link.lean ====
section
/-! DEFINITION. Links, ports and the routing table (Sections 1 to 4 and 6 of 10_herd_links.md): link states, credits and routes. -/

namespace Sys2Proof.Machine

/-! ## Link states (R267, R268, R273, R284) -/

/-- A link enters a state. -/
def Hw.linkTo (s : Hw) (l st : Nat) : Hw :=
  let s := (s.set R.LNK_STATUS_STATE l st).modLink l fun x => { x with since := s.clk.now, credit := [0, 0, 0] }
  let s := if st = 2 then s else s.set R.LNK_STATUS_WIDTH l 0
  s.showPorts

/-- A link that leaves UP comes back no wider unless LNK_CTRL.RETRAIN is written (R273). -/
def Hw.keepWidth (s : Hw) (l : Nat) : Hw :=
  let w := s.get R.LNK_STATUS_WIDTH l
  s.modLink l fun x => { x with target := if w = 0 then x.target else w }

/-- A link goes DOWN: counted, recorded with a cause (1 training, 2 PEER_ID, 3 lanes, 4 hang; log 28), link vector. -/
def Hw.linkDown (s : Hw) (l cause : Nat) : Hw :=
  ((((s.keepWidth l).linkTo l 4).inc R.LNK_EVENTS_DOWN l).log E.LINK_DOWN { kind := 7, unit := l, detail := cause }).msi 0 3

/-- A link placed in a port or whose port changed mode trains; one in no port is disabled (R38, R267). -/
def Hw.placeLink (s : Hw) (l : Nat) : Hw := match s.portOf l with
  | none => s.linkTo l 0
  | some p => ((s.set R.LNK_STATUS_MODE l p.mode).linkTo l 1).modLink l fun x => { x with target := 8, hung := none }

/-- The widths of the series 8, 6, 4, 2, 1. -/
def widths : List Nat := [8, 6, 4, 2, 1]

/-- LINK_TRAINED: training ended with a set of lanes. A herd-mode link whose peer reports this DEVICE_ID or 0xFFFF stays
DOWN; else the link is UP at the widest width its lanes and its target allow, with the peer's credits for 256 KiB a class
(R267, R268, R272). A network-mode link has all eight lanes, as one interface or two (Table 10.3). -/
def execLinkTrained (l : LinkId) (lanes : Fin 256) (peerDev : BitVec 16) (peerLink : Fin 32) (split : Bool) (s : State) :
    Host.Outcome State Fault Refusal :=
  s.onHw fun h =>
    let st := h.get R.LNK_STATUS_STATE l.val
    match h.portOf l.val with
    | none => h
    | some p =>
      let n := popcount 8 lanes.val
      if st ≠ 1 ∧ st ≠ 3 then h
      else if p.mode = 1 then
        if n < 8 then h
        else (((h.set R.LNK_STATUS_WIDTH l.val 8).set R.LNK_STATUS_SPLIT l.val (if split then 1 else 0)).set R.LNK_STATUS_LANE_FAIL l.val 0
          |>.linkTo l.val 2).drainTx
      else
        let h := (h.set R.LNK_PEER_PEER_DEV l.val peerDev.toNat).set R.LNK_PEER_PEER_LINK l.val peerLink.val
        if peerDev.toNat = 0xFFFF ∨ peerDev.toNat = h.devId then h.linkDown l.val 2
        else match widths.find? fun w => decide (w ≤ n) && decide (w ≤ (h.link l.val).target) with
          | none => h
          | some w => ((((h.set R.LNK_STATUS_WIDTH l.val w).set R.LNK_STATUS_LANE_FAIL l.val (255 - lanes.val)).linkTo l.val 2).modLink l.val
              fun x => { x with credit := [4096, 4096, 4096] }).drainTx

/-- LINK_TRAIN_TIMEOUT: 20 ms of training are over (R267). -/
def execLinkTrainTimeout (l : LinkId) (s : State) : Host.Outcome State Fault Refusal :=
  s.onHw fun h => if h.get R.LNK_STATUS_STATE l.val = 1 then (h.reach ((h.link l.val).since + 2000000)).linkDown l.val 1 else h

/-- LINK_RETRY: a DOWN link of a port trains again after 100 ms (R267); its width does not rise (R273). -/
def execLinkRetry (l : LinkId) (s : State) : Host.Outcome State Fault Refusal :=
  s.onHw fun h =>
    if h.get R.LNK_STATUS_STATE l.val = 4 ∧ (h.portOf l.val).isSome then
      (h.reach ((h.link l.val).since + 10000000)).linkTo l.val 1
    else h

/-- LANE_FAIL (R273): in herd mode the link retrains at the next lower width that its healthy lanes allow; without one it is
DOWN. A network-mode interface goes down; of two, the other keeps its four lanes. -/
def execLaneFail (l : LinkId) (lane : Fin 8) (s : State) : Host.Outcome State Fault Refusal :=
  s.onHw fun h =>
    let w := h.get R.LNK_STATUS_WIDTH l.val
    if h.get R.LNK_STATUS_STATE l.val ≠ 2 then h
    else
      let h := h.set R.LNK_STATUS_LANE_FAIL l.val (h.get R.LNK_STATUS_LANE_FAIL l.val ||| 2 ^ lane.val)
      if h.get R.LNK_STATUS_MODE l.val = 1 then
        if h.is R.LNK_STATUS_SPLIT l.val ∧ w = 8 then
          (((h.set R.LNK_STATUS_WIDTH l.val 4).inc R.LNK_EVENTS_DOWN l.val).log E.LINK_DOWN { kind := 7, unit := l.val, detail := 3 }).msi 0 3
        else h.linkDown l.val 3
      else match widths.find? fun v => decide (v < w) && decide (v + popcount 8 (h.get R.LNK_STATUS_LANE_FAIL l.val) ≤ 8) with
        | none => h.linkDown l.val 3
        | some v => ((((h.linkTo l.val 3).modLink l.val fun x => { x with target := v }).inc R.LNK_EVENTS_DEGRADE l.val).log E.LINK_DEGRADE
            { kind := 7, unit := l.val, detail := lane.val + 256 * v }).msi 0 3

/-- An LNK_CTRL.RETRAIN = 1 write; hardware clears the bit (R273). -/
def Hw.linkRetrain (s : Hw) (l : Nat) : Hw :=
  let s := s.set R.LNK_CTRL_RETRAIN l 0
  let st := s.get R.LNK_STATUS_STATE l
  if st = 0 then s else (s.linkTo l (if st = 2 then 3 else 1)).modLink l fun x => { x with target := 8 }

/-- LINK_RETRAIN. -/
def execLinkRetrain (l : LinkId) (s : State) : Host.Outcome State Fault Refusal := s.byHostHw fun h => h.linkRetrain l.val

/-- Whether traffic waits for a link. -/
def Hw.linkWaiting (s : Hw) (l : Nat) : Bool := match s.portOf l with
  | none => false
  | some p => s.dev.txq.any fun x => x.1 == p.id

/-- LINK_HANG (R284): for ZLT_TWD.TWD_US no frame has come, in herd mode with traffic waiting and no credit return either; in network
mode the interface goes down. A retrained link comes back no wider than it was (R273). -/
def execLinkHang (l : LinkId) (s : State) : Host.Outcome State Fault Refusal :=
  s.onHw fun h =>
    let net := h.get R.LNK_STATUS_MODE l.val == 1
    if h.get R.LNK_STATUS_STATE l.val ≠ 2 ∨ !(net || h.linkWaiting l.val) then h
    else
      let h := h.reach (h.quietFrom l.val + 100 * h.get R.ZLT_TWD_TWD_US)
      let again := match (h.link l.val).hung with
        | some t => decide (h.clk.now < t + 100000000)
        | none => false
      let h := ((h.inc R.LNK_HANG_HANGS l.val).log E.LINK_HANG { kind := 7, unit := l.val }).modLink l.val fun x => { x with hung := some h.clk.now }
      if again || net then h.linkDown l.val 4
      else (h.keepWidth l.val).linkTo l.val 3

/-- LINK_CREDIT_RX (R272): credits of a class come back, up to the receiver's 256 KiB. -/
def execLinkCreditRx (l : LinkId) (tc : Fin 3) (n : BitVec 16) (s : State) : Host.Outcome State Fault Refusal :=
  s.onHw fun h =>
    if h.get R.LNK_STATUS_STATE l.val = 2 ∧ h.get R.LNK_STATUS_MODE l.val = 0 then
      ((h.hearLink l.val).modLink l.val fun x => { x with credit := x.credit.set tc.val (min 4096 (x.credit.getD tc.val 0 + n.toNat)) }).drainTx
    else h

/-- FEC_UNCORRECTABLE (R272): the codeword counts; the packets it touches never arrive. -/
def execFecUncorrectable (l : LinkId) (s : State) : Host.Outcome State Fault Refusal :=
  s.onHw fun h => if h.get R.LNK_STATUS_STATE l.val = 2 then h.inc R.LNK_FEC_UNCORR_UNCORR l.val else h

/-! ## Routing (R286, R287) -/

/-- A table of route entries checked: the valid routes, the entries loaded as invalid, and the herd destinations. -/
def checkRoutes (own : Nat) (ports : List PortDef) (eg : List Egress) (yoke : Option Nat) :
    List (Nat × Nat) → Tbl Nat × Nat × Nat
  | [] => ([], 0, 0)
  | es => es.foldl (fun (a : Tbl Nat × Nat × Nat) e =>
    let k := e.2 % 32
    if !(bit e.2 15) || e.1 == own then a
    else match ports.find? (·.id == k) with
      | none => (a.1, a.2.1 + 1, a.2.2)
      | some p =>
        let bad := yoke == some k || bits e.2 5 10 != 0 ||
          (if p.mode = 1 then !(eg.any fun x => x.dev == e.1 && fld x.data 2 1 == k) else decide (63 ≤ a.2.2))
        if bad then (a.1, a.2.1 + 1, a.2.2) else (a.1 ++ [(e.1, k)], a.2.1, a.2.2 + (if p.mode = 1 then 0 else 1))) ([], 0, 0)

/-- The shadow table applied: checked against the ports and the EGRESS table in force. -/
def Hw.applyRoutes (s : Hw) : Hw := match s.dev.truss with
  | none => s
  | some t =>
    let (rt, bad, herd) := checkRoutes s.devId t.ports t.egress (t.yoke.map (·.port)) s.dev.shadow
    (({ s with dev.truss := some { t with route := rt } }).set R.LNK_RT_STATUS_BAD_ROUTE 0 (min bad 4095)).set R.LNK_RT_STATUS_HERD_DEST 0 herd

/-- ROUTE_COMMIT: an LNK_RT_CTRL.COMMIT = 1 write; the shadow applies at the next frame start (R287). -/
def execRouteCommit (s : State) : Host.Outcome State Fault Refusal := s.byHostHw fun h => h.set R.LNK_RT_CTRL_COMMIT 0 1

end Sys2Proof.Machine
end

