-- ==== Sys2Proof/Machine/Zlt.lean ====
section
/-! DEFINITION. The transport (Section 5 of 10_herd_links.md): flows, the retransmit buffer, ZLT_PUT, received packets and
their acknowledgement, message failures and rates. -/

namespace Sys2Proof.Machine

/-! ## The retransmit buffer (R279) -/

/-- The LK die of a port: that of its lowest link (R16; log 28). -/
def Hw.lkDie (s : Hw) (k : Nat) : Nat := match s.port k with
  | none => 0
  | some p => 8 * ((setBitsOf 18 p.linkMask).headD 0) / 36

/-- Bytes the retransmit buffer of an LK die holds. -/
def Hw.bufUsed (s : Hw) (die : Nat) : Nat :=
  (s.dev.flows.map fun kv => ((kv.2.unacked.filter fun x => s.lkDie x.port == die).map fun x => x.pkt.size).sum).sum

/-- Whether the 16 MiB buffer of a port's LK die has room for `n` more bytes (R279). -/
def Hw.bufRoom (s : Hw) (k n : Nat) : Bool := decide (s.bufUsed (s.lkDie k) + n ≤ 16777216)

/-! ## Message failures (R283) -/

/-- Why a message fails; the numbers stand in the record's DETAIL (log 28). -/
inductive FailCause where
  | retry | denied | noRoute | egress
deriving DecidableEq, Repr

def FailCause.num : FailCause → Nat
  | .retry => 0
  | .denied => 1
  | .noRoute => 2
  | .egress => 3

/-- The mirror of a pen begins anew: no commit in flight, none being received, numbers from 1 (log 30). Pages whose freeing
awaited a commit are free. -/
def Hw.newSync (s : Hw) (p : Nat) : Hw :=
  (s.modPen p fun ps => { ps with kv := { ps.kv with late := [], lateL := [] }, yoke := { ps.yoke with
    held := [], freed := [], freedL := [], changed := [], nextNo := 1, flight := [], rx := [], posted := 0, cribs := [], bulk := none, lost := none } }).set R.YOK_COMMIT_NO_COMMIT p 0

/-- A pen enters SYNCING (R308, R309). -/
def Hw.toSync (s : Hw) (p : Nat) : Hw :=
  ((s.newSync p).set R.YOK_PEN_STATE_STATE p 1).inc R.YOK_COUNTS_RESYNCS p

/-- A pen whose mirror fails goes back to SYNCING (R308); the active side tells its partner by a HELLO (log 30). -/
def Hw.resync (s : Hw) (p : Nat) : Hw :=
  let st := s.get R.YOK_PEN_STATE_STATE p
  if s.mirroring p then (s.toSync p).modPen p fun ps => { ps with yoke := { ps.yoke with again := true } }
  else if st = 1 ∨ st = 3 then s.toSync p else s

/-- Whether a packet is one of the mirror: DIRECT, JOURNAL or COMMIT (R303, R304). -/
def Pkt.mirrors (p : Pkt) : Bool := p.typ == 5 || p.typ == 6 || (p.typ == 7 && fld p.payload 0 1 == 3)

/-- Entries held for a commit are posted once their pen is no more MIRRORED (R306, R308). -/
def Run.postHeld (r : Run) (p : Nat) : Run :=
  if r.hw.mirrored p then r else r.each ((r.hw.pen p).bound.filter (·.held)) fun b r => r.finish p b

/-- The held entries of every pen that holds none any more. -/
def Run.postAllHeld (r : Run) : Run := r.each r.hw.penList fun p r => r.postHeld p

/-- A message of a flow fails: no further packet of it is sent (a packet in transit is none of it), it is counted and recorded; a failed mirror message returns
the pen that mirrors to SYNCING. -/
def Hw.msgFail (s : Hw) (key msg pen : Nat) (cause : FailCause) (yoke : Bool) : Hw :=
  let mine := fun p : Pkt => flowKey p.dst p.tc == key && p.msg == msg
  let psns := ((s.flow key).unacked.filter fun x => mine x.pkt).map fun x => (x.pkt.src, x.pkt.psn)
  let s := s.modFlow key fun f => { f with unacked := f.unacked.filter fun x => !(mine x.pkt) }
  let s := { s with dev.txq := s.dev.txq.filter fun x => !(x.2.typ != 2 && mine x.2 && psns.contains (x.2.src, x.2.psn)),
                    dev.stls := s.dev.stls.map fun kv : Nat × Stl => (kv.1, { kv.2 with det := kv.2.det.map fun d : Nat × Detached =>
                      (d.1, if d.2.op = 0x14 ∧ d.2.occ = key * 65536 + msg then { d.2 with waits := 0 } else d.2) }) }
  let s := s.inc R.ZLT_FAIL_FAILED
  let s := if cause = .noRoute then s.inc R.ZLT_FAIL_NOROUTE else s
  let s := s.log E.ZLT_FAIL { kind := 2, unit := 0, pen := pen, detail := cause.num + 256 * (key / 4) }
  if yoke && s.mirroring pen then (s.inc R.YOK_ERR_MIRROR_FAIL pen).resync pen else s

/-! ## ZLT_PUT (R279) -/

/-- Whether a ZLT_PUT is malformed (Table 10.6). -/
def putBad (s : Hw) (b : Bytes) : Bool :=
  let n := fld b 0xC 4
  b.length != 64 || decide (3 < fld b 1 1) || decide (7 < fld b 2 1) || decide (63 < fld b 3 1) || decide (4095 < fld b 4 2) ||
  decide (15 < fld b 6 1) || !(zeroAt b 7 1) || fld b 8 4 % 64 != 0 || decide (n = 0) || decide (0x1000000 < n) ||
  decide (2 ^ 48 ≤ fld b 0x10 8) || decide (52000 < fld b 0x1C 4) || !(zeroAt b 0x20 32) || fld b 4 2 == s.devId

/-- The place a detached command was issued from. -/
def Detached.cx (x : Detached) (n : Nat) : Cx := ⟨n, x.pen, 6, x.plan, x.frame, x.task, x.pos, x.u0⟩

/-- Packet `i` of a ZLT_PUT, read from the scratchpad now; it carries its rows' poison. -/
def Run.putPkt (r : Run) (n : Nat) (x : Detached) (i : Nat) : Pkt :=
  let c := x.cx n
  let b := x.cmd
  let len := fld b 0xC 4
  let e : Ext := ⟨fld b 2 1, fld b 8 4 + 4096 * i, min 4096 (len - 4096 * i)⟩
  let m := x.poison ||| r.marks (r.hw.extAddr n 6 c.tk e) e.len
  { typ := 1, tc := if bit (fld b 1 1) 1 then 0 else 2, flags := fld b 1 1 % 2 + 2 * (m % 4), src := r.hw.devId, dst := fld b 4 2,
    job := r.hw.get R.ZLT_JOB_JOB_ID x.pen, msg := x.occ % 65536, idx := i, npkt := cdiv len 4096, pen := fld b 6 1, ctr := fld b 3 1,
    slot := fld b 0x18 2, addr := fld b 0x10 8 + 4096 * i, payload := r.ext c e }

/-- The rows that packet `i` of a ZLT_PUT takes from the scratchpad are read. -/
def Run.sensePkt (r : Run) (n : Nat) (x : Detached) (i : Nat) : Run :=
  r.senseExt (x.cx n) ⟨fld x.cmd 2 1, fld x.cmd 8 4 + 4096 * i, min 4096 (fld x.cmd 0xC 4 - 4096 * i)⟩

/-- A ZLT_PUT copies packets into the buffer while it has room, at most `fuel` of them; its wait ends with the last one. -/
def Run.putMore (k n d : Nat) : Nat → Run → Run
  | 0, r => r
  | fuel + 1, r =>
    match Tbl.find? d (r.hw.stl n).det with
    | none => r
    | some x =>
      let np := cdiv (fld x.cmd 0xC 4) 4096
      if x.waits = 0 ∨ np ≤ x.key then r
      else
        let r := r.sensePkt n x x.key
        let p := r.putPkt n x x.key
        if !(r.hw.bufRoom k p.size) then r
        else Run.putMore k n d fuel (r.on fun s => ((s.blamePoison (x.cx n) (p.flags / 2 % 4)).modStl n fun t =>
          { t with det := Tbl.insert d { x with key := x.key + 1, waits := if x.key + 1 = np then 0 else 1 } t.det }).sendRel k x.pen p)

/-- Every waiting ZLT_PUT goes on copying. -/
def Run.pumpPuts (r : Run) : Run :=
  r.each (r.hw.dev.stls.flatMap fun kv => (kv.2.det.filter fun d => d.2.op == 0x14 && d.2.waits != 0).map fun d => (kv.1, d.1, d.2)) fun x r =>
    match r.hw.penRoute (fld x.2.2.cmd 4 2) with
    | none => r
    | some k => Run.putMore k x.1 x.2.1 4096 r

/-- ZLT_PUT (R279): without a route that carries a pen's packets (R38), or without an EGRESS entry in network mode, the message
fails. -/
def execZltPut (n : StallId) (i : Issue) (cmd : Bytes) (s : State) : Host.Outcome State Fault Refusal :=
  s.runStall n.val 6 i fun c r =>
      let src : Ext := ⟨fld cmd 2 1, fld cmd 8 4, fld cmd 0xC 4⟩
      if putBad r.hw cmd then r.malformed c 0x14 (Hw.dmaMalformed c) [] []
      else
        let x := r.hw.extFault c [src]
        if !x.none? then r.extFaulted c x [] []
        else match r.hw.freeSlot c.n c.u0 with
        | none => r
        | some d =>
          let (h, m, full) := r.hw.readStart c.n c.taskWord [fld cmd 0x1A 2]
          let dst := fld cmd 4 2
          let key := flowKey dst (if bit (fld cmd 1 1) 1 then 0 else 2)
          let msg := (h.flow key).msg
          let h := h.modFlow key fun f => { f with msg := (f.msg + 1) % 65536 }
          let h := h.detach c d { c.detached 0x14 cmd with occ := key * 65536 + msg, reads := full.map fun j => (c.n, j), poison := m, waits := 1 }
          let r := { r with hw := h }
          match h.penRoute dst with
          | none => r.on fun s => s.msgFail key msg c.p .noRoute false
          | some k =>
            if h.maySend dst k then Run.putMore k c.n d 4096 r
            else r.on fun s => (s.inc R.ZLT_DENY_EGRESS).msgFail key msg c.p .egress false

/-! ## Acknowledgements (R282) -/

/-- An ACK sent to a peer: the cumulative PSN and 64 bits for the PSNs after it (log 28). -/
def Hw.sendAck (s : Hw) (src tc flags msg : Nat) : Hw :=
  let k := flowKey src tc
  let f := s.rxFlow k
  let map := (List.range 64).foldl (fun m i => if f.got.contains ((f.next + 1 + i) % 2 ^ 32) then m + 2 ^ i else m) 0
  let s := s.modRx k fun f => { f with unack := 0, ece := false }
  match s.ackPort src tc with
  | none => s
  | some port => s.enqueue port { typ := 2, tc := tc, flags := flags + (if f.ece then 8 else 0), src := s.devId, dst := src, psn := f.next,
                                  msg := msg, payload := leBytes 8 map }

/-- A PSN received: the cumulative point moves past every PSN now in, `fuel` bounding the walk. -/
def RxFlow.advance : Nat → RxFlow → RxFlow
  | 0, f => f
  | fuel + 1, f =>
    if f.got.contains f.next then RxFlow.advance fuel { f with got := f.got.filter (· ≠ f.next), next := (f.next + 1) % 2 ^ 32 } else f

/-- A PSN noted as received. -/
def RxFlow.note (f : RxFlow) (psn : Nat) : RxFlow := RxFlow.advance (f.got.length + 1) { f with got := psn :: f.got }

/-- An accepted packet noted: the ACK goes with the 16th, or is due 2 µs after the first. -/
def Hw.ackLater (s : Hw) (src tc : Nat) : Hw :=
  let k := flowKey src tc
  let s := s.modRx k fun f => { f with unack := f.unack + 1, due := if f.unack = 0 then s.clk.now + 200 else f.due }
  if 16 ≤ (s.rxFlow k).unack then s.sendAck src tc 0 0 else s

/-- ZLT_ACK_TIMER: an ACK that is due is sent. -/
def execZltAckTimer (dev : BitVec 12) (tc : Fin 3) (s : State) : Host.Outcome State Fault Refusal :=
  s.onHw fun h =>
    let f := h.rxFlow (flowKey dev.toNat tc.val)
    if f.unack ≠ 0 then (h.reach f.due).sendAck dev.toNat tc.val 0 0 else h

/-! ## Receiving (R280, R281, R288) -/

/-- A packet for another device: forwarded in herd mode with its TTL lowered, else dropped (R288). -/
def Hw.transit (s : Hw) (herd : Bool) (p : Pkt) : Hw :=
  if !herd then s.inc R.ZLT_DROP_MISC
  else match s.route p.dst with
    | none => s.inc R.ZLT_DROP_TTL
    | some k => if p.ttl ≤ 1 then s.inc R.ZLT_DROP_TTL else s.enqueue k { p with ttl := p.ttl - 1 }

/-- Whether link `l` carries a packet to this module: pens' packets come on no device port (R38; log 28). -/
def Hw.carries (s : Hw) (l : Nat) (p : Pkt) : Bool :=
  !(p.typ = 1 || p.typ = 3 || p.typ = 4) || (match s.portOf l with
    | some k => !(s.devicePort k.id)
    | none => true)

/-- Whether a pen's save area shares a byte with an extent. -/
def Hw.hitsSave (s : Hw) (p a n : Nat) : Bool := match s.desc p with
  | none => false
  | some d => overlaps a n d.saveBase (d.ctxMax * 0x100000)

/-- Checks 3 to 5 of R280. -/
def Hw.zltAllowed (s : Hw) (p : Pkt) : Bool :=
  let n := p.payload.length
  s.present p.pen && s.get R.ZLT_JOB_JOB_ID p.pen != 0 && s.get R.ZLT_JOB_JOB_ID p.pen == p.job &&
  (match s.penSpd p.pen p.addr with
    | some m => decide (p.addr + n ≤ spdAddr m + spdSize)
    | none => s.inPenMem p.pen p.addr n && (unpopFirst s.loftTib p.addr n).isNone && !(s.hitsSave p.pen p.addr n)) &&
  (p.slot == 0xFFFF || (s.penSpd p.pen p.addr).isSome)

/-- Whether two packets are of one message. -/
def RxMsg.is (m : RxMsg) (p : Pkt) : Bool := m.src == p.src && m.tc == p.tc && m.msg == p.msg

/-- The open message of a packet, opened by its first one; a message that names a slot has its write start checked then
(R184). -/
def Hw.openMsg (s : Hw) (p : Pkt) (bad : Bool) : Hw :=
  if (s.dev.rxm.any fun m => m.is p) || decide (8192 ≤ s.dev.rxm.length) then s
  else
    let st := if bad then none else s.penSpd p.pen p.addr
    let plan := s.slotOf p.pen s.clk.frame
    let s := match st with
      | some n => s.writeStart n plan p.slot 0xFFFFFFFF
      | none => s
    { s with dev.rxm := s.dev.rxm ++ [{ src := p.src, tc := p.tc, msg := p.msg, npkt := p.npkt, stall := st, plan := plan,
                                        ctr := if bit p.flags 0 then some (p.ctr % 64) else none, slot := p.slot, bad := false }] }

/-- The packet noted in its message; a message whose packets are all in leaves the tracker. Answers that message. -/
def Hw.noteMsg (s : Hw) (p : Pkt) (bad : Bool) : Hw × Option RxMsg :=
  let up := fun m : RxMsg => if m.is p then { m with got := p.idx :: m.got, bad := m.bad || bad } else m
  let ms := s.dev.rxm.map up
  let done := ms.find? fun m => m.is p && decide (m.npkt ≤ m.got.eraseDups.length)
  let s := { s with dev.rxm := if done.isSome then ms.filter fun m => !(m.is p) else ms }
  (s.set R.ZLT_OPEN_OPEN 0 s.dev.rxm.length, done)

/-- A packet refused at checks 3 to 5: counted, recorded once a message, answered DENIED. -/
def Hw.denyData (s : Hw) (p : Pkt) : Hw :=
  let first := !(s.dev.rxm.any fun m => m.is p && m.bad)
  let s := ((s.inc R.ZLT_DENY_INBOUND).openMsg p true)
  let s := if first then s.log E.ZLT_DENY { kind := 2, unit := 0, pen := p.pen, addr := p.addr, detail := p.src } else s
  ((s.noteMsg p true).1).sendAck p.src p.tc 0x10 p.msg

/-- What every received packet goes through: the link must be UP; its bytes count and its credits go back; the CRC and the
UDP checksum; transit; whether the packet is one that `want` picks, and no pen's packet on a device port (R38; log 28); duplicates and
PSNs out of range; the checks 3 to 5 of R280 that `ok` makes, with the DENIED answer; then `body`, unless `full` says that there is no
room for it. -/
def Run.rx (r : Run) (l : Nat) (raw : Bytes) (udpOk ce : Bool) (want : Pkt → Bool) (ok full : Pkt → Run → Bool) (body : Pkt → Run → Run) : Run :=
  let herd := r.hw.get R.LNK_STATUS_MODE l == 0
  if r.hw.get R.LNK_STATUS_STATE l ≠ 2 ∨ r.hw.devId = 0xFFFF then r
  else
    let r := r.on fun s => (s.hearLink l).inc R.LNK_RX_BYTES_BYTES l raw.length
    match Pkt.of raw with
    | none => r.on fun s => s.inc R.ZLT_DROP_CRC
    | some p =>
      let r := if herd then r.on fun s => s.emit (.head l (linkHeader 0 0 p.tc (cdiv p.size 64))) else r
      if !herd && !udpOk then r.on fun s => s.inc R.ZLT_DROP_CRC
      else if p.dst ≠ r.hw.devId then r.on fun s => s.transit herd p
      else if !(want p) then r
      else if !(r.hw.carries l p) then r.on fun s => s.inc R.ZLT_DROP_MISC
      else
        let k := flowKey p.src p.tc
        let r := if ce then r.on fun s => (s.inc R.ZLT_ECN_CE).modRx k fun f => { f with ece := true } else r
        if p.typ = 2 then body p r
        else
          let f := r.hw.rxFlow k
          let d := (p.psn + 2 ^ 32 - f.next % 2 ^ 32) % 2 ^ 32
          if 2 ^ 31 ≤ d ∨ f.got.contains p.psn then r.on fun s => (s.inc R.ZLT_DROP_DUP).ackLater p.src p.tc
          else if 1024 ≤ d then r
          else if !(ok p r) then r.on fun s => (s.modRx k fun f => f.note p.psn).denyData p
          else if full p r then r.on fun s => s.inc R.ZLT_DROP_MISC
          else (body p (r.on fun s => (s.modRx k fun f => f.note p.psn).inc R.ZLT_RX_PKTS_PKTS)).on fun s => s.ackLater p.src p.tc

/-- A DATA packet that passed the checks lands; with the message's last one its counter rises and its slot write
completes (R281). -/
def Run.landData (r : Run) (p : Pkt) : Run :=
  let m := bits p.flags 1 2
  let r := r.on fun s => (s.openMsg p false).inc R.ZLT_PEN_RX_BYTES_BYTES p.pen p.payload.length
  let r := match r.hw.penSpd p.pen p.addr with
    | some n => r.remoteBytes n p.addr p.payload m
    | none => r.memWrite p.addr p.payload m
  let (s, done) := r.hw.noteMsg p false
  let r := r.on fun _ => s
  match done with
  | some ms => match ms.bad, ms.stall with
    | false, some n => r.remoteEnd n ms.plan ms.ctr ms.slot
    | _, _ => r
  | none => r

/-- ZLT_DATA_RX: a DATA packet arrives on a link, as the bytes between link headers with the CRC (`udpOk` and `ce` are what
network mode's UDP checksum and IP header say); its write meets the banks of its stall (R174, R175). -/
def execZltDataRx (l : LinkId) (raw : Landing) (udpOk ce : Bool) (s : State) : Host.Outcome State Fault Refusal :=
  s.run fun r => r.rx l.val raw.bytes udpOk ce (fun p => p.typ == 1) (fun p r => r.hw.zltAllowed p)
    (fun p r => !(r.hw.dev.rxm.any fun m => m.is p) && decide (8192 ≤ r.hw.dev.rxm.length))
    fun p r => (r.landData p).on fun s => match s.penSpd p.pen p.addr with
      | some n => s.metBanks n (raw.met.yields, raw.met.sameRow)
      | none => s

/-! ## Received acknowledgements, retransmission and rates (R277, R282) -/

/-- A congestion echo lowers the rate by 1/8, at most once per 10 µs, to no less than 10 Gbit/s; the 10 µs to the next rise begin
anew. -/
def Hw.rateCut (s : Hw) (d : Nat) : Hw :=
  let (rate, cut, _) := s.rateOf d
  if s.clk.now < cut + 1000 ∧ cut ≠ 0 then { s with dev.rates := Tbl.insert d (rate, cut, s.clk.now) s.dev.rates }
  else { s with dev.rates := Tbl.insert d (max 10000 (rate - rate / 8), s.clk.now, s.clk.now) s.dev.rates }

/-- RATE_RECOVERY: 10 µs without an echo raise a destination's rate by 1 Gbit/s, up to its cap (R277). -/
def execRateRecovery (dev : BitVec 12) (s : State) : Host.Outcome State Fault Refusal :=
  s.onHw fun h =>
    let (rate, cut, up) := h.rateOf dev.toNat
    match (h.route dev.toNat).bind (h.egress dev.toNat) with
    | none => h
    | some e =>
      let h := h.reach (up + 1000)
      { h with dev.rates := Tbl.insert dev.toNat (min (25000 * fld e.data 3 1) (rate + 1000), cut, h.clk.now) h.dev.rates }

/-- Whether an ACK covers a PSN. -/
def acked (p : Pkt) (psn : Nat) : Bool :=
  let d := (p.psn + 2 ^ 32 - psn) % 2 ^ 32
  let e := (psn + 2 ^ 32 - (p.psn + 1)) % 2 ^ 32
  (decide (0 < d) && decide (d < 2 ^ 31)) || (decide (e < 64) && bit (fld p.payload 0 8) e)

/-- What an ACK does: packets retire, a DENIED message fails, an echo lowers the rate, waiting commands go on. -/
def Run.ackIn (r : Run) (p : Pkt) : Run :=
  let k := flowKey p.src p.tc
  let r := r.on fun s =>
    let pen := (((s.flow k).unacked.find? fun x => x.pkt.msg == p.msg).map (·.pen)).getD 0
    let yoke := (s.flow k).unacked.any fun x => x.pkt.msg == p.msg && x.pkt.mirrors
    let s := s.modFlow k fun f => { f with unacked := f.unacked.filter fun x => !(acked p x.pkt.psn) }
    let s := if bit p.flags 4 then s.msgFail k p.msg pen .denied yoke else s
    if bit p.flags 3 then s.rateCut p.src else s
  r.pumpPuts.postAllHeld

/-- ZLT_ACK_RX. -/
def execZltAckRx (l : LinkId) (raw : Bytes) (udpOk ce : Bool) (s : State) : Host.Outcome State Fault Refusal :=
  s.run fun r => r.rx l.val raw udpOk ce (fun p => p.typ == 2) (fun _ _ => true) (fun _ _ => false) fun p r => r.ackIn p

/-- Whether a packet still waits in a transmit queue. -/
def Hw.queued (s : Hw) (p : Pkt) : Bool :=
  s.dev.txq.any fun y => y.2.psn == p.psn && flowKey y.2.dst y.2.tc == flowKey p.dst p.tc && y.2.typ == p.typ && y.2.src == p.src

/-- ZLT_RETRANSMIT: the RTO of an unacknowledged packet is over; it is resent, or after RETRY_MAX + 1 sends its message
fails (R282). A packet that still waits in its queue is not put there twice; one whose port may no longer transmit to its destination
fails its message (R276). Nothing is sent while DEVICE_ID is 0xFFFF (R288). -/
def execZltRetransmit (dev : BitVec 12) (tc : Fin 3) (psn : BitVec 32) (s : State) : Host.Outcome State Fault Refusal :=
  s.run fun r => (r.on fun h =>
    let k := flowKey dev.toNat tc.val
    match (h.flow k).unacked.find? fun x => x.pkt.psn == psn.toNat with
    | none => h
    | some x =>
      let rto := if h.network x.port then 100 * h.get R.ZLT_CFG_RTO_US else 2000
      let h := h.reach (x.sent + rto)
      let yoke := x.pkt.mirrors
      if h.devId = 0xFFFF then h
      else if h.get R.ZLT_CFG_RETRY_MAX < x.tries then h.msgFail k x.pkt.msg x.pen .retry yoke
      else if !(h.maySend x.pkt.dst x.port) then (h.inc R.ZLT_DENY_EGRESS).msgFail k x.pkt.msg x.pen .egress yoke
      else
        let h := h.modFlow k fun f => { f with unacked := f.unacked.map fun y =>
          if y.pkt.psn = psn.toNat then { y with sent := h.clk.now, tries := y.tries + 1 } else y }
        if h.queued x.pkt then h else (h.inc R.ZLT_RETX_RETX).enqueue x.port x.pkt).pumpPuts.postAllHeld

end Sys2Proof.Machine
end

