-- ==== Sys2Proof/Machine/Peg.lean ====
section
/-! DEFINITION. Peg barriers (Section 7 of 10_herd_links.md): groups, local and child arrivals, releases, timeouts, and
configuration. -/

namespace Sys2Proof.Machine

/-- A peg group beside its registers. -/
def Hw.peg (s : Hw) (g : Nat) : PegSt := Tbl.get {} g s.dev.pegs

/-- The local arrivals an occurrence of a group takes; 0 lies outside LOCAL_N's range and is taken as 1 (log 28). -/
def Hw.localN (s : Hw) (g : Nat) : Nat := max 1 (s.get R.PEG_GCFG_LOCAL_N g)

/-- A peg group changed; its counts follow. -/
def Hw.modPeg (s : Hw) (g : Nat) (f : PegSt → PegSt) : Hw :=
  let s := { s with dev.pegs := Tbl.modify {} g f s.dev.pegs }
  let x := s.peg g
  (s.set R.PEG_GSTATUS_LOCAL_COUNT g (min x.locals (s.localN g))).set R.PEG_GSTATUS_CHILD_ARRIVED g (min x.kids.length 63)

/-- The highest REASON in force for a pen (R292): SAG, the power cap loop or the current clamp, a thermal level or cap. -/
def Hw.limiter (s : Hw) (p : Nat) : Nat :=
  let ns := s.penStalls p
  if s.is R.PWR_STATUS_SAG_WARN then 3
  else if s.is R.PWR_STATUS_CLAMP || decide (s.get R.PWR_STATUS_ACLK_MHZ < 1500) then 2
  else if ns.any fun n => s.is R.THM_CT_LEVEL (dieOf n) || s.is R.THM_ZONE_TRIP (hubOf n) || s.is R.MHB_STATUS_THR_LEVEL (hubOf n) || s.is R.MHB_STATUS_ACLK_CAP (hubOf n) then 1
  else 0

/-- Every group notes the conditions now in force (R292); called where they change. -/
def Hw.notePegs (s : Hw) : Hw :=
  s.each (List.range 64) fun g s =>
    if s.get R.PEG_GSTATUS_STATE g = 1 then s.modPeg g fun x => { x with seen := max x.seen (s.limiter (s.get R.PEG_GCFG_PEN g)) } else s

/-- A peg packet sent to a device (Table 10.7). -/
def Hw.pegSend (s : Hw) (g typ dst dev reason : Nat) : Hw :=
  let pen := s.get R.PEG_GCFG_PEN g
  let p : Pkt := { typ := typ, tc := 0, src := s.devId, dst := dst, job := s.get R.ZLT_JOB_JOB_ID pen, pen := pen,
                   payload := leBytes 4 (s.get R.PEG_GTAG_GROUP_TAG g) ++ leBytes 4 (s.get R.PEG_GSEQ_SEQ g) ++ leBytes 2 dev ++
                     leBytes 1 reason ++ zeros 5 }
  match s.penRoute dst with
  | none => s.msgFail (flowKey dst 0) (s.flow (flowKey dst 0)).msg pen .noRoute false
  | some k =>
    if s.maySend dst k then s.sendRel k pen p
    else (s.inc R.ZLT_DENY_EGRESS).msgFail (flowKey dst 0) (s.flow (flowKey dst 0)).msg pen .egress false

/-- The PEG_SYNCs of a group that wait: stall, detached slot and command. -/
def Hw.pegWaits (s : Hw) (g : Nat) : List (Nat × Nat × Detached) :=
  s.dev.stls.flatMap fun kv => (kv.2.det.filter fun d => d.2.op == 0x15 && d.2.key == g && d.2.waits != 0).map fun d => (kv.1, d.1, d.2)

/-- A waiting PEG_SYNC ends: its release record is written (R290). -/
def Run.endSync (r : Run) (x : Nat × Nat × Detached) (dev reason status wait : Nat) : Run :=
  let b := x.2.2.cmd
  let r := if fld b 4 4 = 0xFFFFFFFF then r
    else r.putExt (x.2.2.cx x.1) (fld b 2 1) (fld b 4 4) (leBytes 4 x.2.2.occ ++ leBytes 2 dev ++ leBytes 1 reason ++ leBytes 1 status ++
      leBytes 4 (min wait 0xFFFFFFFF) ++ zeros 4) 0
  r.on fun s => s.modStl x.1 fun t => { t with det := Tbl.insert x.2.1 { x.2.2 with waits := 0 } t.det }

/-- Reference cycles since the group's set was complete. -/
def Hw.pegWait (s : Hw) (g : Nat) : Nat := match (s.peg g).setAt with
  | some t => s.clk.now - t
  | none => 0

/-- The current occurrence released: local commands end, the wait and the pace are counted, SEQ advances (R291, R293). -/
def Run.pegRelease (r : Run) (g dev reason : Nat) : Run :=
  let seq := r.hw.get R.PEG_GSEQ_SEQ g
  let w := r.hw.pegWait g
  let r := r.each ((r.hw.pegWaits g).filter fun x => x.2.2.occ == seq) fun x r => r.endSync x dev reason 0 (10 * w)
  r.on fun s =>
    let s := (((s.set R.PEG_GSTATUS_LAST_REASON g reason).set R.PEG_GLAST_LAST_DEV g dev).inc R.PEG_GRELEASES_RELEASES g).inc R.PEG_GWAIT_US_WAIT g (w / 100)
    let s := if dev = s.devId then (s.set R.PEG_GSTATUS_PACE_LIMITER g 1).inc R.PEG_GCOUNTS_PACED g else s
    (s.set R.PEG_GSEQ_SEQ g (seq + 1)).modPeg g fun x =>
      { x with locals := x.locals - s.localN g, kids := [], setAt := none, dev := s.devId,
               reason := s.limiter (s.get R.PEG_GCFG_PEN g), seen := s.limiter (s.get R.PEG_GCFG_PEN g) }

/-- A complete set is passed on: to the parent, or by the root as a release to its children; `fuel` bounds the occurrences
that local arrivals already in complete. -/
def Run.pegCheck (g : Nat) : Nat → Run → Run
  | 0, r => r
  | fuel + 1, r =>
    let x := r.hw.peg g
    if r.hw.get R.PEG_GSTATUS_STATE g ≠ 1 ∨ x.setAt.isSome ∨ x.locals < r.hw.localN g ∨
        x.kids.length < r.hw.get R.PEG_GCFG_CHILD_COUNT g then r
    else
      let par := r.hw.get R.PEG_GPARENT_PARENT_DEV g
      let r := r.on fun s => s.modPeg g fun x => { x with setAt := some s.clk.now }
      if par = 0xFFFF then
        let r := r.on fun s => s.each x.kids.eraseDups fun d s => s.pegSend g 4 d x.dev x.reason
        Run.pegCheck g fuel (r.pegRelease g x.dev x.reason)
      else r.on fun s => s.pegSend g 3 par x.dev x.reason

/-- How many occurrences the local arrivals in hand could still complete. -/
def Hw.pegFuel (s : Hw) (g : Nat) : Nat := (s.peg g).locals + 1

/-- Whether a PEG_SYNC is malformed (Table 10.8). -/
def syncBad (s : Hw) (p : Nat) (b : Bytes) : Bool :=
  let g := fld b 1 1
  let o := fld b 4 4
  b.length != 64 || decide (63 < g) || decide (7 < fld b 2 1) || !(zeroAt b 3 1) || (o != 0xFFFFFFFF && o % 16 != 0) || !(zeroAt b 0xA 2) ||
  decide (52000 < fld b 0xC 4) || !(zeroAt b 0x10 48) || !(s.is R.PEG_GCFG_ENABLE g) || s.get R.PEG_GSTATUS_STATE g == 0 || s.get R.PEG_GCFG_PEN g != p

/-- The requests of a pen bound in a frame that a broken barrier reaches (R294). -/
def Hw.pegBlame (s : Hw) (p f : Nat) : Hw := s.blame p (fun b => b.frame == f) Crib.PEER_TIMEOUT

/-- PEG_SYNC (R290): a local arrival; on a BROKEN group the command ends with STATUS 2 (R294). -/
def execPegSync (n : StallId) (i : Issue) (cmd : Bytes) (s : State) : Host.Outcome State Fault Refusal :=
  s.runStall n.val 6 i fun c r =>
      let g := fld cmd 1 1
      let out := if fld cmd 4 4 = 0xFFFFFFFF then [] else [(⟨fld cmd 2 1, fld cmd 4 4, 16⟩ : Ext)]
      let slots := [fld cmd 8 2]
      if syncBad r.hw c.p cmd then r.malformed c 0x15 (Hw.dmaMalformed c) out slots
      else
        let x := r.hw.extFault c out
        if !x.none? then r.extFaulted c x out slots
        else match r.hw.freeSlot c.n c.u0 with
        | none => r
        | some d =>
          let x := r.hw.peg g
          let occ := r.hw.get R.PEG_GSEQ_SEQ g + x.locals / r.hw.localN g
          let r := r.on fun s => (s.writeStart c.n c.plan (fld cmd 8 2) c.taskWord).detach c d
            { c.detached 0x15 cmd with key := g, occ := occ, waits := 1 }
          if r.hw.get R.PEG_GSTATUS_STATE g = 2 then
            let (v, h) := r.hw.draw
            (({ r with hw := h }).endSync (c.n, d, (Tbl.get {} d (h.stl c.n).det)) (v % 65536) (v / 65536 % 4) 2 (r.hw.pegWait g)).on fun s =>
              s.pegBlame c.p c.frame
          else
            let r := r.on fun s => s.modPeg g fun x =>
              let first := x.locals < s.localN g
              { x with locals := x.locals + 1, dev := if first then s.devId else x.dev,
                       reason := if first then max x.seen (s.limiter c.p) else x.reason }
            r.pegCheck g (r.hw.pegFuel g)

/-- Check 3 of R280, which peg packets pass too (R289). -/
def Hw.jobOk (s : Hw) (p : Pkt) : Bool :=
  let job := s.get R.ZLT_JOB_JOB_ID p.pen
  s.present p.pen && job != 0 && job == p.job

/-- The group of a pen in state `st` whose GROUP_TAG a peg packet carries (R296). -/
def Hw.pegFind (s : Hw) (st : Nat) (p : Pkt) : Option Nat :=
  (List.range 64).find? fun g => s.get R.PEG_GSTATUS_STATE g == st && s.get R.PEG_GCFG_PEN g == p.pen && s.get R.PEG_GTAG_GROUP_TAG g == fld p.payload 0 4

/-- A peg packet that no ACTIVE group of its pen takes is counted: a release that comes after its group's timeout is STALE, every
other SEQ_ERR (R296), at the pen's BROKEN group of that tag, else at its first enabled group, else at group 0 (log 28). -/
def Hw.pegStray (s : Hw) (p : Pkt) : Hw := match s.pegFind 2 p with
  | some g =>
    let cur := s.get R.PEG_GSEQ_SEQ g
    let seq := fld p.payload 4 4
    if seq < cur ∨ (seq = cur ∧ p.typ = 4) then s.inc R.PEG_GERR_STALE g else s.inc R.PEG_GERR_SEQ_ERR g
  | none => s.inc R.PEG_GERR_SEQ_ERR
      (((List.range 64).find? fun g => s.get R.PEG_GCFG_PEN g == p.pen && s.get R.PEG_GSTATUS_STATE g != 0).getD 0)

/-- A received peg packet judged by its tag and SEQ; `body` runs for the current occurrence (R296). -/
def Run.pegRx (r : Run) (p : Pkt) (body : Nat → Run → Run) : Run :=
  let seq := fld p.payload 4 4
  match r.hw.pegFind 1 p with
  | none => r.on fun s => s.pegStray p
  | some g =>
    let cur := r.hw.get R.PEG_GSEQ_SEQ g
    if seq < cur then r.on fun s => s.inc R.PEG_GERR_STALE g
    else if seq ≠ cur then r.on fun s => s.inc R.PEG_GERR_SEQ_ERR g
    else body g r

/-- PEG_ARRIVE: a child's arrival (R291). -/
def execPegArrive (l : LinkId) (raw : Bytes) (udpOk ce : Bool) (s : State) : Host.Outcome State Fault Refusal :=
  s.run fun r => r.rx l.val raw udpOk ce (fun p => p.typ == 3) (fun p r => r.hw.jobOk p) (fun _ _ => false) fun p r =>
    r.pegRx p fun g r =>
      let r := r.on fun s => s.modPeg g fun x => { x with kids := x.kids ++ [p.src], dev := fld p.payload 8 2, reason := fld p.payload 0xA 1 % 4 }
      r.pegCheck g (r.hw.pegFuel g)

/-- PEG_RELEASE: forwarded unchanged to the children that arrived, then released here (R291). -/
def execPegRelease (l : LinkId) (raw : Bytes) (udpOk ce : Bool) (s : State) : Host.Outcome State Fault Refusal :=
  s.run fun r => r.rx l.val raw udpOk ce (fun p => p.typ == 4) (fun p r => r.hw.jobOk p) (fun _ _ => false) fun p r =>
    r.pegRx p fun g r =>
      let dev := fld p.payload 8 2
      let reason := fld p.payload 0xA 1 % 4
      let r := r.on fun s => s.each (s.peg g).kids.eraseDups fun d s => s.pegSend g 4 d dev reason
      let r := r.pegRelease g dev reason
      r.pegCheck g (r.hw.pegFuel g)

/-- Every waiting PEG_SYNC of a group ends with a status; what their records say of LAST_DEV and REASON is open. -/
def Run.pegBreak (r : Run) (g status : Nat) : Run :=
  let ws := r.hw.pegWaits g
  let w := 10 * r.hw.pegWait g
  let r := r.each ws fun x r =>
    let (v, h) := r.hw.draw
    ({ r with hw := h }).endSync x (v % 65536) (v / 65536 % 4) status w
  r.on fun s => (s.set R.PEG_GSTATUS_STATE g 2).modPeg g fun x => { x with setAt := none }

/-- PEER_TIMEOUT (R294): the release has not come within PEER_TO_US (0: four frames) of the set's completion. -/
def execPeerTimeout (g : GroupId) (s : State) : Host.Outcome State Fault Refusal :=
  s.run fun r =>
    let after := r.hw.get R.PEG_GTO_PEER_TO_US g.val
    let lim := 100 * (if after = 0 then 4 * r.hw.tFrame else after)
    match r.hw.get R.PEG_GSTATUS_STATE g.val, (r.hw.peg g.val).setAt with
    | 1, some t =>
      let r := r.on fun s => s.reach (t + lim)
      let p := r.hw.get R.PEG_GCFG_PEN g.val
      let fs := match ((r.hw.pegWaits g.val).map fun x => x.2.2.frame).eraseDups with
        | [] => [r.hw.clk.frame]
        | fs => fs
      (r.pegBreak g.val 1).on fun s =>
        ((s.inc R.PEG_GCOUNTS_TIMEOUTS g.val).log E.PEER_TIMEOUT { kind := 2, unit := 0, pen := p, slot := g.val }).each fs fun f s => s.pegBlame p f
    | _, _ => r

/-- The peg groups of a fenced pen: their waits end with STATUS 2 and they are BROKEN (R295). -/
def Run.pegFence (r : Run) (p : Nat) : Run :=
  r.each (List.range 64) fun g r =>
    if r.hw.get R.PEG_GSTATUS_STATE g = 1 ∧ r.hw.get R.PEG_GCFG_PEN g = p then r.pegBreak g 2 else r

/-! ## Configuration (R289) -/

/-- A group made ACTIVE at occurrence 1 with no arrivals and all its counts clear; the conditions now in force count from here
(R289, R292). -/
def Hw.pegStart (s : Hw) (g : Nat) : Hw :=
  let s := s.each [R.PEG_GCFG_RESET, R.PEG_GCOUNTS_PACED, R.PEG_GCOUNTS_TIMEOUTS, R.PEG_GRELEASES_RELEASES, R.PEG_GWAIT_US_WAIT, R.PEG_GERR_STALE,
    R.PEG_GERR_SEQ_ERR] fun f s => s.set f g 0
  ((s.set R.PEG_GSEQ_SEQ g 1).set R.PEG_GSTATUS_STATE g 1).modPeg g fun _ =>
    { seen := s.limiter (s.get R.PEG_GCFG_PEN g), dev := s.devId }

/-- Whether a configuration write is discarded: ACTIVE with an arrival for the current occurrence. -/
def Hw.pegBusy (s : Hw) (g : Nat) : Bool :=
  s.get R.PEG_GSTATUS_STATE g == 1 && (decide (0 < (s.peg g).locals) || !((s.peg g).kids.isEmpty))

/-- A write to register `reg` of a group's four configuration registers: discarded with REJECT while an occurrence is in
progress; enabling, or RESET = 1, starts the group; clearing ENABLE disables it. A BROKEN group leaves that state only through RESET
(R294). -/
def Hw.pegConfig (s : Hw) (g reg v : Nat) : Hw :=
  if s.pegBusy g then s.set R.PEG_GSTATUS_REJECT g 1
  else if reg = 0 then
    let was := s.is R.PEG_GCFG_ENABLE g
    let s := (((s.set R.PEG_GCFG_ENABLE g (v % 2)).set R.PEG_GCFG_PEN g (bits v 2 4)).set R.PEG_GCFG_LOCAL_N g (bits v 6 8)).set R.PEG_GCFG_CHILD_COUNT g
      (bits v 14 6)
    if bit v 1 then s.pegStart g
    else if s.get R.PEG_GSTATUS_STATE g = 2 then s
    else if !(bit v 0) then s.set R.PEG_GSTATUS_STATE g 0
    else if !was then s.pegStart g else s
  else if reg = 1 then s.set R.PEG_GPARENT_PARENT_DEV g v
  else if reg = 2 then s.set R.PEG_GTAG_GROUP_TAG g v
  else s.set R.PEG_GTO_PEER_TO_US g v

/-- The value of PEG_GCFG with ENABLE and RESET as given. -/
def Hw.pegWord (s : Hw) (g en rs : Nat) : Nat :=
  en + 2 * rs + 4 * s.get R.PEG_GCFG_PEN g + 64 * s.get R.PEG_GCFG_LOCAL_N g + 16384 * s.get R.PEG_GCFG_CHILD_COUNT g

/-- PEG_ENABLE: PEG_GCFG written with ENABLE = 1, its other fields as they are. -/
def execPegEnable (g : GroupId) (s : State) : Host.Outcome State Fault Refusal := s.byHostHw fun h => h.pegConfig g.val 0 (h.pegWord g.val 1 0)

/-- PEG_RESET: PEG_GCFG written with RESET = 1, its other fields as they are. -/
def execPegReset (g : GroupId) (s : State) : Host.Outcome State Fault Refusal :=
  s.byHostHw fun h => h.pegConfig g.val 0 (h.pegWord g.val (h.get R.PEG_GCFG_ENABLE g.val) 1)

/-- PEG_CONFIG_WRITE: PEG_GCFG, PEG_GPARENT, PEG_GTAG or PEG_GTO written. -/
def execPegConfigWrite (g : GroupId) (reg : Fin 4) (value : BitVec 32) (s : State) : Host.Outcome State Fault Refusal :=
  s.byHostHw fun h => h.pegConfig g.val reg.val value.toNat

end Sys2Proof.Machine
end

