-- ==== Sys2Proof/Machine/Scarf.lean ====
section
/-! DEFINITION. The scarf engine (Section 6 of 06_sparsity.md): SCARF_PACK. -/

namespace Sys2Proof.Machine

/-- Bytes of a piece (R165). -/
def pieceSize : Nat := 105280

/-- The fields of a SCARF_PACK command (Table 6.8). -/
structure ScarfPack where
  tiles : Nat
  ctr   : Nat
  nrows : Nat
  slotO : Nat
  row0  : Nat
  k0    : Nat
  kb    : Nat
  bound : Nat
  src   : Nat
  dst   : Nat
deriving DecidableEq, Repr

/-- The fields read from the command's 64 bytes. -/
def ScarfPack.of (b : Bytes) : ScarfPack :=
  { tiles := fld b 2 1, ctr := fld b 3 1, nrows := fld b 4 2, slotO := fld b 6 2, row0 := fld b 8 4, k0 := fld b 0xC 4,
    kb := fld b 0x10 4, bound := fld b 0x14 4, src := fld b 0x18 8, dst := fld b 0x20 8 }

/-- Whether a command is malformed (R166). -/
def ScarfPack.bad (f : ScarfPack) (s : Hw) (p : Nat) (b : Bytes) : Bool :=
  b.length != 64 || !(zeroAt b 1 1) || decide (f.tiles = 0) || decide (16 < f.tiles) || decide (63 < f.ctr) || decide (f.nrows = 0) ||
  decide (256 < f.nrows) || decide (f.kb = 0) || decide (40000 < f.bound) || f.dst % 64 != 0 || !(zeroAt b 0x28 24) ||
  s.outsidePen p f.src 32 || (s.penSpd p f.dst).isNone

/-- A block entry of a CRB matrix (R164): its BCOL and its 16 trits, of which an invalid code gives 0 and is counted. -/
structure CrbBlk where
  col   : Nat
  trits : List Int
  bad   : Nat
deriving DecidableEq

/-- A block entry read from its 8 bytes. -/
def CrbBlk.of (e : Nat) : CrbBlk :=
  let cs := (List.range 16).map fun k => bits e (16 + 2 * k) 2
  { col := e % 65536, trits := cs.map fun c => if c = 1 then 1 else if c = 3 then -1 else 0, bad := (cs.filter (· == 2)).length }

/-- A matrix header (R164). -/
structure CrbHdr where
  rows : Nat
  cols : Nat
  nblk : Nat
  ptr  : Nat
  blk  : Nat
deriving DecidableEq, Repr

/-- The header at `src`, where its MAGIC is right and its arrays lie in populated memory (R167). -/
def Run.crbHdr (r : Run) (src : Nat) : Option CrbHdr :=
  let b := r.read src 32
  let h : CrbHdr := { rows := fld b 4 4, cols := fld b 8 4, nblk := fld b 0xC 4, ptr := src + fld b 0x10 4, blk := src + fld b 0x14 4 }
  let tib := r.hw.loftTib
  if fld b 0 4 = 0x32425243 ∧ unpopFirst tib h.ptr (4 * (h.rows + 1)) = none ∧ unpopFirst tib h.blk (8 * h.nblk) = none then some h else none

/-- The range of block entries of row `i`: none for a row beyond ROWS. -/
def Run.crbSpan (r : Run) (h : CrbHdr) (i : Nat) : Option (Nat × Nat) :=
  if h.rows ≤ i then none else some (r.readNat (h.ptr + 4 * i) 4, r.readNat (h.ptr + 4 * (i + 1)) 4)

/-- What the entries of a row give (R167): its good blocks, how many entries are dropped, the BCOL of the first one dropped, and how
many entries were read. -/
structure CrbRow where
  blks  : List CrbBlk := []
  drops : Nat := 0
  first : Option Nat := none
  read  : Nat := 0
deriving DecidableEq

/-- A row read: it is empty when PTR decreases or exceeds NBLK, and each of its entries is dropped unread (its first drop then goes
by the number of its entry, log 54); an entry with BCOL beyond the matrix, or one that repeats, is dropped. -/
def Run.crbRow (r : Run) (h : CrbHdr) (i : Nat) : CrbRow :=
  match r.crbSpan h i with
  | none => {}
  | some (lo, hi) =>
    if hi < lo ∨ h.nblk < hi then { drops := hi - lo, first := if lo < hi then some lo else none }
    else
      let es := (List.range (hi - lo)).map fun j => CrbBlk.of (r.readNat (h.blk + 8 * (lo + j)) 8)
      let (good, bad) := es.foldl (fun (a : List CrbBlk × List Nat) e =>
        if h.cols / 16 ≤ e.col ∨ (a.1.any fun b => b.col == e.col) then (a.1, a.2 ++ [e.col]) else (a.1 ++ [e], a.2)) ([], [])
      { blks := good, drops := bad.length, first := bad.head?, read := es.length }

/-- A number put in an ascending list without repeats. -/
def insertNum (x : Nat) : List Nat → List Nat
  | [] => [x]
  | y :: ys => if x < y then x :: y :: ys else if x = y then y :: ys else y :: insertNum x ys

/-- The bytes of a piece: header, input map, quintet tile (R165, R82). -/
def pieceBytes (us : List Nat) (rows : List (List CrbBlk)) : Bytes :=
  let trit := fun (c k : Nat) => match us[k / 16]? with
    | none => (0 : Int)
    | some u => match ((rows[c]?).getD []).find? (fun (b : CrbBlk) => b.col == u) with
      | none => 0
      | some b => (b.trits[k % 16]?).getD 0
  leBytes 2 us.length ++ leBytes 2 (16 * us.length) ++ zeros 60 ++
  (us.flatMap (leBytes 2) ++ List.replicate (256 - 2 * us.length) 0xFF#8) ++
  (List.range (cdiv (16 * us.length) 5)).flatMap fun g => (List.range 256).map fun c =>
    BitVec.ofNat 8 ((List.range 5).foldl (fun m i => m + 3 ^ i * (trit c (5 * g + i) + 1).toNat) 0)

/-- Pieces with their poison written in turn, each advancing the counter. -/
def Run.scarfPieces (r : Run) (n dst ctr : Nat) (ps : List (Bytes × Nat)) : Run :=
  r.each (ps.zip (List.range ps.length)) fun x r =>
    (r.remoteBytes n (dst + x.2 * pieceSize) x.1.1 x.1.2).remoteEnd n 0 (some ctr) 0xFFFF

/-- What a SCARF_PACK reads of a matrix beside its header: the pointers and the block entries of its rows (R165). Answers the poison
met. -/
def Run.scarfRead (r : Run) (p : Nat) (h : CrbHdr) (f : ScarfPack) : Nat × Run :=
  let k := min f.nrows (h.rows - f.row0)
  let (_, m, r) := if k = 0 then ([], 0, r) else r.memRead (.pen p) (h.ptr + 4 * f.row0) (4 * (k + 1))
  (List.range k).foldl (fun (a : Nat × Run) i => match a.2.crbSpan h (f.row0 + i) with
    | some (lo, hi) =>
      if hi ≤ lo ∨ h.nblk < hi then a
      else
        let (_, m, r) := a.2.memRead (.pen p) (h.blk + 8 * lo) (8 * (hi - lo))
        (a.1 ||| m, r)
    | none => a) (m, r)

/-- SCARF_PACK (R165). An invalid trit code poisons the pieces that hold its block; a bad header gives one piece with UBLK = 0, its
tile area poisoned (R167). -/
def Run.scarfPack (r : Run) (h : Hx) (n : Nat) (f : ScarfPack) : Run :=
  let r := r.on fun s => (s.writeStart n h.plan f.slotO h.taskWord).set R.MHB_SCF_STATUS_PEN h.m h.p
  let done := fun (r : Run) => (r.remoteEnd n h.plan none f.slotO).on fun s => s.inc R.MHB_SCF_CMDS_CMDS h.m
  let (_, m0, r) := r.memRead (.pen h.p) f.src 32
  match r.crbHdr f.src with
  | none =>
    let r := (r.remoteArea n (f.dst + 320) (pieceSize - 320) 1).scarfPieces n f.dst f.ctr [(pieceBytes [] [], m0 ||| 1)]
    done (r.on fun s => ((s.logHx h E.SCARF_TRIT_BAD f.src 0xFFFF 1).inc R.MHB_SCF_TILES_TILES h.m).blameHxPoison h (m0 ||| 1))
  | some hd =>
    let (m1, r) := r.scarfRead h.p hd f
    let rows := (List.range f.nrows).map fun i => r.crbRow hd (f.row0 + i)
    let blks := rows.map fun x => x.blks.filter fun b => decide (f.k0 ≤ b.col) && decide (b.col < f.k0 + f.kb)
    let union := (blks.flatMap fun bs => bs.map fun b => b.col).foldl (fun u c => insertNum c u) []
    let keep := union.take (128 * f.tiles)
    let rest := union.drop (128 * f.tiles)
    let used := blks.map fun bs => bs.filter fun b => keep.contains b.col
    let bad := (used.zip (List.range used.length)).flatMap fun x => x.1.flatMap fun b => List.replicate b.bad (f.row0 + x.2, b.col)
    let drops := (rows.map (·.drops)).sum + rest.length
    let first := ((rows.zip (List.range rows.length)).findSome? fun x => x.1.first.map fun c => (f.row0 + x.2, c)).orElse fun _ =>
      rest.head?.bind fun c => ((blks.zip (List.range blks.length)).find? fun x => x.1.any fun b => b.col == c).map fun x => (f.row0 + x.2, c)
    let pieces := (chunks 128 f.tiles keep).map fun us =>
      (pieceBytes us used, m0 ||| m1 ||| (if bad.any fun x => us.contains x.2 then 1 else 0))
    let r := r.scarfPieces n f.dst f.ctr pieces
    done (r.on fun s =>
      let s := ((s.inc R.MHB_SCF_ENTRIES_ENTRIES h.m (rows.map (·.read)).sum).inc R.MHB_SCF_TILES_TILES h.m pieces.length).inc
        R.MHB_SCF_ERR_OOR h.m drops
      let s := match first with
        | some (row, c) => s.logHx h E.SPARSE_OOR f.src 0xFFFF (row + 2 ^ 32 * c)
        | none => s
      let s := s.each bad fun x s => (s.inc R.MHB_SCF_ERR_TRIT_BAD h.m).logHx h E.SCARF_TRIT_BAD f.src 0xFFFF (x.1 + 2 ^ 32 * x.2)
      s.blameHxPoison h (pieces.foldl (fun m x => m ||| x.2) 0))

/-- The outputs of a SCARF_PACK that is not executed (R177, R96): the populated rows of its pieces are poisoned with `bits`, and its
output slot completes. -/
def Run.scarfSpoil (h : Hx) (f : ScarfPack) (bits : Nat) (r : Run) : Run :=
  match r.hw.penSpd h.p f.dst with
  | none => r
  | some n =>
    let len := f.tiles * pieceSize
    (r.poisonRange f.dst (match unpopFirst r.hw.loftTib f.dst len with
      | some a => a - f.dst
      | none => len) bits).on fun s => (s.writeStart n h.plan f.slotO h.taskWord).writeDone n h.plan f.slotO

/-- SCARF_PACK: malformed commands (R166) and unpopulated extents (R343) are not executed. -/
def execScarfPack (m : HubId) (p : PenId) (i : Issue) (cmd : Bytes) (s : State) : Host.Outcome State Fault Refusal :=
  s.runHub m.val p.val 8 i fun h r =>
      let f := ScarfPack.of cmd
      match f.bad r.hw p.val cmd, r.hw.penSpd p.val f.dst with
      | false, some n =>
        match (unpopFirst r.hw.loftTib f.src 32).orElse fun _ => unpopFirst r.hw.loftTib f.dst (f.tiles * pieceSize) with
        | some a => r.hubUnpop h a cmd fun b => Run.scarfSpoil h (ScarfPack.of b) 1
        | none => (r.on fun s => s.metFar n i).scarfPack h n f
      | _, _ => (r.on fun s =>
          ((s.inc R.MHB_SCF_ERR_MALFORMED h.m).logHx h E.CMD_MALFORMED 0 0xFFFF 0x51).blameHx h Crib.SCHEDULE_FAULT) |> Run.scarfSpoil h f 3

end Sys2Proof.Machine
end

