-- ==== Sys2Proof/Machine/Fence.lean ====
section
/-! DEFINITION. Fences (Sections 3 to 5 of 13_faults_reset.md): cancelled loads and installations, the pen fence of Table
13.6, engine fences, and the disabling of a function. -/

namespace Sys2Proof.Machine

/-! ## Loads and installations that end (R43, R50, R59) -/

/-- A truss load ends with an error code: reported, counted, raised (R43). -/
def Hw.loadFail (s : Hw) (code sec detail : Nat) : Hw :=
  let s := match s.dev.load with
    | some l => if l.whole then s else (s.set R.PEN_STATE_LOAD_PENDING l.pen 0).set R.PEN_STATE_REFUSING l.pen 0
    | none => s
  let s := { s with dev.load := none }
  ((((((s.set R.TRS_STATUS_STATE 0 0).set R.TRS_STATUS_FAIL 0 1).set R.TRS_STATUS_ERR_CODE 0 code).set R.TRS_STATUS_ERR_SECTION 0 sec).set
    R.TRS_ERR_DETAIL_OFFSET 0 detail).inc R.TRS_FAIL_COUNT_FAILS).msi 0 1

/-- A load cancelled with ABORTED. No section and no field is at fault: both values are open. -/
def Hw.abortLoad (s : Hw) : Hw :=
  let (v, s) := s.draw
  let (w, s) := s.draw
  s.loadFail 0x11 v w

/-- The load of pen `p` that is PENDING or in COMMIT cancelled (R50). -/
def Hw.cancelLoad (s : Hw) (p : Nat) : Hw := match s.dev.load with
  | some l => if !l.whole && l.pen == p && (s.get R.TRS_STATUS_STATE == 4 || s.get R.TRS_STATUS_STATE == 5) then s.abortLoad else s
  | none => s

/-- A plan installation of pen `p` ends with an error code (R59). -/
def Hw.instFail (s : Hw) (p code : Nat) : Hw :=
  if ((s.pen p).inst).isNone then s
  else (((s.modPen p fun ps => { ps with inst := none }).set R.FSQ_PLAN_STATUS_STATE p 0 |>.set R.FSQ_PLAN_STATUS_FAIL p 1).set
    R.FSQ_PLAN_STATUS_ERR_CODE p code).msi 0 (16 + p)

/-! ## Engines of a pen -/

/-- Whether an engine's queues belong to pen `p`: an engine of one of its stalls, or its queues on a hub. -/
def Hw.engOf (s : Hw) (p k : Nat) : Bool := if k < 4096 then (s.penStalls p).contains (k / 16) else (k - 4096) % 16 == p

/-- The commands that run for a pen, with their engines. -/
def Hw.runningOf (s : Hw) (p : Nat) : List (Nat × QCmd) :=
  s.dev.engs.filterMap fun kv => match kv.2.run with
    | some q => if q.pen = p then some (kv.1, q) else none
    | none => none

/-- The engines' queues changed where `sel` picks them. -/
def Hw.mapEngs (s : Hw) (sel : Nat → Bool) (f : EngSt → EngSt) : Hw :=
  { s with dev.engs := (s.dev.engs.map fun kv => if sel kv.1 then (kv.1, f kv.2) else kv).filter fun kv => kv.2 != {} }

/-! ## Context records saved (R67, R69) -/

/-- A resident record copied to the save area, DIRTY clear and both CRCs formed; poison goes with its lines. -/
def Run.saveRecord (r : Run) (p x : Nat) : Run :=
  match r.hw.desc p with
  | none => r
  | some d =>
    let a := r.hw.recAddr p x
    let r := r.fetch (.pen p) a 64
    let len := min (max (r.readNat (a + 8) 4) 64) 0x100000
    let r := r.fetch (.pen p) (a + 64) (len - 64)
    let body := r.read (a + 64) (len - 64)
    let h := overlay (overlay (r.read a 60) 0x0D (leBytes 1 (r.readNat (a + 0x0D) 1 / 2 * 2))) 0x30 (leBytes 4 (if len = 64 then 0 else crc32c body))
    let bs := h ++ leBytes 4 (crc32c h) ++ body
    let b := d.saveBase + x * 0x100000
    (((r.memWriteBy b bs fun l => r.lineMark (.pen p) (a / 64 + (l - b / 64))).memWrite a (h ++ leBytes 4 (crc32c h)) (r.lineMark (.pen p) (a / 64))).on
      fun s => s.noteCtx p x)

/-- Whether a context's record is DIRTY. -/
def Run.dirty (r : Run) (p x : Nat) : Bool := bit (r.recGet p x 0x0D 1) 0

/-! ## The pen fence (R346, R348; Table 13.6) -/

/-- Whether a fence of a domain (1 stall, 2 pen, 3 CT die) starts in pen `p`; it is absorbed by one as large (R346). -/
def Hw.fenceTakes (s : Hw) (p dom n : Nat) : Bool :=
  let st := s.get R.ERR_PEN_STATE_STATE p
  let d := s.get R.ERR_PEN_STATE_DOMAIN p
  s.present p && (st == 0 || st == 3 || decide (d < dom) || (d == 1 && dom == 1 && !(bit (s.pen p).fenceStl n)))

/-- Step 1 of Table 13.6. -/
def Hw.fencePen (s : Hw) (p dom n : Nat) : Hw :=
  if !(s.fenceTakes p dom n) then s
  else
    let st := s.get R.ERR_PEN_STATE_STATE p
    let fresh := st == 0 || st == 3
    let s := ((s.set R.ERR_PEN_STATE_STATE p 1).set R.ERR_PEN_STATE_DOMAIN p dom).inc R.ERR_PEN_COUNT_FENCES p
    let s := s.modPen p fun ps => { ps with fenceAt := if fresh then s.clk.now else ps.fenceAt, runAt := none,
                                            fenceStl := if dom = 1 then (if fresh then 0 else ps.fenceStl) ||| 2 ^ n else 0 }
    let s := s.mapEngs (s.engOf p) fun e => { e with u0 := [], lap := [], main := [] }
    ((s.cancelLoad p).instFail p 0x08).traceAdd 6 p (if dom = 1 then n else 0xFF) 0xFF 0xFFFFFFFF dom

/-- ERR_PEN_LAST of a pen takes the LOG_SEQ of the record that a die logged last: at once where MG has taken or coalesced it, and with
`Hw.drainBuffers` where it waits in the die's buffer; a record that was lost has none (R348, R342). -/
def Hw.fencedBy (s : Hw) (die : Nat) (lost : Bool) (p : Nat) : Hw :=
  if s.mgt.sdgUp then s.set R.ERR_PEN_LAST_LOG_SEQ p ((Tbl.find? die s.mgt.log.last).getD (s.get R.ERR_LOG_SEQ_NEWEST))
  else s.modPen p fun ps => { ps with fenceRec := if lost then none else (Tbl.get [] die s.mgt.log.buf).getLast? }

/-- One record, with FENCED where a fence starts from it, and the fence of every pen it covers (R348). -/
def Hw.fence (s : Hw) (e : Err) (a : LogArg) (ps : List Nat) (dom n : Nat) : Hw :=
  let go := ps.filter fun p => s.fenceTakes p dom n
  let die := dieNum a.kind a.unit
  let lost := decide (64 ≤ (Tbl.get [] die s.mgt.log.buf).length)
  let s := s.log e { a with flags := if go != [] then 1 else 0 }
  let s := s.each go fun p s => s.fencedBy die lost p
  s.each ps fun p s => s.fencePen p dom n

/-- The detached waits of a stall end: no command of them completes, their output rows take POISON alone and their output slots
complete (R191). -/
def Run.endDetached (r : Run) (n : Nat) (sel : Detached → Bool) : Run :=
  let ds := (r.hw.stl n).det.filter fun kv => sel kv.2
  let r := r.each ds fun kv r =>
    let x := kv.2
    let c := x.cx n
    if x.op = 0x12 then
      let f := DmaMove.of x.cmd
      if f.src.kind = 3 then (r.moveRows c f 1 (x.copies.map (·.1))).on fun s => match f.dst.stall s c with
        | some m => s.writeDone m x.plan f.slotD
        | none => s
      else r
    else if x.op = 0x15 then (r.spoilRows c x.cmd 1).on fun s => s.writeDone n x.plan (fld x.cmd 8 2)
    else r
  r.on fun s => s.modStl n fun t => { t with det := t.det.filter fun kv => !(sel kv.2),
                                             waits := t.waits.filter fun w => match w.det with
                                               | some d => (Tbl.find? d t.det).any fun x => !(sel x)
                                               | none => true }

/-- The CONTROL sequences held on busy contexts that `sel` picks are answered with a code. -/
def Run.answerDeferred (r : Run) (p : Nat) (sel : Deferred → Bool) (code : Nat) (write : Bool := true) : Run :=
  let ds := (r.hw.pen p).deferred.filter sel
  let r := r.on fun s => s.modPen p fun ps => { ps with deferred := ps.deferred.filter fun d => !(sel d) }
  r.when write fun r => r.each ds fun d r => r.postEntry (r.controlEntry p d false code 0 (r.tokenPos p d.ctx))

/-- The stalls a pen's fence resets (Table 13.4). -/
def Hw.fenceStalls (s : Hw) (p : Nat) : List Nat :=
  if s.get R.ERR_PEN_STATE_DOMAIN p = 1 then (s.penStalls p).filter fun n => bit (s.pen p).fenceStl n else s.penStalls p

/-- What a fence does with the resident contexts of its pen (R349): a context bound to an answered step is FAULTED, every
other DIRTY record is saved; no record stays in a stall that is reset. -/
def Run.fenceContexts (r : Run) (p : Nat) (stalls busy : List Nat) : Run :=
  r.each ((r.hw.pen p).ctxs.filter fun kv => kv.2.res.resident || kv.2.res == .swapIn) fun kv r =>
    if busy.contains kv.1 ∧ kv.2.res ≠ .swapIn then r.on fun s => s.enter p kv.1 .faulted
    else
      let r := if kv.2.res.resident && r.dirty p kv.1 then r.saveRecord p kv.1 else r
      let gone := kv.2.res == .swapIn || kv.2.res == .swapOut || stalls.any fun n => decide (spdAddr n ≤ kv.2.addr) && decide (kv.2.addr < spdAddr n + spdSlot)
      r.on fun s => s.enter p kv.1 (if gone then .defined else .idle)

/-- Step 4 of Table 13.6 and the start of step 5. -/
def Run.drainEnd (r : Run) (p : Nat) : Run :=
  let stalls := r.hw.fenceStalls p
  let dom := r.hw.get R.ERR_PEN_STATE_DOMAIN p
  let ps := r.hw.pen p
  let n := ps.bound.length + ps.deferred.length
  let r := (r.pegFence p).each stalls fun n r => r.endDetached n fun _ => true
  let r := r.fenceContexts p stalls (ps.bound.map (·.ctx))
  let r := r.answerDeferred p (fun _ => true) Crib.HANG_FENCED
  let r := r.finishAll p (fun _ => true) Crib.HANG_FENCED
  let r := r.each stalls fun n r => r.resetStall n
  r.on fun s =>
    let us := (s.clk.now - ps.fenceAt) / 100
    let s := ((s.raise R.ERR_PEN_DRAIN_MAX_US p us).inc R.ERR_PEN_DRAIN_ANSWERED p n).set R.ERR_PEN_STATE_STATE p 2
    let s := if dom = 1 then s else s.mapEngs (fun k => decide (4096 ≤ k) && s.engOf p k) fun _ => {}
    (s.modPen p fun ps => { ps with frames := [], swap := [] }).showResident p

/-- Whether a U0 swap set of the pen is in progress (R70). -/
def PenSt.u0Swaps (ps : PenSt) : Bool := ps.swap.any fun e => e.u0 && !e.wait

/-- DRAIN_END: every engine of a DRAINING pen is idle, and a U0 swap set in progress has completed (R348, R349). -/
def execDrainEnd (p : PenId) (s : State) : Host.Outcome State Fault Refusal :=
  s.run fun r =>
    if r.hw.get R.ERR_PEN_STATE_STATE p.val = 1 ∧ r.hw.runningOf p.val = [] ∧ (r.hw.pen p.val).u0Swaps = false then r.drainEnd p.val else r

/-- The tenant that a running command serves, if it has a bind position. -/
def Hw.tenantOf (s : Hw) (q : QCmd) : Option Nat := q.pos.bind fun x => (s.boundAt q.pen q.frame x).map (·.tenant)

/-- When a function disable or a demotion that a running command holds up began (R351). -/
def Hw.drainFrom (s : Hw) (q : QCmd) : Option Nat :=
  match (s.tenantOf q).bind fun t => (s.ten t).disabling with
  | some t0 => some t0
  | none => if q.pos.isSome then (s.pen q.pen).yoke.demote else none

/-- An engine stopped by DRAIN_TIMEOUT: its command ends and its stall is fenced; of a hub engine, its pen (log 29). -/
def Hw.timeoutEngine (s : Hw) (k : Nat) (q : QCmd) : Hw :=
  let s := s.modEng k fun e => { e with run := none }
  match stallOfKey k with
  | some n => s.fence E.DRAIN_TIMEOUT { kind := 0, unit := n, pen := q.pen, task := q.task % 2 ^ 24 + k % 16 * 2 ^ 24 } [q.pen] 1 n
  | none => s.fence E.DRAIN_TIMEOUT { kind := 1, unit := (k - 4096) / 256, pen := q.pen, task := q.task % 2 ^ 24 + (k - 4096) / 16 % 16 * 2 ^ 24 }
      [q.pen] 2 0

/-- DRAIN_TIMEOUT: at 100 µs of a fence's or a function disable's drain, the stall of each engine still running is fenced
(Table 13.5, R351). -/
def execDrainTimeout (p : PenId) (s : State) : Host.Outcome State Fault Refusal :=
  s.onHw fun h =>
    if h.get R.ERR_PEN_STATE_STATE p.val = 1 then
      let h := h.reach ((h.pen p.val).fenceAt + 10000)
      h.each (h.runningOf p.val) fun x h => h.timeoutEngine x.1 x.2
    else h.each (h.runningOf p.val) fun x h => match h.drainFrom x.2 with
      | some t => (h.reach (t + 10000)).timeoutEngine x.1 x.2
      | none => h

/-- PEN_RESET_DONE (step 6 of Table 13.6): HELD, or RUN at the first frame start at least 10 µs later; a yoked pen is
UNPAIRED, without a role, and sends HELLO (R301, Table 11.4). -/
def execPenResetDone (p : PenId) (s : State) : Host.Outcome State Fault Refusal :=
  s.onHw fun h =>
    if h.get R.ERR_PEN_STATE_STATE p.val ≠ 2 ∨ (h.pen p.val).runAt.isSome then h
    else
      let h := if h.is R.ERR_PEN_CTRL_HOLD p.val then h.set R.ERR_PEN_STATE_STATE p.val 3
        else h.modPen p.val fun ps => { ps with runAt := some (h.clk.now + 1000) }
      if h.yoked p.val then
        ((((h.modYoke p.val fun _ => {}).set R.YOK_PEN_STATE_STATE p.val 0).set R.YOK_PEN_STATE_ROLE p.val 0).set R.YOK_PEN_STATE_MISSED p.val 0).sendHello p.val
      else h

/-- An ERR_PEN_CTRL.FENCE = 1 write (R350). -/
def Hw.hostFence (s : Hw) (p : Nat) : Hw :=
  if s.present p then (s.set R.ERR_PEN_CTRL_FENCE p 0).fence E.HOST_FENCE { kind := 4, pen := p } [p] 2 0 else s

/-- HOST_FENCE. -/
def execHostFence (p : PenId) (s : State) : Host.Outcome State Fault Refusal := s.byHostHw fun h => h.hostFence p.val

/-- An ERR_PEN_CTRL.RESUME = 1 write; a HELD pen is in RUN from the next frame start (R350). -/
def Hw.penResume (s : Hw) (p : Nat) : Hw :=
  let s := s.set R.ERR_PEN_CTRL_RESUME p 0
  if s.get R.ERR_PEN_STATE_STATE p = 3 then s.modPen p fun ps => { ps with runAt := some s.clk.now } else s

/-- PEN_RESUME. -/
def execPenResume (p : PenId) (s : State) : Host.Outcome State Fault Refusal := s.byHostHw fun h => h.penResume p.val

/-! ## Engine fences (R78, R345, R347) -/

/-- The pens that a stall fence covers. -/
def Hw.fenceStall (s : Hw) (e : Err) (n task : Nat) : Hw :=
  s.fence e { kind := 0, unit := n, pen := (s.penOf n).getD 0xFF, task := task } (s.penOf n).toList 1 n

/-- An engine reset that does not end, or a second watchdog in a frame: the stall is fenced; of a hub engine, the pen whose
queues it serves (log 29). -/
def Hw.engineHang (s : Hw) (k p task : Nat) : Hw := match stallOfKey k with
  | some n => s.fenceStall E.STALL_HANG n task
  | none => s.fence E.STALL_HANG { kind := 1, unit := (k - 4096) / 256, pen := p, task := task } [p] 2 0

/-- The engine number of a key. -/
def engOfKey (k : Nat) : Nat := if k < 4096 then k % 16 else (k - 4096) / 16 % 16

/-- The stalls and slots of a queued command's output slots: its own stall's, the destination's of a move, and those that a
stream-engine or scarf command names at its destination address. -/
def Hw.outSlots (s : Hw) (k : Nat) (q : QCmd) : List (Nat × Nat) :=
  let op := fld q.cmd 0 1
  match stallOfKey k with
  | some n =>
    if op = 0x12 then
      let f := DmaMove.of q.cmd
      match f.dst.stall s ⟨n, q.pen, k % 16, 0, q.frame, q.task, q.pos, q.u0⟩ with
      | some m => [(m, f.slotD)]
      | none => []
    else (outSlotsOf q.cmd).map fun i => (n, i)
  | none =>
    if op = 0x51 ∨ op = 0x52 then match s.penSpd q.pen (fld q.cmd (if op = 0x51 then 0x20 else 0x10) 8) with
      | some m => [(m, fld q.cmd 6 2)]
      | none => []
    else []

/-- The output rows of a queued command poisoned with POISON alone. -/
def Run.stopRows (r : Run) (k : Nat) (q : QCmd) : Run := match stallOfKey k with
  | some n => r.spoilRows ⟨n, q.pen, k % 16, r.hw.slotOf q.pen q.frame, q.frame, q.task, q.pos, q.u0⟩ q.cmd 1
  | none =>
    let rows := fun a n => r.each (r.hw.penRows q.pen a n) fun l r => r.poisonRange (l * 64) 64 1
    if fld q.cmd 0 1 = 0x51 then rows (ScarfPack.of q.cmd).dst ((ScarfPack.of q.cmd).tiles * pieceSize)
    else if fld q.cmd 0 1 = 0x52 then r.each ((r.cdeOuts (CdeCmd.of q.cmd)).flatMap fun x => r.hw.penRows q.pen x.1 x.2) fun l r => r.poisonRange (l * 64) 64 1
    else if fld q.cmd 0 1 = 0x53 ∧ fld q.cmd 1 1 = 0 then rows (fld q.cmd 0x10 8) 8
    else if fld q.cmd 0 1 = 0x54 ∧ fld q.cmd 1 1 = 0 then rows (fld q.cmd 8 8) 64
    else r

/-- A hung command is stopped: its output rows take POISON and its output slots complete, its requests get HANG_FENCED, its task goes
on (R347; log 29). -/
def Run.stopCommand (r : Run) (k : Nat) (q : QCmd) : Run :=
  let r := r.on fun s =>
    let s := (s.modEng k fun e => { e with run := none, reset := true, resetAt := s.clk.now, wdogF := some s.clk.frame }).blame q.pen
      (servedBy q.frame q.pos) Crib.HANG_FENCED
    let s := match stallOfKey k with
      | none => s
      | some n => s.modStl n fun t => { t with waits := t.waits.filter fun w => !(w.eng == k % 16 && w.det.isNone) }
    s.each (s.outSlots k q) fun x s => s.writeDone x.1 (s.slotOf q.pen q.frame) x.2
  let r := r.stopRows k q
  if r.hw.penRun q.pen then r.cmdDone q else r

/-- CMD_WATCHDOG: an engine's count reaches twice its command's bound (R78). -/
def execCmdWatchdog (e : Eng) (s : State) : Host.Outcome State Fault Refusal :=
  s.run fun r =>
    let k := Eng.key e
    match (r.hw.eng k).run with
    | none => r
    | some q =>
      let word := q.task % 2 ^ 24 + engOfKey k * 2 ^ 24
      let again := (r.hw.eng k).wdogF == some r.hw.clk.frame
      let r := r.on fun s => ((s.log E.CMD_WATCHDOG { kind := if k < 4096 then 0 else 1, unit := (stallOfKey k).getD ((k - 4096) / 256),
                                                        pen := q.pen, task := word, detail := fld q.cmd 0 1 }).inc R.FSQ_WDOG_COUNT_COUNT q.pen).inc
        R.ERR_PEN_COUNT_ENGINE_RESETS q.pen
      let r := r.stopCommand k q
      if again then r.on fun s => s.engineHang k q.pen word else r

/-- ENGINE_RESET_DONE: the engine starts its next queued command (R347). -/
def execEngineResetDone (e : Eng) (s : State) : Host.Outcome State Fault Refusal :=
  s.onHw fun h =>
    let k := Eng.key e
    if (h.eng k).reset then (h.modEng k fun x => { x with reset := false }).startNext k else h

/-- STALL_HANG: an engine reset is not complete after 2 µs (Table 13.5). -/
def execStallHang (e : Eng) (s : State) : Host.Outcome State Fault Refusal :=
  s.onHw fun h =>
    let k := Eng.key e
    let x := h.eng k
    let p := match e with
      | .stall n _ => (h.penOf n.val).getD 0
      | .hub _ _ p => p.val
    if x.reset then (h.reach (x.resetAt + 200)).engineHang k p (0xFFFFFF + engOfKey k * 2 ^ 24) else h

/-! ## Function disable (R351, R352) -/

/-- Queued commands that `sel` picks are discarded: their tasks go on without them. -/
def Run.discardQueued (r : Run) (sel : QCmd → Bool) : Run :=
  let qs := r.hw.dev.engs.flatMap fun kv => (kv.2.u0 ++ kv.2.lap ++ kv.2.main).filter sel
  let keep := fun q : QCmd => !(sel q)
  let r := r.on fun s => s.mapEngs (fun _ => true) fun e => { e with u0 := e.u0.filter keep, lap := e.lap.filter keep, main := e.main.filter keep }
  r.each qs fun q r => r.cmdDone q

/-- The disable of one tenant starts, its answers given by crib entry or by count (R351, R352). -/
def Run.disableTenant (r : Run) (t : Nat) (byCount : Bool) : Run :=
  if (r.hw.ten t).disabling.isSome then r.on fun s => s.modTen t fun x => { x with byCount := x.byCount || byCount }
  else
    let r := r.on fun s =>
      ((s.modTen t fun x => { x with disabling := some s.clk.now, byCount := byCount }).set R.ERR_FN_STATUS_DISABLING (s.fnOf t) 1).log E.FUNCTION_FENCE
        { kind := 4, tenant := t, detail := s.fnOf t }
    r.discardQueued fun q => r.hw.tenantOf q == some t

/-- The tenants in force of a function. -/
def Hw.tenantsOf (s : Hw) (f : Nat) : List Nat := match s.dev.truss with
  | none => []
  | some t => (t.tenants.filter (·.function == f)).map (·.id)

/-- A function disabled: each of its tenants is (R351). -/
def Run.disableFn (r : Run) (f : Nat) (byCount : Bool) : Run :=
  (r.each (r.hw.tenantsOf f) fun t r => r.disableTenant t byCount).on fun s => s.set R.ERR_FN_STATUS_DISABLING f 1

/-- The tenants of a function that are being disabled, and the demoted pens that its tenants name. -/
def Hw.endingTenants (s : Hw) (f : Nat) : List Nat :=
  (s.dev.tens.filter fun kv => kv.2.disabling.isSome && s.fnOf kv.1 == f).map (·.1)
def Hw.demotedPens (s : Hw) (f : Nat) : List Nat :=
  s.penList.filter fun p => (s.pen p).yoke.demote.isSome && ((s.dev.truss.map (·.tenants)).getD []).any fun t => t.function == f && bit t.penMask p

/-- Whether the end of a function's drain raises VF vector 0 (R398): after a truss-driven disable of a tenant of it, or the demotion
of a pen that its tenants name, whose own drain ends here or has ended with that of another function. -/
def Hw.tellsVf (s : Hw) (f : Nat) : Bool :=
  let ts := s.endingTenants f
  let named := fun p => ((s.dev.truss.map (·.tenants)).getD []).any fun t => t.function == f && bit t.penMask p
  f != 0 && (ts.any (fun t => !(s.ten t).byCount) || s.demotedPens f != [] ||
    (ts.isEmpty && s.penList.any fun p => (s.pen p).yoke.standby && named p))

/-- One tenant's drain ends: its waits, its answers, its contexts (R351). -/
def Run.endTenant (r : Run) (t f : Nat) : Run :=
  let count := (r.hw.ten t).byCount
  let r := r.each r.hw.penList fun p r =>
    let ps := r.hw.pen p
    let bs := ps.bound.filter (·.tenant == t)
    let ds := ps.deferred.filter (·.tenant == t)
    let mine := fun x : Detached => x.pen == p && bs.any fun b => b.frame == x.frame && x.pos == some b.pos
    let r := r.each (r.hw.penStalls p) fun n r => r.endDetached n fun x => mine x && x.op != 0x15
    let r := r.answerDeferred p (fun d => d.tenant == t) Crib.FUNCTION_DISABLED (!count)
    let r := r.finishAll p (fun b => b.tenant == t) Crib.FUNCTION_DISABLED (!count)
    let r := r.on fun s => if count then s.inc R.ERR_FN_STATUS_LOST f (bs.length + ds.length) else s
    let r := r.each (((r.hw.pen p).ctxs.filter fun kv => kv.2.serving != .free && kv.2.owner == t).map (·.1)) fun x r => r.applyRelease p x
    r.afterEnd p
  r.on fun s => s.modTen t fun x => { x with disabling := none, byCount := false, ghost := none }

/-- A demoted pen's drain ends: answers, every context FREE, the pen standby and looking for its partner (R310). -/
def Run.endDemote (r : Run) (p : Nat) : Run :=
  let r := r.each (r.hw.penStalls p) fun n r => r.endDetached n fun x => x.pen == p && x.pos.isSome && x.op != 0x15
  let r := r.answerDeferred p (fun _ => true) Crib.FUNCTION_DISABLED
  let r := r.finishAll p (fun _ => true) Crib.FUNCTION_DISABLED
  let r := r.each ((r.hw.pen p).ctxs.map (·.1)) fun x r => r.applyRelease p x
  let r := r.on fun s =>
    (((s.modYoke p fun _ => { standby := true }).set R.YOK_PEN_STATE_STATE p 0).set R.YOK_PEN_STATE_ROLE p 0).sendHello p
  r.afterEnd p

/-- FUNCTION_DRAIN_END: no command of the function's disabled tenants, or of a demoted pen's contexts, runs any more. -/
def execFunctionDrainEnd (f : FnId) (s : State) : Host.Outcome State Fault Refusal :=
  s.run fun r =>
    let ts := r.hw.endingTenants f.val
    let ps := r.hw.demotedPens f.val
    let busy := r.hw.dev.engs.any fun kv => match kv.2.run with
      | some q => (match r.hw.tenantOf q with
          | some t => ts.contains t
          | none => false) || (ps.contains q.pen && q.pos.isSome)
      | none => false
    if busy || !(r.hw.is R.ERR_FN_STATUS_DISABLING f.val) then r
    else
      let tell := r.hw.tellsVf f.val
      let r := r.each ts fun t r => r.endTenant t f.val
      let r := r.each ps fun p r => r.endDemote p
      r.on fun s =>
        let s := s.set R.ERR_FN_STATUS_DISABLING f.val 0
        if tell then s.msi f.val 0 else s

/-! ## Overrun (R79, R80) -/

/-- The start of a frame, where it has started; a frame older than the starts kept started long ago. -/
def Hw.startOf (s : Hw) (f : Nat) : Option Nat :=
  if s.clk.frame < f then none else some (((s.clk.starts.find? fun x => x.1 == f).map (·.2)).getD 0)

/-- FRAME_OVERRUN: a tail is not complete at its deadline: LAP_US into the next frame, or for a suspended pen the start of
frame N + 4. -/
def execFrameOverrun (p : PenId) (frame : Nat) (s : State) : Host.Outcome State Fault Refusal :=
  s.onHw fun h => match (h.pen p.val).frames.find? (·.frame == frame) with
    | none => h
    | some x =>
      let (past, due) : Bool × Nat := match h.is R.FSQ_STATE_SUSPENDED p.val, h.startOf (frame + 1), h.startOf (frame + 4) with
        | true, _, some t => (true, t)
        | false, some t, _ => (true, t + 100 * h.get R.TRS_TIMING_LAP_US)
        | _, _, _ => (false, 0)
      if past && !(x.tailDone || (x.tailOk && x.bodyDone)) && h.penRun p.val then
        ((h.reach due).inc R.FSQ_OVERRUN_COUNT_OVERRUN p.val).fence E.FRAME_OVERRUN { kind := 4, pen := p.val, detail := frame } [p.val] 2 0
      else h

end Sys2Proof.Machine
end

