-- ==== Sys2Proof/Machine/Clocks.lean ====
section
/-! DEFINITION. ACLK of a stall and its limits (R328), the pens that a condition suspends (R75, Table 12.7), and the
attribution of energy (Section 6 of 12_power_thermal.md). -/

namespace Sys2Proof.Machine

/-! ## Clocks (R19, R328) -/

/-- F_max, F_assured and F_trip in MHz. -/
def fMax : Nat := 1500
def fAssured : Nat := 1300
def fTrip : Nat := 650

/-- The ACLK limit of a CT die level (Table 12.5). -/
def ctLimit (level : Nat) : Nat := if level = 0 then fMax else if level = 1 then 1400 else if level = 2 then fAssured else fTrip

/-- ACLK of stall `n` in MHz: the lowest of its limits. -/
def Hw.aclk (s : Hw) (n : Nat) : Nat :=
  let f := min (s.get R.PWR_STATUS_ACLK_MHZ) (ctLimit (s.get R.THM_CT_LEVEL (dieOf n)))
  let f := if s.is R.PWR_STATUS_CLAMP || s.is R.MHB_STATUS_ACLK_CAP (hubOf n) then min f fAssured else f
  if s.is R.THM_ZONE_TRIP (hubOf n) then min f fTrip else f

/-- Whether a stall of a pen runs below F_assured. -/
def Hw.penSlow (s : Hw) (p : Nat) : Bool := (s.penStalls p).any fun n => decide (s.aclk n < fAssured)

/-- Whether DROOP_EXCESS suspends a pen. -/
def Hw.penDroops (s : Hw) (p : Nat) : Bool := (s.penStalls p).any fun n => s.is R.PWR_DROOP_EXCESS_ACTIVE (dieOf n)

/-- Whether ACLK of a stall of a pen counts as below F_assured (R77): its limits, or droop stretching beyond its budget (R330). -/
def Hw.penBelow (s : Hw) (p : Nat) : Bool := s.penSlow p || s.penDroops p

/-- What follows a change of a clock limit: pens below F_assured remember it (R77), and peg groups note the reason (R292). -/
def Hw.clocked (s : Hw) : Hw :=
  (s.each s.penList fun p s => if s.penBelow p then s.modPen p fun ps => { ps with dirtyClk := true } else s).notePegs

/-! ## Suspension (R75, Table 12.7) -/

/-- Whether a zone holds a granule of a descriptor. -/
def PenDesc.onZone (d : PenDesc) (m : Nat) : Bool :=
  d.hbm.any fun g => decide (0 < g.count) && decide (g.start / 49152 ≤ m) && decide (m ≤ (g.start + g.count - 1) / 49152)

/-- Whether a trip suspends a pen. -/
def Hw.penTripped (s : Hw) (p : Nat) : Bool :=
  ((List.range 8).any fun k => s.is R.THM_DIE_TRIP k) ||
  ((s.penStalls p).any fun n => s.get R.THM_CT_LEVEL (dieOf n) == 3 || s.is R.THM_ZONE_TRIP (hubOf n)) ||
  match s.desc p with
  | none => false
  | some d => (List.range 8).any fun m => s.is R.THM_ZONE_TRIP m && d.onZone m

/-- The cause bits of every present pen follow the conditions in force; a pen with a cause is suspended from this cycle, and the
steps whose commands run then are marked (R76). -/
def Hw.suspend (s : Hw) : Hw :=
  s.each s.penList fun p s =>
    let b := fun (c : Bool) => if c then 1 else 0
    let s := ((s.set R.FSQ_STATE_SUSP_SAG p (b (s.is R.PWR_STATUS_SAG_WARN))).set R.FSQ_STATE_SUSP_THERMAL p (b (s.penTripped p))).set
      R.FSQ_STATE_SUSP_OTHER p (b (s.penDroops p))
    if s.is R.FSQ_STATE_SUSP_SAG p || s.is R.FSQ_STATE_SUSP_THERMAL p || s.is R.FSQ_STATE_SUSP_OTHER p || s.is R.FSQ_STATE_SUSP_TAKEOVER p then
      let s := s.set R.FSQ_STATE_SUSPENDED p 1
      let qs := s.runningOf p
      s.markSusp p fun x => qs.any fun q => servedBy q.2.frame q.2.pos x
    else s

/-- A condition of this chapter entered or left. -/
def Hw.limits (s : Hw) : Hw := s.suspend.clocked

/-! ## Energy (R336, R337) -/

/-- One mW over a microsecond in the estimate's unit, 2^-14 pJ: G has 14 fraction bits. -/
def milliwatt : Nat := 1000 * 2 ^ 14

/-- The place of an activity in Table 12.4; 12 is the idle array cycle of R98. -/
def actNum : Activity → Nat
  | .planeSlot => 0
  | .tileRow => 1
  | .tableWord => 2
  | .laneOp => 3
  | .rowAccess => 4
  | .flitHop => 5
  | .hbmLine => 6
  | .hbmRefresh => 7
  | .linkFlit => 8
  | .laneActive => 9
  | .loftLine => 10
  | .loftRefresh => 11
  | .idleCycle => 12

/-- The energy of an activity count in pJ before G is applied (R321). -/
def actRaw (c : ActCount) : Nat := c.count * Config.eventEnergy (actNum c.act)

/-- The present temperature of a die: 0 to 23 CT, 24 to 31 MH, then LK, TD, HX and MG (R331, Table 12.6). -/
def Hw.dieTemp (s : Hw) (d : Nat) : Nat :=
  if d < 24 then s.get R.THM_CT_TEMP_C d else if d < 32 then s.get R.MHB_TEMP_HUB_C (d - 24) else s.get R.THM_DIE_TEMP_C (d - 32)

/-- Static energy of every die over a microsecond in pJ (R321). -/
def Hw.staticEnergy (s : Hw) : Nat := ((List.range 40).map fun d => Config.staticPower d (s.dieTemp d)).sum

/-- The estimate without G over a microsecond, in pJ (R321, E_raw of R322). -/
def Hw.rawEnergy (s : Hw) (counts : List ActCount) : Nat := (counts.map actRaw).sum + s.staticEnergy

/-- Energy added to an account's exact total, in 2^-14 pJ. -/
def Hw.charge (s : Hw) (key e : Nat) : Hw := { s with dev.energy := Tbl.set 0 key (Tbl.get 0 key s.dev.energy + e) s.dev.energy }

/-- Energy of a pen's own account: it counts for the pen and the device. -/
def Hw.chargePen (s : Hw) (p e : Nat) : Hw := (s.charge 0 e).charge (16 + p) e

/-- Energy of a tenant in a pen. -/
def Hw.chargeTen (s : Hw) (p t e : Nat) : Hw := (s.chargePen p e).charge (64 + t) e

/-- The tenant whose context was bound at a position of a frame, after its sequence was answered too. -/
def Hw.seatOf (s : Hw) (p f q : Nat) : Option Nat := ((s.pen p).seats.find? fun x => x.1 == f && x.2.1 == q).map (·.2.2)

/-- Whether an activity is a pen's memory or link traffic, its own account's whatever task asks for it (R336; log 20). -/
def actTraffic : Activity → Bool
  | .hbmLine | .linkFlit | .loftLine => true
  | _ => false

/-- Whether an activity is refresh or an active lane, which no pen causes: the device account's. -/
def actIdle : Activity → Bool
  | .hbmRefresh | .loftRefresh | .laneActive => true
  | _ => false

/-- One activity count attributed (R336): a task bound to a context goes to the context's tenant; body work without a context waits for
the split; head and tail work, traffic, and what names a pen alone go to the pen; everything else to the device. -/
def Hw.attribute (s : Hw) (c : ActCount) : Hw :=
  let e := actRaw c * s.get R.PWR_CAL_GAIN
  if actIdle c.act then s.charge 0 e
  else match c.who with
    | .none => s.charge 0 e
    | .pen p => s.chargePen p.val e
    | .task p f cls pos =>
      if actTraffic c.act then s.chargePen p.val e
      else match pos.bind fun q => s.seatOf p.val f q, cls with
        | some t, _ => s.chargeTen p.val t e
        | none, .body => { s with dev.body := s.dev.body ++ [(p.val, f, e)] }
        | none, .head => s.chargePen p.val e
        | none, .tail => s.chargePen p.val e
        | none, .u0 => s.charge 0 e

/-- The body energy of a pen's frame split in proportion to the charges it accepted in that frame; what the division leaves, or
all where nothing was accepted, is the pen's own (log 20). -/
def Hw.splitBody (s : Hw) (p f e : Nat) : Hw :=
  let cs := (s.pen p).chg.filter fun c => c.1 == f
  let total := (cs.map (·.2.2)).sum
  if total = 0 then s.chargePen p e
  else
    let s := s.each cs fun c s => s.chargeTen p c.2.1 (e * c.2.2 / total)
    s.chargePen p (e - (cs.map fun c => e * c.2.2 / total).sum)

/-- The accumulators at the start of a frame: body work of earlier frames is split, and the registers show the totals in µJ. -/
def Hw.energyFrame (s : Hw) : Hw :=
  let due := s.dev.body.filter fun b => decide (b.2.1 < s.clk.frame)
  let s := s.each due fun b s => s.splitBody b.1 b.2.1 b.2.2
  let s := { s with dev.body := s.dev.body.filter fun b => !(decide (b.2.1 < s.clk.frame)) }
  let s := s.each (List.range 16) fun p s =>
    let new := fun c : Nat × Nat × Nat => decide (s.clk.frame ≤ c.1 + 8)
    s.modPen p fun ps => { ps with chg := ps.chg.filter new, seats := ps.seats.filter new }
  let uj := fun (k : Nat) => Tbl.get 0 k s.dev.energy / (1000 * milliwatt)
  let s := (s.set R.PWR_DEV_ENERGY_UJ 0 (uj 0)).set R.PWR_ENERGY_FRAME_FRAME 0 s.clk.frame
  let s := s.each (List.range 16) fun p s => s.set R.PWR_PEN_ENERGY_UJ p (uj (16 + p))
  s.each (List.range 64) fun t s => s.set R.PWR_TEN_ENERGY_UJ t (uj (64 + t))

end Sys2Proof.Machine
end

