-- ==== Sys2Proof/Machine/KvCmd.lean ====
section
/-! DEFINITION. The KV manager's commands and moves (Sections 8 to 10 of 09_serving.md): KV_PREFIX, KV_RQ, spans moved
between HBM and the loft, the end of a pause, and KVM_CTRL.APPLY. -/

namespace Sys2Proof.Machine

/-- A malformed hub command: not executed, logged, counted; its requests get SCHEDULE_FAULT (R222). -/
def Run.kvMalformed (r : Run) (h : Hx) (op : Nat) : Run :=
  r.on fun s => ((s.inc R.CDE_ERR2_MALFORMED h.m).logHx h E.CMD_MALFORMED 0 0xFFFF op).blameHx h Crib.SCHEDULE_FAULT

/-! ## KV_PREFIX (R256 to R258) -/

/-- The number of a tenant's prefix key: 64 + share group, or the tenant (R41, R257). -/
def Tenant.keyId (t : Tenant) : Nat := if t.share = 0 then t.id else 64 + t.share

/-- H_0 of a chain (R256). -/
def hashZero (p domain : Nat) : Bytes := leBytes 1 p ++ [0#8] ++ leBytes 2 domain ++ zeros 12

/-- The prefix hash of a block: 16 bytes of SHAKE256 (R256). -/
def prefixHash (key prev toks : Bytes) : Bytes := (shake256 (key ++ prev ++ toks) 16).take 16

/-- The token log of a span (R249). -/
def KvCfg.tokLog (c : KvCfg) (x sp : Nat) : Nat := c.pte x sp 0 + 4 * c.gKv

/-- The indices a hash probes: 8 from H[31:0] mod the entry count, wrapping (R257). -/
def KvCfg.probes (c : KvCfg) (h : Bytes) : List Nat :=
  if c.pfxLen = 0 then [] else (List.range (min 8 c.pfxLen)).map fun i => (leNat (h.take 4) + i) % c.pfxLen

/-- The manager reads the entries that a hash probes up to `e`, or all of them. -/
def Run.lookProbes (r : Run) (p : Nat) (c : KvCfg) (h : Bytes) (e : Option Nat) : Run :=
  let ps := c.probes h
  r.each ((ps.take (match e with
    | some e => ps.idxOf e + 1
    | none => ps.length)).filter fun i => r.pfxUsed p i) fun i r => r.lookPfx c i

/-- The prefix entry that holds a hash under a key. -/
def Run.pfxFind (r : Run) (p : Nat) (c : KvCfg) (key : Nat) (h : Bytes) : Option Nat :=
  (c.probes h).find? fun i => r.pfxUsed p i && r.read (c.pfxAddr i) 16 == h && r.readNat (c.pfxAddr i + 16) 1 == key

/-- One more reference to a page; at 65,535 the page is copied instead, where a page is free (R250). Answers the page that
now holds the reference. -/
def Run.sharePage (r : Run) (p : Nat) (c : KvCfg) (i : Nat) : Nat × Run :=
  if Tbl.get 0 i (r.hw.pen p).kv.refs < 65535 then
    (i, r.on fun s => s.modKv p fun k => { k with refs := Tbl.set 0 i (Tbl.get 0 i k.refs + 1) k.refs })
  else match r.hw.allocPage p with
    | (none, s) => (i, r.on fun _ => s)
    | (some j, s) => (j, ((r.on fun _ => s.inc R.KVM_REF_SAT_COPIES p)).copyPage (c.page (r.hw.ctxMax p) i) (c.page (r.hw.ctxMax p) j))

/-- The previous hash of a chain at block `i`, where the directory's cache gives it: H_0 before block 1 of a chain not yet
begun, else the cached block's (R258). -/
def Ctx.chainAt (k : Ctx) (p i : Nat) : Option Bytes :=
  if k.hashBlk + 1 = i then some (if k.hashBlk = 0 then hashZero p k.domain else k.hash) else none

/-- A block that hits: its pages shared into the span, the span's reservation returned, LAST_FRAME updated. -/
def Run.pfxHit (r : Run) (p : Nat) (c : KvCfg) (b : Bound) (x i blk : Nat) : Run :=
  let pages := r.pfxPages c i
  let r := (r.lookSpan c x (blk - 1)).each ((pages.zip (List.range c.gKv))) fun g r =>
    let r := r.on fun s => s.dropPte p (r.pte p c x (blk - 1) g.2)
    let (j, r) := r.sharePage p c g.1
    r.setPte p c x (blk - 1) g.2 j
  let r := r.memWrite (c.pfxAddr i + 24) (leBytes 8 r.hw.clk.frame) 0
  r.on fun s =>
    let back := min c.gKv (((s.pen p).bound.find? (·.same b)).map (·.resv) |>.getD 0)
    let s := s.modKv p fun k => { k with reserve := k.reserve - back }
    s.modPen p fun ps => { ps with bound := ps.bound.map fun y => if y.same b then { y with resv := y.resv - back } else y }

/-- How a walk of a LOOKUP ended: blocks reused, whether it stopped, whether at a miss, and the poison it read. -/
structure PfxWalk where
  n    : Nat := 0
  stop : Bool := false
  miss : Bool := false
  m    : Nat := 0
deriving DecidableEq, Repr

/-- The walk of a LOOKUP over blocks from `i` on, `fuel` of them: it stops at a miss or above `last`. A block whose chain the
directory's cache does not give is a miss (DESIGN CHOICE, log 65). -/
def Run.pfxWalk (p : Nat) (c : KvCfg) (b : Bound) (key : Bytes) (keyId last : Nat) : Nat → Nat → Run → Run × PfxWalk
  | 0, _, r => (r, {})
  | fuel + 1, i, r =>
    if last < i then (r, { stop := true })
    else
      let k := (r.hw.pen p).ctx b.ctx
      match k.chainAt p i with
      | none => (r.on fun s => s.inc R.KVM_PFX_MISS_LOOKUPS p, { stop := true, miss := true })
      | some prev =>
        let (toks, m, r) := r.memRead .kvm (c.tokLog b.ctx (i - 1)) 256
        let h := prefixHash key prev toks
        let found := r.pfxFind p c keyId h
        let r := r.lookProbes p c h found
        match found with
        | none => (r.on fun s => s.inc R.KVM_PFX_MISS_LOOKUPS p, { stop := true, miss := true, m := m })
        | some e =>
          let m := m ||| r.readMarks .kvm (c.pfxAddr e) c.pfxSize
          let r := (r.pfxHit p c b b.ctx e i).on fun s =>
            (s.modPen p fun ps => ps.modCtx b.ctx fun k => { k with hash := h, hashBlk := i }).inc R.KVM_PFX_HIT_BLOCKS p
          let (r, w) := pfxWalk p c b key keyId last fuel (i + 1) r
          (r, { w with n := w.n + 1, m := m ||| w.m })

/-- Where the step-table entry of a bound sequence lies: stall and address (R241). -/
def Hw.stepEntry (s : Hw) (p f pos : Nat) : Option (Nat × Nat) :=
  (s.penStalls p).head?.map fun n => (n, spdAddr n + 0x17FF000 + 2048 * (f % 2) + 64 * pos)

/-- A hub command's result written to a scratchpad of its pen. -/
def Run.hubPut (r : Run) (h : Hx) (dst : Nat) (bs : Bytes) (m : Nat) : Run := match r.hw.penSpd h.p dst with
  | some n => r.remoteBytes n dst bs m
  | none => r

/-- LOOKUP (R258). One that meets poison in the token logs or entries it reads writes poisoned results (R204). -/
def Run.pfxLookup (r : Run) (h : Hx) (c : KvCfg) (b : Bound) (first nblk dst : Nat) : Run :=
  let put := fun (r : Run) (reused : Nat) (stop : Bool) (m : Nat) => r.hubPut h dst (leBytes 4 reused ++ leBytes 4 (if stop then 1 else 0)) m
  let k := (r.hw.pen h.p).ctx b.ctx
  match k.prefixOn, r.hw.tenant b.tenant with
  | true, some t =>
    if b.miss then r
    else
      let (r, w) := Run.pfxWalk h.p c b (Tbl.get [] t.keyId r.hw.dev.keys) t.keyId ((b.x - 1) / 64) nblk first r
      let reused := b.prefixT + 64 * w.n
      let r := r.on fun s => (s.modPen h.p fun ps => { ps with bound := ps.bound.map fun y =>
        if (y.same b) then { y with prefixT := reused, miss := w.miss } else y }).blameHxPoison h w.m
      let r := match r.hw.stepEntry h.p b.frame b.pos with
        | some (n, a) => r.remoteBytes n (a + 0x36) (leBytes 2 reused) w.m
        | none => r
      put (r.recSet h.p b.ctx [(0x20, leBytes 4 reused), (0x0D, leBytes 1 (r.recGet h.p b.ctx 0x0D 1 ||| 1))]) reused w.stop w.m
  | _, _ => put r 0 false 0

/-- One block inserted (R258); its span's entries and the entries its hash probes are read. -/
def Run.pfxPut (r : Run) (p : Nat) (c : KvCfg) (x keyId blk : Nat) (h : Bytes) : Run :=
  let ptes := r.span p c x (blk - 1)
  let found := r.pfxFind p c keyId h
  let r := (r.lookSpan c x (blk - 1)).lookProbes p c h found
  if found.isSome || ptes.any (fun e => pteState e != 0) then r
  else
    let pr := c.probes h
    let slot := match pr.find? fun i => !(r.pfxUsed p i) with
      | some i => (some i, false)
      | none => (leastBy (fun i => r.readNat (c.pfxAddr i + 24) 8) pr, true)
    match slot with
    | (none, _) => r
    | (some i, ev) =>
      let r := if ev then (r.pfxRemove p c i).on fun s => s.inc R.KVM_PFX_EVICT_EVICT p else r
      let (ps, r) := ptes.foldl (fun (a : List Nat × Run) e =>
        let (j, r) := a.2.sharePage p c (pteIndex e)
        (a.1 ++ [j], r)) ([], r)
      let hd := h ++ leBytes 1 keyId ++ leBytes 1 c.gKv ++ zeros 2 ++ leBytes 4 blk ++ leBytes 8 r.hw.clk.frame ++ zeros 32
      (r.memWrite (c.pfxAddr i) (padTo c.pfxSize (hd ++ ps.flatMap (leBytes 4))) 0).on fun s =>
        (s.usePfx p i true).inc R.KVM_PFX_INSERT_ENTRIES p

/-- INSERT over blocks from `i` on, `fuel` of them, up to the last complete one (R258): the chain goes through every block, an entry
is added for those that the step wrote. -/
def Run.pfxInsert (h : Hx) (c : KvCfg) (b : Bound) (key : Bytes) (keyId : Nat) : Nat → Nat → Run → Run
  | 0, _, r => r
  | fuel + 1, i, r =>
    match ((r.hw.pen h.p).ctx b.ctx).chainAt h.p i with
    | none => r
    | some prev =>
      if b.pos0 + b.x < 64 * i then r
      else
        let (toks, m, r) := r.memRead .kvm (c.tokLog b.ctx (i - 1)) 256
        let x := prefixHash key prev toks
        let r := r.on fun s => s.blameHxPoison h m
        let r := if b.pos0 + b.prefixT < 64 * i then r.pfxPut h.p c b.ctx keyId i x else r
        pfxInsert h c b key keyId fuel (i + 1) (r.on fun s => s.modPen h.p fun ps => ps.modCtx b.ctx fun k => { k with hash := x, hashBlk := i })

/-- Whether a KV_PREFIX is malformed (R258, R222). -/
def prefixBad (s : Hw) (p gKv : Nat) (b : Bytes) : Bool :=
  let n := fld b 8 2
  let dst := fld b 0x10 8
  b.length != 64 || decide (1 < fld b 1 1) || decide (31 < fld b 2 1) || !(zeroAt b 3 1) || decide (fld b 4 4 = 0) || decide (n = 0) ||
  decide (128 < n) || !(zeroAt b 0xA 2) || decide (40000 < fld b 0xC 4) || decide (10 * fld b 0xC 4 < 10000 + 2500 * n + gKv * n) ||
  (fld b 1 1 == 0 && ((s.penSpd p dst).isNone || dst % 8 != 0)) || !(zeroAt b 0x18 40)

/-- KV_PREFIX (R258): for a position with no bound sequence, LOOKUP writes 0 and INSERT does nothing. -/
def execKvPrefix (m : HubId) (p : PenId) (i : Issue) (cmd : Bytes) (s : State) : Host.Outcome State Fault Refusal :=
  s.runHub m.val p.val 9 i fun h r =>
      let cfg := (r.hw.pen p.val).kv.cfg
      let g := match cfg with
        | some c => c.gKv
        | none => 0
      let dst := fld cmd 0x10 8
      let first := fld cmd 4 4
      let nblk := fld cmd 8 2
      let look := fld cmd 1 1 == 0
      if prefixBad r.hw h.p g cmd then r.kvMalformed h 0x53
      else match if look then unpopFirst r.hw.loftTib dst 8 else none with
        | some a => r.hubUnpop h a cmd fun _ r => r
        | none =>
          let r := if look then r.on fun s => s.metDst h.p dst i else r
          Run.reclaim (p := h.p) <| match cfg, (r.hw.pen h.p).bound.find? fun b => b.frame == h.frame && b.pos == fld cmd 2 1 with
          | some c, some b =>
            if look then r.pfxLookup h c b first nblk dst
            else match ((r.hw.pen h.p).ctx b.ctx).prefixOn, r.hw.tenant b.tenant with
              | true, some t =>
                if (((r.hw.pen h.p).ctx b.ctx).chainAt h.p first).isNone then r.on fun s => s.inc R.KVM_PFX_EVICT_SKIP h.p
                else Run.pfxInsert h c b (Tbl.get [] t.keyId r.hw.dev.keys) t.keyId nblk first r
              | _, _ => r
          | _, _ => if look then r.hubPut h dst (zeros 8) 0 else r

/-! ## KV_RQ (R255) -/

/-- Whether a KV_RQ is malformed. -/
def rqBad (s : Hw) (p gKv : Nat) (b : Bytes) : Bool :=
  let dst := fld b 8 8
  b.length != 64 || decide (1 < fld b 1 1) || decide (63 < fld b 2 1) || decide (1 < fld b 3 1) || decide (40000 < fld b 0x10 4) ||
  decide (fld b 0x10 4 < 1000 + 16 * gKv) || !(zeroAt b 0x14 44) ||
  (fld b 1 1 == 0 && ((s.penSpd p dst).isNone || dst % 64 != 0 || fld b 4 4 != 0))

/-- The recompute queue's length as KVM_RECOMP_Q shows it. -/
def Hw.showQueue (s : Hw) (p : Nat) : Hw := s.set R.KVM_RECOMP_Q_SPANS p (s.pen p).kv.recomp.length

/-- How many consecutive spans from `sp` on the queue holds for a context, at most `fuel`. -/
def runLength (q : List (Nat × Nat)) (cx : Nat) : Nat → Nat → Nat
  | 0, _ => 0
  | fuel + 1, sp => if q.contains (cx, sp) then 1 + runLength q cx fuel (sp + 1) else 0

/-- The pages a span lacks allocated and their entries written. -/
def Run.fillSpan (r : Run) (p : Nat) (c : KvCfg) (x sp : Nat) : Run :=
  (r.lookSpan c x sp).each (List.range c.gKv) fun j r =>
    if pteState (r.pte p c x sp j) = 0 then r
    else match r.hw.allocPage p with
      | (none, s) => r.on fun _ => s
      | (some i, s) => (r.on fun _ => s).setPte p c x sp j i

/-- FETCH: pages for up to 8 consecutive dropped spans of the oldest queued context, as far as free pages go, and the
ticket. -/
def Run.rqFetch (r : Run) (h : Hx) (n : Nat) (c : KvCfg) (dst : Nat) (ctr : Option Nat) : Run :=
  let k := (r.hw.pen h.p).kv
  let put := fun (r : Run) (bs : Bytes) => (r.remoteBytes n dst (padTo 64 bs) 0).remoteEnd n h.plan ctr 0xFFFF
  match k.recomp with
  | [] => put r []
  | (x, sp) :: _ =>
    let n8 := min (runLength k.recomp x 8 sp) (if c.gKv = 0 then 8 else r.hw.freePages h.p / c.gKv)
    let r := r.each (List.range n8) fun i r => r.fillSpan h.p c x (sp + i)
    let r := r.on fun s => ((s.modKv h.p fun k => { k with
      recomp := k.recomp.filter fun q => !(q.1 == x && decide (sp ≤ q.2) && decide (q.2 < sp + n8)),
      tickets := if n8 = 0 then k.tickets else k.tickets ++ [⟨k.nextTkt, x, sp, n8, s.clk.frame⟩],
      nextTkt := if n8 = 0 then k.nextTkt else (k.nextTkt + 1) % 2 ^ 32 }).showQueue h.p).kvCounts h.p
    let r := r.reclaim h.p
    put r (if n8 = 0 then [] else leBytes 4 k.nextTkt ++ leBytes 2 x ++ leBytes 2 n8 ++ leBytes 4 sp ++ leBytes 8 (c.root x))

/-- KV_RQ (R255). -/
def execKvRq (m : HubId) (p : PenId) (i : Issue) (cmd : Bytes) (s : State) : Host.Outcome State Fault Refusal :=
  s.runHub m.val p.val 9 i fun h r =>
      let cfg := (r.hw.pen h.p).kv.cfg
      let g := match cfg with
        | some c => c.gKv
        | none => 0
      let dst := fld cmd 8 8
      let ctr := if bit (fld cmd 3 1) 0 then some (fld cmd 2 1) else none
      if rqBad r.hw h.p g cmd then r.kvMalformed h 0x54
      else if fld cmd 1 1 = 1 then
        r.on fun s => match (s.pen h.p).kv.tickets.find? (·.num == fld cmd 4 4) with
          | none => s
          | some t => (s.modKv h.p fun k => { k with tickets := k.tickets.filter (·.num ≠ t.num) }).inc R.KVM_RECOMPUTED_SPANS h.p t.nspan
      else match unpopFirst r.hw.loftTib dst 64, cfg, r.hw.penSpd h.p dst with
        | some a, _, _ => r.hubUnpop h a cmd fun _ r => r
        | none, some c, some n => (r.on fun s => s.metFar n i).rqFetch h n c dst ctr
        | none, none, some n => ((r.on fun s => s.metFar n i).remoteBytes n dst (zeros 64) 0).remoteEnd n h.plan ctr 0xFFFF
        | none, _, none => r

/-! ## Spans moved in the background (R253, R254, R259) -/

/-- A move of pen `p` taken off the list. -/
def Hw.endMove (s : Hw) (p : Nat) (mv : SpanMove) : Hw := s.modKv p fun k => { k with moves := k.moves.filter (· ≠ mv) }

/-- A span's loft pages copied back to HBM (R254). -/
def Run.restoreSpan (r : Run) (p : Nat) (c : KvCfg) (mv : SpanMove) : Run :=
  let r := (r.lookSpan c mv.ctx mv.span).each (List.range c.gKv) fun j r =>
    let e := r.pte p c mv.ctx mv.span j
    if pteState e = 1 then
      match r.hw.allocPage p with
      | (none, s) => r.on fun _ => s
      | (some i, s) =>
        (((r.on fun _ => s).copyPage (c.loftPage (pteIndex e)) (c.page (r.hw.ctxMax p) i)).setPte p c mv.ctx mv.span j i).on fun s =>
          (s.unrefLoft p (pteIndex e)).inc R.KVM_PREFETCHED_PAGES p
    else r
  r.on fun s => (s.endMove p mv).kvCounts p

/-- KV_PREFETCH_SPAN: the first span to restore, once its pages are free (R254). -/
def execKvPrefetchSpan (p : PenId) (s : State) : Host.Outcome State Fault Refusal :=
  s.run fun r =>
    let k := (r.hw.pen p.val).kv
    match k.cfg, k.moves.find? (!·.out) with
    | some c, some mv =>
      if c.gKv ≤ r.hw.freePages p.val then (r.restoreSpan p.val c mv).reclaim p.val else r
    | _, _ => r

/-- A span's count-1 pages copied to the loft and freed (R253, R259). -/
def Run.spillSpan (r : Run) (p : Nat) (c : KvCfg) (mv : SpanMove) : Run :=
  (r.lookSpan c mv.ctx mv.span).each (List.range c.gKv) fun j r =>
    let e := r.pte p c mv.ctx mv.span j
    if pteState e = 0 ∧ Tbl.get 0 (pteIndex e) (r.hw.pen p).kv.refs = 1 then
      match r.hw.allocLoft p with
      | (none, s) => r.on fun _ => s
      | (some q, s) =>
        (((r.on fun _ => s).copyPage (c.page (r.hw.ctxMax p) (pteIndex e)) (c.loftPage q)).setPte p c mv.ctx mv.span j (2 ^ 30 + q)).on fun s =>
          (s.unrefPage p (pteIndex e)).inc R.KVM_SPILLED_PAGES p
    else r

/-- KV_SPILL_SPAN: the first span to spill. A busy or pinned context is left as it is; without room in the loft the span
stays. A mode 0 pause goes on with its next span down (R259). -/
def execKvSpillSpan (p : PenId) (s : State) : Host.Outcome State Fault Refusal :=
  s.run fun r =>
    let ps := r.hw.pen p.val
    match ps.kv.cfg, ps.kv.moves.find? (·.out) with
    | some c, some mv =>
      let n := ((r.span p.val c mv.ctx mv.span).filter fun e => pteState e == 0 && Tbl.get 0 (pteIndex e) ps.kv.refs == 1).length
      let free := ps.busy mv.ctx || ps.kv.pins.any (·.1 == mv.ctx)
      let r := if free || decide (r.hw.freeLoft p.val < n) then r.on fun s => s.endMove p.val mv
        else
          let r := (r.spillSpan p.val c mv).on fun s => s.endMove p.val mv
          let k := ps.ctx mv.ctx
          match k.serving == .paused && k.expiry.isSome, r.topSpan p.val c mv.ctx with
          | true, some sp => r.on fun s => s.modKv p.val fun k => { k with moves := k.moves ++ [⟨mv.ctx, sp, true⟩] }
          | _, _ => r
      (r.on fun s => s.kvCounts p.val).reclaim p.val
    | _, _ => r

/-! ## The end of a pause (R260) -/

/-- The expiry instant of a mode 0 pause whose clock runs. -/
def Ctx.expires (k : Ctx) : Option Nat := match k.serving with
  | .paused => if k.clockHeld then none else k.expiry
  | _ => none

/-- A pause expires: pages freed, the context LOST. -/
def Run.expirePause (r : Run) (p x : Nat) : Run :=
  (r.releasePages p x).on fun s =>
    (s.modPen p fun ps => ps.modCtx x fun k => { k with serving := .lost, expiry := none }).inc R.KVM_TTL_EXPIRED p

/-- The pauses of a pen whose instant has come by frame start `t` expire (R260). -/
def Run.expirePauses (r : Run) (p t : Nat) : Run :=
  r.each ((r.hw.pen p).ctxs.filter fun kv => kv.2.expires.any (· ≤ t)) fun kv r => r.expirePause p kv.1

/-- PAUSE_EXPIRY (R260): the pause expires at the first frame start at or after its instant, before that frame's sub-tick 0 sweep. The
command stands for the expiries of the next frame start, which FRAME_START makes too: it brings the clock there where the
instant has come by then (DESIGN CHOICE, log 2). -/
def execPauseExpiry (p : PenId) (ctx : Nat) (s : State) : Host.Outcome State Fault Refusal :=
  s.run fun r => match ((r.hw.pen p.val).ctx ctx).expires with
    | some t => if r.hw.clk.running && decide (t ≤ r.hw.clk.due) then (r.on fun s => s.reach s.clk.due).expirePause p.val ctx else r
    | none => r

/-! ## KVM_CTRL.APPLY (R251) -/

/-- The configuration the registers of pen `p` hold. -/
def Hw.kvmRegs (s : Hw) (p : Nat) : KvCfg :=
  { pool := s.get R.KVM_POOL_BASE p, poolCnt := s.get R.KVM_POOL_CNT_COUNT p, loft := s.get R.KVM_LOFT_BASE p,
    loftCnt := s.get R.KVM_LOFT_CNT_COUNT p, pfx := s.get R.KVM_PFX_BASE p, pfxCnt := s.get R.KVM_PFX_CNT_COUNT p,
    gKv := s.get R.KVM_GEOM_G_KV p, maxSpans := s.get R.KVM_GEOM_MAX_SPANS p, lowG := s.get R.KVM_WATER_LOW_G p,
    highG := s.get R.KVM_WATER_HIGH_G p }

/-- Whether a run of granules lies within one of a list of ranges. -/
def inRange (gs : List Gran) (a n : Nat) : Bool := gs.any fun g => within a n g.start g.count

/-- Whether a configuration may take effect. -/
def Hw.kvmOk (s : Hw) (p : Nat) (d : PenDesc) (c : KvCfg) : Bool :=
  let ps := s.pen p
  let save := d.saveBase / granule
  let saveN := (d.ctxMax + 1) / 2
  let g := c.tblG d.ctxMax
  (ps.ctxs.all fun kv => kv.2.serving == .free) && ps.kv.refs.isEmpty && ps.kv.loftRef.isEmpty &&
  inRange d.hbm c.pool c.poolCnt && !(overlaps c.pool c.poolCnt save saveN) && (c.pfxCnt == 0 || !(overlaps c.pool c.poolCnt c.pfx c.pfxCnt)) &&
  (decide (g < c.poolCnt) || c.gKv == 0) && (c.loftCnt == 0 || inRange d.loft c.loft c.loftCnt) &&
  (d.policy != 1 || decide (1 ≤ c.loftCnt)) &&
  (c.pfxCnt == 0 || (inRange d.hbm c.pfx c.pfxCnt && !(overlaps c.pfx c.pfxCnt save saveN))) &&
  decide (1 ≤ c.maxSpans) && decide (c.lowG < c.highG) && decide (c.highG + g ≤ c.poolCnt)

/-- A KVM_CTRL.APPLY = 1 write carried out: the configuration takes effect, or REJECT is set; hardware clears APPLY. -/
def Hw.kvmApply (s : Hw) (p : Nat) : Hw :=
  let s := s.set R.KVM_CTRL_APPLY p 0
  match s.desc p with
  | none => s
  | some d =>
    let c := s.kvmRegs p
    if s.kvmOk p d c then
      ((s.modKv p fun k => { k with cfg := some c, reserve := 0, recomp := [], tickets := [], moves := [], pins := [], reclaim := false, pfxUse := [] }).set
        R.KVM_CTRL_CONFIGURED p 1).kvCounts p
    else s.set R.KVM_CTRL_REJECT p 1

/-- KVM_APPLY (R251). -/
def execKvmApply (p : PenId) (s : State) : Host.Outcome State Fault Refusal := s.byHostHw fun h => h.kvmApply p.val

end Sys2Proof.Machine
end

