-- ==== Sys2Proof/Machine/Swap.lean ====
section
/-! DEFINITION. Context swaps (Section 5 of 03_frames.md): victims, swap sets, and the check of swapped-in records. -/

namespace Sys2Proof.Machine

/-- How many resident slots a pen's contexts take, swaps in progress among them. -/
def PenSt.residents (ps : PenSt) : Nat := (ps.ctxs.filter fun kv => kv.2.res.resident || kv.2.res == .swapIn).length

/-- The victim of R69: the context IDLE longest, else the one BLOCKED longest. -/
def PenSt.victim (ps : PenSt) : Option Nat :=
  match leastBy (fun kv : Nat × Ctx => kv.2.since) (ps.ctxs.filter fun kv => kv.2.res == .idle) with
  | some kv => some kv.1
  | none => (leastBy (fun kv : Nat × Ctx => kv.2.since) (ps.ctxs.filter fun kv => kv.2.res == .blocked)).map (·.1)

/-- One swap-in started, or left waiting while no resident slot can be had or while the context's own swap-out, which is never
abandoned, is in progress (R69, R71). -/
def Run.beginSwap (r : Run) (p x : Nat) (u0 : Bool) : Run :=
  let go := fun (r : Run) => r.on fun s =>
    ((s.enter p x .swapIn).modPen p fun ps => { ps with swap := ps.swap ++ [⟨x, true, u0, false⟩] }).traceAdd 7 p 0xFF 0xFF 0xFFFFFFFF x
  let later := fun (r : Run) => r.on fun s => s.modPen p fun ps => { ps with swap := ps.swap ++ [⟨x, true, u0, true⟩] }
  if ((r.hw.pen p).ctx x).res = .swapOut then later r
  else if (r.hw.pen p).residents < 32 then go r
  else match (r.hw.pen p).victim with
    | none => later r
    | some v =>
      if r.dirty p v then go (r.on fun s => (s.enter p v .swapOut).modPen p fun ps => { ps with swap := ps.swap ++ [⟨v, false, u0, false⟩] })
      else go (r.on fun s => s.enter p v .defined)

/-- The non-U0 swap-ins in progress abandoned for a U0 set; they are retried after it (R71). -/
def Hw.abandonSwaps (s : Hw) (p : Nat) : Hw :=
  let xs := ((s.pen p).swap.filter fun e => e.inn && !e.u0 && !e.wait).map (·.ctx)
  let s := s.each xs fun x s => (s.enter p x .defined).inc R.FSQ_SWAP_ABORT_ABORTS p
  s.modPen p fun ps => { ps with swap := ps.swap.map fun e => if e.inn && !e.u0 then { e with wait := true } else e }

/-- The swaps of one sweep started as one set (R69 to R71): contexts with their queue class. -/
def Run.startSwaps (r : Run) (p : Nat) (xs : List (Nat × Bool)) : Run :=
  if xs = [] then r
  else
    let r := if xs.any (·.2) then r.on fun s => s.abandonSwaps p else r
    let r := r.on fun s => s.modPen p fun ps => { ps with swapAt := s.clk.now }
    (r.each xs fun x r => r.beginSwap p x.1 x.2).on fun s => s.showResident p

/-- Whether a saved record passes the checks of R72. -/
def Run.recordOk (r : Run) (p x a : Nat) : Bool :=
  let h := r.read a 64
  let len := fld h 8 4
  decide (64 ≤ len) && decide (len ≤ 0x100000) && fld h 0 4 == 0x5854434B && fld h 4 2 == x && fld h 6 1 == p && fld h 0x3C 4 == crc32c (h.take 60) &&
  fld h 0x30 4 == (if len = 64 then 0 else crc32c (r.read (a + 64) (len - 64))) && r.readMarks (.pen p) a len == 0

/-- Whether a record's place lies in the pen's scratchpads. -/
def Hw.placeOk (s : Hw) (p a len : Nat) : Bool := match s.penSpd p a with
  | some n => decide (a + len ≤ spdAddr n + spdSize)
  | none => false

/-- A swap-in done: the record checked and resident, or CTX_RECORD_BAD and FAULTED (R72). -/
def Run.swapIn (r : Run) (p x place : Nat) : Run :=
  let a := r.hw.recAddr p x
  let r := r.fetch (.pen p) a 64
  let r := r.fetch (.pen p) (a + 64) (min (r.readNat (a + 8) 4) 0x100000 - 64)
  if r.recordOk p x a then
    let bs := r.read a (r.readNat (a + 8) 4)
    let r := match r.hw.penSpd p place with
      | some n => r.remoteBytes n place bs 0
      | none => r
    r.on fun s =>
      let s := s.modPen p fun ps => ps.modCtx x fun k => { k with addr := place, wake := false }
      (s.enter p x (if (s.pen p).busy x then .ready else .idle)).inc R.FSQ_SWAP_COUNT_SWAPS p
  else
    let r := r.on fun s => ((s.enter p x .faulted).inc R.FSQ_SWAP_ABORT_CTX_BAD p).log E.CTX_RECORD_BAD { kind := 4, pen := p, addr := a, ctx := x }
    r.each ((r.hw.pen p).bound.filter (·.ctx == x)) fun b r => r.deliver p { b with emitted := true, codes := Crib.POISONED_OUTPUT :: b.codes }

/-- Whether a context's bound sequence is of class U0. -/
def PenSt.u0Ctx (ps : PenSt) (x : Nat) : Bool := ps.bound.any fun b => b.ctx == x && b.cls == 0

/-- SWAP_SET_DONE (R70, R72): the swaps in progress complete. `places` are the addresses, in the pen's scratchpads, where the
swapped-in records now lie, in order (log 16), with what their writes met at the banks (R174, R175). A context
that wakes meanwhile comes back under the class of its sequence (R71). -/
def execSwapSetDone (p : PenId) (places : SwapPlaces) (s : State) : Host.Outcome State Fault Refusal :=
  s.run fun r =>
    let ps := r.hw.pen p.val
    let now := ps.swap.filter fun e => !e.wait
    let ins := (now.filter (·.inn)).map (·.ctx)
    if now = [] ∨ places.addrs.length < ins.length ∨ !((ins.zip places.addrs).all fun x => r.hw.placeOk p.val x.2 (min 0x100000 (r.readNat (r.hw.recAddr p.val x.1 + 8) 4))) then r
    else
      let r := r.each (now.filter fun e => !e.inn) fun e r => (r.saveRecord p.val e.ctx).on fun s => s.enter p.val e.ctx .defined
      let r := r.on fun s => s.each ((places.addrs.head?.bind fun a => s.penSpd p.val a).toList) fun n s => s.metBanks n (places.met.yields, places.met.sameRow)
      let r := r.each (ins.zip places.addrs) fun x r => r.swapIn p.val x.1 x.2
      let woken := ((r.hw.pen p.val).ctxs.filter fun kv => kv.2.wake && kv.2.res == .defined && !(ps.swap.any fun e => e.wait && e.ctx == kv.1)).map
        fun kv => (⟨kv.1, true, ps.u0Ctx kv.1, true⟩ : SwapEnt)
      let later := ps.swap.filter (·.wait) ++ woken
      let r := r.on fun s => (s.modPen p.val fun ps => { ps with swap := [] }).raise R.FSQ_SWAP_MAX_MAX p.val (s.clk.now - ps.swapAt)
      ((r.startSwaps p.val (later.map fun e => (e.ctx, e.u0))).afterEnd p.val)

/-- A context whose wait has ended while its record is not resident is wake-pending and comes back (Table 3.6). -/
def Run.wakeCtx (r : Run) (p f : Nat) (pos : Option Nat) : Run :=
  match pos.bind fun q => r.hw.boundAt p f q with
  | none => r
  | some b =>
    let k := (r.hw.pen p).ctx b.ctx
    if (k.res = .defined ∨ k.res = .swapOut) ∧ !k.wake then
      let r := r.on fun s => s.modPen p fun ps => ps.modCtx b.ctx fun k => { k with wake := true }
      if k.res = .defined then r.startSwaps p [(b.ctx, b.cls == 0)] else r
    else r

end Sys2Proof.Machine
end

