-- ==== Sys2Proof/Machine/Sweep.lean ====
section
/-! DEFINITION. The intake sweeper (Sections 1 to 3 of 09_serving.md): trough windows, batch records, the admission checks of
Table 9.4 and acceptance. -/

namespace Sys2Proof.Machine

/-! ## Slots and selection (R39) -/

/-- Whether a slot of a pen is selectable. -/
def Hw.selectable (s : Hw) (p slot : Nat) : Bool := match s.desc p, s.adm p slot, Tbl.find? slot (s.pen p).plans with
  | some d, some a, some pl => bit d.planMask slot && pl.digest.take 16 == a.digest
  | _, _, _ => false

/-- The ceilings of a class of a pen and slot. -/
def AdmEntry.lim (a : AdmEntry) (cls : Nat) : ClassLim := if cls = 0 then a.u0 else if cls = 1 then a.u1 else a.b

/-! ## Windows (R230 to R233) -/

/-- Record slots of a window. -/
def Tenant.slots (t : Tenant) : Nat := 32 * t.size - 1

/-- The device address of the record slot of a SEQ. -/
def Tenant.slotAddr (t : Tenant) (seq : Nat) : Nat := t.window + 2048 * (1 + (seq - 1) % t.slots)

/-- The bytes of a batch record: its header and its entries. -/
def Run.record (r : Run) (t : Tenant) (seq : Nat) : Bytes :=
  let a := t.slotAddr seq
  r.read a (64 + 64 * min (r.readNat (a + 8) 1) 30)

/-- Whether a slot holds a record with a SEQ and a valid RCRC; a poisoned line fails it (R395). -/
def Run.recValid (r : Run) (t : Tenant) (seq : Nat) (b : Bytes) : Bool :=
  fld b 0 4 == seq && fld b 0x3C 4 == crc32c (b.take 60 ++ b.drop 64) && r.marks (t.slotAddr seq) b.length == 0

/-- Lowest SEQ still pending (Table 9.1). -/
def Win.freeSeq (w : Win) : Nat := w.pend.foldl (fun m x => min m x.seq) w.nextSeq

/-- The header area that the device writes at each visit (Table 9.1). -/
def Hw.winHeader (s : Hw) (t : Nat) : Bytes :=
  let w := s.win t
  let st := (if w.latched then 1 else 0) + (if w.cribBad then 2 else 0) + (if w.cribWait then 4 else 0) + (if w.seqErr then 8 else 0) +
    (if w.reinitW then 16 else 0)
  leBytes 4 w.nextSeq ++ leBytes 4 w.freeSeq ++ leBytes 4 w.cribTail ++ leBytes 4 st ++ leBytes 4 (s.ten t).bucket ++ leBytes 4 w.pend.length ++
    leBytes 8 w.sweepF ++ leBytes 4 w.accepted ++ leBytes 4 w.refused ++ leBytes 4 w.budget ++ leBytes 4 w.late ++ leBytes 4 w.dlPassed ++ zeros 204

/-- Whether a pen is standby, or answers nothing in the frame of its takeover (R310, Table 11.5). -/
def Hw.standby (s : Hw) (p : Nat) : Bool := (s.pen p).yoke.standby || (s.pen p).yoke.takeF == some s.clk.frame

/-- The first present pen a tenant names. -/
def Hw.firstPen (s : Hw) (t : Tenant) : Option Nat := s.penList.find? fun p => bit t.penMask p

/-- Whether a tenant's pens are standby, so that its window is only read (R310). -/
def Hw.standbyTen (s : Hw) (t : Tenant) : Bool := match s.firstPen t with
  | some p => s.standby p
  | none => false

/-- The mirrored state of a standby tenant's window. -/
def Hw.mirror (s : Hw) (t : Tenant) : Option MirWin := (s.firstPen t).bind fun p => Tbl.find? t.id (s.pen p).yoke.mir

/-- The device's area of the header written; for a standby tenant from the mirrored values. -/
def Run.writeHeader (r : Run) (t : Tenant) : Run :=
  let h := r.hw.winHeader t.id
  let h := match r.hw.standbyTen t, r.hw.mirror t with
    | true, some m => overlay (overlay h 4 (leBytes 4 m.freeSeq)) 16 (leBytes 4 m.bucket)
    | _, _ => h
  r.store (t.window + 0x100) h 0

/-- Whether a window's latched crib breaks R233. -/
def Hw.cribFault (s : Hw) (t : Tenant) (head : Nat) : Bool :=
  let w := s.win t.id
  let n := w.cribLen
  !((List.range 11).any fun i => n == 64 * 2 ^ i) || w.cribBase % 4096 != 0 || !(s.dmaOk t.function w.cribBase (32 * n) true) ||
  decide (n < (w.cribTail + 2 ^ 32 - head % 2 ^ 32) % 2 ^ 32)

/-- A window latched: the crib fields copied. -/
def Run.latch (r : Run) (t : Tenant) : Run :=
  let b := r.readNat (t.window + 8) 8
  let n := r.readNat (t.window + 0x10) 4
  r.on fun s => s.modWin t.id fun w => { w with latched := true, cribBase := b, cribLen := n }

/-- Whether a tenant has accepted sequences that await their entries. -/
def Hw.awaiting (s : Hw) (t : Nat) : Bool :=
  s.penList.any fun p => (s.pen p).bound.any (·.tenant == t) || (s.pen p).deferred.any (·.tenant == t)

/-- The pins of a record dropped, and the clocks of the pauses it held run again (R254, R260). -/
def Hw.unpin (s : Hw) (p key : Nat) : Hw :=
  s.modPen p fun ps =>
    let xs := (ps.kv.pins.filter (·.2 == key)).map (·.1)
    let ps := { ps with kv := { ps.kv with pins := ps.kv.pins.filter (·.2 != key) } }
    xs.foldl (fun ps x => ps.modCtx x fun k => { k with clockHeld := false }) ps

/-- The key of a record among the pins. -/
def recKey (t seq : Nat) : Nat := t * 2 ^ 32 + seq

/-- A record that is no more pending. -/
def Hw.dropPend (s : Hw) (t : Nat) (x : PendRec) : Hw :=
  (s.modWin t fun w => { w with pend := w.pend.filter fun y => y.seq != x.seq }).unpin x.pen (recKey t x.seq)

/-- A window's state at reset (R231); what its records pinned is free. -/
def Hw.resetWin (s : Hw) (t : Nat) : Hw := (s.each (s.win t).pend fun x s => s.dropPend t x).modWin t fun _ => {}

/-- Free crib entries of a window after those reserved, with CRIB_HEAD as it reads now. -/
def Run.cribFree (r : Run) (t : Tenant) : Nat :=
  let w := r.hw.win t.id
  w.cribLen - (w.cribTail + 2 ^ 32 - r.readNat (t.window + 0x14) 4) % 2 ^ 32 - w.reserved

/-! ## The sweep in progress -/

/-- A sweep in progress: contexts named so far (pen, context), windows that stopped, records examined per window of each kind,
and the contexts to be swapped in. -/
structure Sweep where
  run   : Run
  named : List (Nat × Nat) := []
  stop  : List Nat := []
  u0n   : Tbl Nat := []
  otn   : Tbl Nat := []
  swaps : List (Nat × Nat × Bool) := []
deriving DecidableEq, Repr

/-- The kind of a record: 0 U0 STEP, 1 U1 STEP or CONTROL (or neither, as a malformed one), 2 B STEP (R235). -/
def recKind (b : Bytes) : Nat :=
  if fld b 4 1 = 1 then (if fld b 5 1 = 0 then 0 else if fld b 5 1 = 2 then 2 else 1) else 1

/-- Whether a sequence entry breaks the layout (R237, Table 9.3). -/
def entryBad (op : Nat) (e : Bytes) : Bool :=
  let act := fld e 2 1
  let fl := fld e 3 1
  (if op = 1 then decide (2 < act) else act != 3 && act != 4) || decide (7 < fl) || bit (fld e 0x10 2) 15 || bit (fld e 0x12 2) 15 ||
  decide (1024 < fld e 0x0E 2) || (act != 1 && (bit fl 2 || fld e 0x14 4 != 0)) || !(zeroAt e 0x2E 18)

/-- The sequence entries of a record with their indices. -/
def recEntries (b : Bytes) : List (Nat × Bytes) := (List.range (fld b 8 1)).map fun i => (i, slice b (64 + 64 * i) 64)

/-- Whether a record breaks the layout (R237, Table 9.2). -/
def recBad (b : Bytes) : Bool :=
  let op := fld b 4 1
  let cls := fld b 5 1
  let n := fld b 8 1
  (op != 1 && op != 2) || (if op = 2 then cls != 0 || fld b 7 1 != 0 else decide (2 < cls)) || decide (15 < fld b 6 1) || decide (7 < fld b 7 1) ||
  decide (n = 0) || decide (30 < n) || !(zeroAt b 9 51) || (recEntries b).any fun e => entryBad op e.2

/-- One crib entry of a window reserved (R233, R243). -/
def Run.reserve (r : Run) (t : Nat) : Run := r.on fun s => s.modWin t fun w => { w with reserved := w.reserved + 1 }

/-- An answer to a record or a sequence of it; a replayed record's entries carry REPLAYED and its code (R312). -/
def Run.answerRec (r : Run) (t : Nat) (x : PendRec) (idx ctx pen slot status reason pos : Nat) : Run :=
  let e := r.hw.answer t x.seq idx ctx pen slot status reason pos
  (r.reserve t).postEntry (if x.replay then { e with flags := 8, status := cribCode [status, Crib.TAKEOVER_REPLAY] } else e)

/-- A record-level answer: the record is done. -/
def Run.answerWhole (r : Run) (t : Nat) (x : PendRec) (b : Bytes) (status reason : Nat) : Run :=
  (r.answerRec t x 0xFF 0xFFFF (fld b 6 1) (fld b 7 1) status reason 0).on fun s => s.dropPend t x

/-- X of an entry (R238). -/
def entryX (e : Bytes) : Nat := if fld e 0x0A 2 = 0 then 1 else fld e 0x0A 2

/-- The charge of an entry (R238). -/
def entryCharge (e : Bytes) : Nat := entryX e + (if bit (fld e 3 1) 1 then 1 else 0)

/-- Whether the host ranges of an entry lie in the function's windows (check 8). -/
def Hw.entryRanges (s : Hw) (f : Nat) (e : Bytes) : Bool :=
  s.dmaOk f (fld e 0x18 8) (4 * fld e 0x0A 2) false && (fld e 0x20 8 == 0 || s.dmaOk f (fld e 0x20 8) (fld e 0x28 4) true)

/-- The record of a window changed. -/
def Hw.modPend (s : Hw) (t seq : Nat) (f : PendRec → PendRec) : Hw :=
  s.modWin t fun w => { w with pend := w.pend.map fun y => if y.seq = seq then f y else y }

/-- The record header of a context that is not FREE is read (R197). -/
def Run.lookCtx (r : Run) (p x : Nat) : Run := if ((r.hw.pen p).ctx x).serving = .free then r else r.lookRec p x

/-- The entries of the spans that a step at `pos` reads are read (R254). -/
def Run.lookTable (r : Run) (p x pos : Nat) : Run := match (r.hw.pen p).kv.cfg with
  | none => r
  | some c => r.each (List.range (min c.maxSpans ((pos + 63) / 64))) fun sp r => r.lookSpan c x sp

/-- The start position of a sequence: 0 for START. -/
def Run.startPos (r : Run) (p : Nat) (e : Bytes) : Nat := if fld e 2 1 = 1 then 0 else r.tokenPos p (fld e 0 2)

/-- Checks 9 to 13 over the sequences of a STEP record: those answered leave the record. Answers the remaining ones. -/
def Sweep.seqs (t : Nat) (x : PendRec) (p slot : Nat) : List (Nat × Bytes) → Sweep → Sweep × List (Nat × Bytes)
  | [], w => (w, [])
  | e :: es, w =>
    let c := fld e.2 0 2
    let w := { w with run := w.run.lookCtx p c }
    let pos := w.run.startPos p e.2
    let done := fun (w : Sweep) (st reason : Nat) =>
      let r := (w.run.answerRec t x e.1 c p slot st reason (w.run.tokenPos p c)).afterAnswer p c st
      { w with run := r.on fun s => s.modPend t x.seq fun y => { y with answered := e.1 :: y.answered } }
    match w.run.seqChecks p t e.2 pos with
    | some (st, reason) => Sweep.seqs t x p slot es (done w st reason)
    | none =>
      if (w.run.hw.pen p).busy c || w.named.contains (p, c) then Sweep.seqs t x p slot es (done w Crib.NOT_ACCEPTED 0x0A)
      else
        let (w, rest) := Sweep.seqs t x p slot es { w with named := (p, c) :: w.named }
        (w, e :: rest)

/-- A record held at check 14: at its first hold the loft spans are queued for restoring and the dropped ones for
recomputing; the contexts of its sequences are pinned and a RESUME's clock stands (R254, R260). -/
def Run.holdSpans (r : Run) (t p : Nat) (x : PendRec) (es : List (Nat × Bytes)) : Run :=
  match (r.hw.pen p).kv.cfg with
  | none => r
  | some c =>
    let r := r.on fun s => s.modPend t x.seq fun y => { y with held14 := true, once14 := true }
    let r := r.on fun s => s.modPen p fun ps => (es.filter fun e => fld e.2 2 1 == 2).foldl
      (fun ps e => ps.modCtx (fld e.2 0 2) fun k => { k with clockHeld := true }) ps
    if x.once14 then r
    else
      let r := r.on fun s => s.modKv p fun k => { k with pins := k.pins ++ es.map fun e => (fld e.2 0 2, recKey t x.seq) }
      r.each es fun e r =>
        let cx := fld e.2 0 2
        (r.each (r.missingSpans p cx (r.startPos p e.2)) fun sp r =>
          let st := (r.span p c cx sp).map pteState
          let mv : SpanMove := ⟨cx, sp, false⟩
          r.on fun s => s.modKv p fun k => { k with
            moves := if st.contains 1 && !(k.moves.contains mv) then k.moves ++ [mv] else k.moves,
            recomp := if st.contains 2 && !(k.recomp.contains (cx, sp)) && !(k.ticketed cx sp) then k.recomp ++ [(cx, sp)] else k.recomp }).on
          fun s => s.showQueue p

/-- The START of a context (R245, R246, R252): pages released and every page-table entry absent, the record fresh, the owner set. A record that lies in the save area
is written anew (log 15). -/
def Run.startCtx (r : Run) (p t slot : Nat) (e : Bytes) : Run :=
  let x := fld e 0 2
  let r := r.releasePages p x
  let root := match (r.hw.pen p).kv.cfg with
    | some c => c.root x
    | none => 0
  let fresh := freshRecord p x t slot r.hw.clk.frame root (fld e 0x14 4)
  let k := (r.hw.pen p).ctx x
  let r := if k.res.resident then
      r.recSet p x [(7, leBytes 1 t), (0xC, leBytes 1 slot), (0xD, [1#8]), (0x10, leBytes 8 r.hw.clk.frame), (0x18, leBytes 8 root), (0x20, zeros 4),
        (0x24, slice e 0x14 4), (0x28, zeros 8)]
    else (r.on fun s => s.enter p x .defined).memWrite (r.hw.recAddr p x) fresh 0
  r.on fun s => s.modPen p fun ps => ps.modCtx x fun k =>
    { k with serving := .active, owner := t, late := false, sampled := false, prefixOn := bit (fld e 3 1) 2, domain := fld e 0x2C 2, hashBlk := 0,
             hash := [], expiry := none, clockHeld := false }

/-- One sequence of an accepted record bound (R241): the context started or resumed, its record's last binding, its pages, its
step-table entry and the arrival that announces it. -/
def Sweep.bind (t : Nat) (x : PendRec) (p slot cls : Nat) (e : Nat × Bytes) (w : Sweep) : Sweep :=
  let r := w.run
  let cx := fld e.2 0 2
  let act := fld e.2 2 1
  let pos0 := r.startPos p e.2
  let k := entryX e.2
  let r :=
    if act = 1 then r.startCtx p t slot e.2
    else
      let fl := r.recGet p cx 0xD 1
      let r := r.recSet p cx [(0xC, leBytes 1 slot), (0xD, leBytes 1 ((if act = 2 then fl - bits fl 1 1 * 2 else fl) ||| 1)),
        (0x10, leBytes 8 r.hw.clk.frame)]
      if act = 2 then r.on fun s => s.modPen p fun ps => ps.modCtx cx fun k => { k with serving := .active, expiry := none, clockHeld := false } else r
  let q := (r.hw.pen p).nextPos
  let b : Bound := { tenant := t, seq := x.seq, idx := e.1, pos := q, frame := r.hw.clk.frame, cls := cls, slot := slot, ctx := cx, entry := e.2,
                     x := k, pos0 := pos0, susp := r.hw.is R.FSQ_STATE_SUSPENDED p, replay := x.replay }
  let r := r.on fun s => s.modPen p fun ps => { ps with bound := ps.bound ++ [b], nextPos := q + 1, seats := ps.seats ++ [(b.frame, q, t)] }
  let r := (r.allocStep p cx pos0 k).on fun s => s.kvCounts p
  let r := match r.hw.penStalls p with
    | [] => r
    | n :: _ =>
      let bs := slice e.2 0 0x30 ++ leBytes 4 x.seq ++ leBytes 1 cls ++ leBytes 1 t ++ leBytes 2 0 ++ leBytes 4 pos0 ++ zeros 4
      (r.remoteBytes n (spdAddr n + 0x017FF000 + 2048 * (r.hw.clk.frame % 2) + 64 * q) bs 0).remoteEnd n (r.hw.slotOf p r.hw.clk.frame) (some 63) 0xFFFF
  let res := ((r.hw.pen p).ctx cx).res
  if res.resident ∧ res ≠ .swapOut then { w with run := r.on fun s => s.enter p cx .ready }
  else { w with run := r, swaps := w.swaps ++ [(p, cx, cls == 0)] }

/-- A record accepted: charged, counted, every remaining sequence bound in order; its pages taken, reclamation is tested
(R253). -/
def Sweep.accept (t : Nat) (x : PendRec) (p slot cls : Nat) (es : List (Nat × Bytes)) (w : Sweep) : Sweep :=
  let charge := (es.map fun e => entryCharge e.2).sum
  let r := w.run.on fun s =>
    let s := s.modTen t fun y => { y with bucket := y.bucket - charge, charged := y.charged + charge }
    let s := s.modWin t fun y => { y with accepted := (y.accepted + 1) % 2 ^ 32, reserved := y.reserved + es.length }
    let s := s.modPen p fun ps => { ps with counts := (ps.counts.zip (List.range 3)).map fun c =>
      if c.2 = cls then (c.1.1 + 1, c.1.2.1 + es.length, c.1.2.2 + charge) else c.1, chg := ps.chg ++ [(s.clk.frame, t, charge)] }
    (s.dropPend t x).traceAdd 2 p 0xFF 0xFF 0xFFFFFFFF x.seq
  let w := es.foldl (fun w e => Sweep.bind t x p slot cls e w) { w with run := r }
  { w with run := w.run.reclaim p }

/-- Checks 14 to 17 for the remaining sequences of a STEP record, and its acceptance. -/
def Sweep.step (t : Nat) (x : PendRec) (b : Bytes) (es : List (Nat × Bytes)) (w : Sweep) : Sweep :=
  let p := fld b 6 1
  let r := w.run.each (es.filter fun e => fld e.2 2 1 != 1) fun e r => r.lookTable p (fld e.2 0 2) (r.startPos p e.2)
  let w := { w with run := r }
  let slot := fld b 7 1
  let cls := fld b 5 1
  let ps := r.hw.pen p
  let refuse := fun (st reason : Nat) => { w with run := r.answerWhole t x b st reason }
  if es.any fun e => fld e.2 2 1 != 1 && !((r.missingSpans p (fld e.2 0 2) (r.startPos p e.2)).isEmpty) then
    { w with run := r.holdSpans t p x es }
  else
    let lim := match r.hw.adm p slot with
      | some a => a.lim cls
      | none => ⟨0, 0, 0, 0⟩
    let c := ps.counts.getD cls (0, 0, 0)
    let charge := (es.map fun e => entryCharge e.2).sum
    let carried := (ps.bound.filter fun y => decide (y.frame < r.hw.clk.frame) && y.cls == 0).length
    let need := (es.map fun e => r.needPages p (fld e.2 0 2) (r.startPos p e.2) (entryX e.2) (fld e.2 2 1 == 1)).sum
    if lim.maxBatch < c.1 + 1 ∨ lim.maxSeq < c.2.1 + es.length ∨ lim.maxTokens < c.2.2 + charge ∨ 32 < ps.nextPos + carried + es.length then
      refuse Crib.NOT_ACCEPTED 0x07
    else if ps.kv.cfg.isNone ∨ r.hw.freePages p < need then
      { w with run := (r.on fun s => s.inc R.KVM_REFUSE_KV_FULL p).answerWhole t x b Crib.NOT_ACCEPTED 0x0B }
    else if (r.hw.ten t).bucket < charge then refuse Crib.BUDGET_EXHAUSTED 0
    else w.accept t x p slot cls es

/-- The sequences of a CONTROL record judged (R246): one whose context is busy is judged again after its entry. -/
def Run.control (r : Run) (t : Nat) (x : PendRec) (p : Nat) (es : List (Nat × Bytes)) : Run :=
  let r := r.each es fun e r =>
    let c := fld e.2 0 2
    let r := r.lookCtx p c
    let d : Deferred := ⟨t, x.seq, e.1, c, e.2, x.replay, r.hw.is R.FSQ_STATE_SUSPENDED p⟩
    match r.seqChecks p t e.2 (r.tokenPos p c) with
    | some (st, reason) => (r.answerRec t x e.1 c p 0 st reason (r.tokenPos p c)).afterAnswer p c st
    | none =>
      if (r.hw.pen p).busy c || (r.hw.pen p).deferred.any (·.ctx == c) then
        (r.reserve t).on fun s => s.modPen p fun ps => { ps with deferred := ps.deferred ++ [d] }
      else (r.reserve t).judgeControl p d
  r.on fun s => s.dropPend t x

/-- Whether a record must wait for an earlier one of its window that names one of its contexts: a STEP for a CONTROL that is pending
or held on a busy context (R235), a CONTROL for any record that is pending, since controls and steps of a context take effect in
SEQ order (R246). -/
def Run.behind (r : Run) (t : Tenant) (x : PendRec) (b : Bytes) : Bool :=
  let step := fld b 4 1 == 1
  let p := fld b 6 1
  let mine := fun c => (recEntries b).any fun e => fld e.2 0 2 == c
  (step && (r.hw.pen p).deferred.any fun d => d.tenant == t.id && decide (d.seq < x.seq) && mine d.ctx) ||
  (r.hw.win t.id).pend.any fun y => decide (y.seq < x.seq) &&
    (let e := r.record t y.seq
     (!step || fld e 4 1 == 2) && fld e 6 1 == p && (recEntries e).any fun e => mine (fld e.2 0 2))

/-- One record examined: the checks of Table 9.4 in order (R239). -/
def Sweep.examine (t : Tenant) (x : PendRec) (b : Bytes) (w : Sweep) : Sweep :=
  let r := w.run
  let p := fld b 6 1
  let slot := fld b 7 1
  let step := fld b 4 1 == 1
  let es := (recEntries b).filter fun e => !(x.answered.contains e.1)
  let ans := fun (st reason : Nat) => { w with run := r.answerWhole t.id x b st reason }
  if recBad b || !(r.recValid t x.seq b) then ans Crib.NOT_ACCEPTED 0x01
  else if !(r.hw.present p) || !(bit t.penMask p) then ans Crib.NOT_ACCEPTED 0x03
  else if r.hw.get R.ERR_PEN_STATE_STATE p ≠ 0 then ans Crib.HANG_FENCED 0
  else if r.hw.is R.PEN_STATE_REFUSING p || r.hw.dev.quiet then ans Crib.NOT_ACCEPTED 0x04
  else if !step then { w with run := r.control t.id x p es }
  else if !(bit t.classMask (fld b 5 1)) then ans Crib.NOT_ACCEPTED 0x05
  else if fld b 5 1 = 2 ∧ r.hw.is R.PWR_STATUS_SAG_WARN then ans Crib.NOT_ACCEPTED 0x08
  else if !(r.hw.selectable p slot) then ans Crib.NOT_ACCEPTED 0x06
  else if r.hw.dev.unav.any fun kv => kv.2.any fun u => u.mask.contains (p, slot) then ans Crib.WEIGHT_UNAVAILABLE 0
  else if slot ≠ r.hw.get R.FSQ_STATE_SLOT_SEL p ∨ r.hw.is R.FSQ_STATE_IDLE_FRAME p ∨ r.hw.is R.FSQ_STATE_SLIPPED p then
    { w with run := r.on fun s => s.inc R.FSQ_HELD_HELD p }
  else if !(es.all fun e => r.hw.entryRanges t.function e.2) then ans Crib.NOT_ACCEPTED 0x0C
  else
    let (w, es) := Sweep.seqs t.id x p slot es w
    if es = [] then { w with run := w.run.on fun s => s.dropPend t.id x } else w.step t.id x b es

/-- A pending record taken up in its turn: limits of the sweep, order behind earlier records, room in the crib for as many entries as
its NSEQ says and one more (R233, R235). -/
def Sweep.turn (t : Tenant) (kind : Nat) (seq : Nat) (w : Sweep) : Sweep :=
  match (w.run.hw.win t.id).pend.find? (·.seq == seq) with
  | none => w
  | some x =>
    let b := w.run.record t seq
    if w.stop.contains t.id || recKind b != kind || w.run.hw.standby (fld b 6 1) || (w.run.hw.pen (fld b 6 1)).yoke.demote.isSome then w
    else if (if kind = 0 then decide (8 ≤ Tbl.get 0 t.id w.u0n) else decide (24 ≤ Tbl.get 0 t.id w.otn)) then w
    else if !(recBad b) && w.run.behind t x b then w
    else if w.run.cribFree t < fld b 8 1 + 1 then
      { w with stop := t.id :: w.stop, run := w.run.on fun s => s.modWin t.id fun y => { y with cribWait := true } }
    else
      let w := if kind = 0 then { w with u0n := Tbl.insert t.id (Tbl.get 0 t.id w.u0n + 1) w.u0n }
        else { w with otn := Tbl.insert t.id (Tbl.get 0 t.id w.otn + 1) w.otn }
      Sweep.examine t x b w

/-! ## Reading a window (R231, R232, R235) -/

/-- A pending record as its slot now reads: one rewritten with its SEQ is no more the record whose spans were held and pinned (R235,
R254). -/
def Hw.renewPend (s : Hw) (t : Nat) (x : PendRec) (b : Bytes) : Hw :=
  let y : PendRec := { x with pen := fld b 6 1, u0 := recKind b == 0, crc := fld b 0x3C 4 }
  if y.crc = x.crc then s.modPend t x.seq fun _ => y
  else (s.unpin x.pen (recKey t x.seq)).modPend t x.seq fun _ => { y with held14 := false, once14 := false }

/-- Pending records read again: one that its slot no longer holds is answered FORMAT. At sub-ticks 1 to 7 only the U0 STEP
records are read. -/
def Run.reread (r : Run) (t : Tenant) (sub0 : Bool) : Run :=
  r.each ((r.hw.win t.id).pend.filter fun x => sub0 || x.u0) fun x r =>
    let r := r.sense (t.slotAddr x.seq) (r.record t x.seq).length
    let b := r.record t x.seq
    if r.recValid t x.seq b then r.on fun s => s.renewPend t.id x b
    else if r.hw.standby x.pen then r
    else if r.cribFree t < 1 then r
    else (r.answerRec t.id x 0xFF 0xFFFF (fld b 6 1) (fld b 7 1) Crib.NOT_ACCEPTED 0x01 0).on fun s => s.dropPend t.id x

/-- New records read in order, at most `fuel`; a sequence error stops the window and is answered once. -/
def Run.readNew (t : Tenant) (quiet : Bool) : Nat → Run → Run
  | 0, r => r
  | fuel + 1, r =>
    let w := r.hw.win t.id
    let r := r.sense (t.slotAddr w.nextSeq) (r.record t w.nextSeq).length
    let v := r.readNat (t.slotAddr w.nextSeq) 4
    if v = w.nextSeq then
      let b := r.record t v
      Run.readNew t quiet fuel (r.on fun s => s.modWin t.id fun w =>
        { w with nextSeq := w.nextSeq + 1, seqErr := false, lastBad := none,
                 pend := w.pend ++ [{ seq := v, crc := fld b 0x3C 4, pen := fld b 6 1, u0 := recKind b == 0 }] })
    else if v = 0 ∨ (v : Int) = (w.nextSeq : Int) - t.slots then r.on fun s => s.modWin t.id fun w => { w with seqErr := false, lastBad := none }
    else if w.lastBad = some v ∨ quiet ∨ r.cribFree t < 1 then r.on fun s => s.modWin t.id fun w => { w with seqErr := w.seqErr || !quiet }
    else
      let b := r.record t w.nextSeq
      ((r.reserve t.id).postEntry (r.hw.answer t.id v 0xFF 0xFFFF (fld b 6 1) (fld b 7 1) Crib.NOT_ACCEPTED 0x02 0)).on fun s =>
        s.modWin t.id fun w => { w with seqErr := true, lastBad := some v }

/-- On a standby module the window is read from the mirrored FREE_SEQ on, and the records that the partner has answered leave its kept
list (R310). -/
def Hw.keepOnly (s : Hw) (t : Tenant) : Hw := match s.mirror t with
  | none => s
  | some m => s.modWin t.id fun w => { w with nextSeq := max w.nextSeq m.freeSeq, pend := w.pend.filter fun x => decide (m.freeSeq ≤ x.seq) && !(m.answered.contains x.seq) }

/-- A window visited: latched, reinitialised, its crib judged, its records read. Answers whether it is examined. -/
def Run.visit (r : Run) (t : Tenant) (sub0 : Bool) : Run × Bool :=
  let quiet := r.hw.standbyTen t
  let magic := r.readNat t.window 4 = 0x5752544B
  let r := if !(r.hw.win t.id).latched && magic then r.latch t else r
  if !(r.hw.win t.id).latched then (r, false)
  else
    let reinit := bit (r.readNat (t.window + 4) 4) 0
    let busy := !((r.hw.win t.id).pend.isEmpty) || r.hw.awaiting t.id
    if reinit && busy then (r.on fun s => s.modWin t.id fun w => { w with reinitW := true }, false)
    else
      let r := if reinit then
          let c := r.readNat (t.window + 4) 4
          ((r.on fun s => s.modWin t.id fun w => { irqAt := w.irqAt }).latch t).write (t.window + 4) (leBytes 4 (c / 2 * 2))
        else r.on fun s => s.modWin t.id fun w => { w with reinitW := false }
      let bad := r.hw.cribFault t (r.readNat (t.window + 0x14) 4)
      let r := if bad && !(r.hw.win t.id).cribBad then
          r.on fun s => (s.modWin t.id fun w => { w with cribBad := true }).log E.CRIB_BAD { kind := 4, tenant := t.id, addr := (s.win t.id).cribBase }
        else r
      if (r.hw.win t.id).cribBad then (r, false)
      else
        let r := r.on fun s => s.modWin t.id fun w => { w with cribWait := false, sweepF := if quiet then w.sweepF else s.clk.frame }
        let r := if quiet then r.on fun s => s.keepOnly t else r.reread t sub0
        let r := Run.readNew t quiet 32 r
        (r.on fun s => (if quiet then s.keepOnly t else s), !quiet)

/-! ## The sweep (R235) -/

/-- The tenants a sweep visits, in the order of R235: enabled ones, not being disabled, of functions that are on. -/
def Hw.sweepOrder (s : Hw) : List Tenant := match s.dev.truss with
  | none => []
  | some tr =>
    (List.range 64).filterMap fun i => (tr.tenants.find? fun t => t.id == (s.dev.sweep0 + i) % 64).filter fun t =>
      t.enabled && (s.ten t.id).disabling.isNone && !(s.dev.fnOff.contains t.function)

/-- One phase of a sweep: the pending records of a kind, window after window, in ascending SEQ. -/
def Sweep.phase (kind : Nat) (ts : List Tenant) (w : Sweep) : Sweep :=
  ts.foldl (fun w t => ((w.run.hw.win t.id).pend.map (·.seq)).foldl (fun w q => Sweep.turn t kind q w) w) w

/-- KVM_RECOMP_Q.HELD and YOK_REPLAY.PENDING of a pen. -/
def Hw.showHeld (s : Hw) (p : Nat) : Hw :=
  let ps := s.dev.wins.flatMap fun kv => kv.2.pend.filter (·.pen == p)
  (s.set R.KVM_RECOMP_Q_HELD p (ps.filter (·.held14)).length).set R.YOK_REPLAY_PENDING p
    (((s.pen p).bound.filter (·.replay)).length + (ps.filter (·.replay)).length)

/-- A sweep: at sub-tick 0 the U0 STEP records of every window, then the U1 STEP and CONTROL records, then the B records; at
sub-ticks 1 to 7 the U0 STEP records only (R54, R235). Swaps start as one set a pen (R70), and tasks become ready. -/
def Run.sweep (r : Run) (sub0 : Bool) : Run :=
  let r := r.on fun s => s.traceAdd 1 0xFF 0xFF 0xFF 0xFFFFFFFF s.clk.subtick
  let ts := r.hw.sweepOrder
  let (r, opened) := ts.foldl (fun (a : Run × List Tenant) t =>
    let (r, ok) := a.1.visit t sub0
    (r, if ok then a.2 ++ [t] else a.2)) (r, [])
  let w := Sweep.phase 0 opened { run := r }
  let w := if sub0 then Sweep.phase 2 opened (Sweep.phase 1 opened w) else w
  let r := w.run.each ts fun t r => r.writeHeader t
  r.each r.hw.penList fun p r =>
    ((r.startSwaps p ((w.swaps.filter (·.1 == p)).map (·.2))).afterEnd p).on fun s => s.showHeld p

end Sys2Proof.Machine
end

