-- ==== Sys2Proof/Machine/Yoke.lean ====
section
/-! DEFINITION. Yoke pairs (11_yoke.md): pairing and roles, commits and journals on both sides, fetches served, takeover, solo
and demotion. -/

namespace Sys2Proof.Machine

/-! ## Journals (Table 11.3) -/

/-- A journal item with its header, padded to 16 bytes. -/
def JItem.enc (j : JItem) : Bytes :=
  leBytes 4 j.kind ++ leBytes 4 j.bytes.length ++ leBytes 8 j.addr ++ padTo (cdiv j.bytes.length 16 * 16) j.bytes

/-- The items of a journal, at most `fuel` of them. -/
def journalItems : Nat → Bytes → List JItem
  | 0, _ => []
  | fuel + 1, b =>
    if b.length < 16 then []
    else
      let n := fld b 4 4
      ⟨fld b 0 1, fld b 8 8, slice b 16 n⟩ :: journalItems fuel (b.drop (16 + cdiv n 16 * 16))

/-- The number of a serving state in the directory's format (log 31). -/
def Serving.num : Serving → Nat
  | .free => 0
  | .active => 1
  | .paused => 2
  | .lost => 3

/-- The serving state of a number. -/
def servingOf (n : Nat) : Serving := if n = 1 then .active else if n = 2 then .paused else if n = 3 then .lost else .free

/-- A table of counts: its length, then pairs of numbers. -/
def encTbl (t : Tbl Nat) : Bytes := leBytes 4 t.length ++ t.flatMap fun kv => leBytes 4 kv.1 ++ leBytes 4 kv.2

/-- The table of counts at the front of a row of bytes, and the rest. -/
def decTbl (b : Bytes) : Tbl Nat × Bytes :=
  let n := fld b 0 4
  (((List.range n).map fun i => (fld b (4 + 8 * i) 4, fld b (8 + 8 * i) 4)), b.drop (4 + 8 * n))

/-- The references that the prefix entries of a pen hold, page by page (R313). -/
def Run.pfxRefs (r : Run) (p : Nat) : Tbl Nat := match (r.hw.pen p).kv.cfg with
  | none => []
  | some c => ((List.range c.pfxLen).filter fun i => r.pfxUsed p i).foldl (fun t i =>
      (r.pfxPages c i).foldl (fun t g => Tbl.set 0 g (Tbl.get 0 g t + 1) t) t) []

/-- One context in the directory: number, serving state, owner, flags, prefix domain, cached block and hash, and what is left
of a pause. -/
def Ctx.enc (now x : Nat) (k : Ctx) : Bytes :=
  let fl := (if k.late then 1 else 0) + (if k.sampled then 2 else 0) + (if k.prefixOn then 4 else 0) + (if k.res = .faulted then 8 else 0)
  leBytes 2 x ++ leBytes 1 k.serving.num ++ leBytes 1 k.owner ++ leBytes 2 fl ++ leBytes 2 k.domain ++ leBytes 8 k.hashBlk ++
    padTo 16 k.hash ++ leBytes 8 (match k.expiry with
      | some t => t - now + 1
      | none => 0)

/-- The directory of a pen (item KVM; the hub-firmware format is not given: log 31): reference counts, from which the free pages follow,
reservations, serving states and owners. -/
def Run.encDir (r : Run) (p : Nat) : Bytes :=
  let ps := r.hw.pen p
  encTbl ps.kv.refs ++ encTbl ps.kv.loftRef ++ encTbl (r.pfxRefs p) ++ leBytes 4 ps.kv.reserve ++ leBytes 4 ps.ctxs.length ++
    ps.ctxs.flatMap fun kv => kv.2.enc r.hw.clk.now kv.1

/-- A directory applied to the pen of a standby module: counts, contexts, none of them resident. Reservations stand in the kept copy: at a
takeover the replayed records take their own (R312). -/
def Hw.decDir (s : Hw) (p : Nat) (b : Bytes) : Hw :=
  let (refs, b1) := decTbl b
  let (loft, b2) := decTbl b1
  let (_, b3) := decTbl b2
  let n := fld b3 4 4
  let ctxs : Tbl Ctx := (List.range n).map fun i =>
    let e := slice b3 (8 + 40 * i) 40
    let fl := fld e 4 2
    let left := fld e 0x20 8
    (fld e 0 2, ({ res := if bit fl 3 then .faulted else .defined, since := s.clk.now, serving := servingOf (fld e 2 1), owner := fld e 3 1,
                   late := bit fl 0, sampled := bit fl 1, prefixOn := bit fl 2, domain := fld e 6 2, hashBlk := fld e 8 8,
                   hash := if zeroAt e 0x10 16 then [] else slice e 0x10 16,
                   expiry := if left = 0 then none else some (s.clk.now + left - 1) } : Ctx))
  (s.modPen p fun ps => { ps with ctxs := ctxs.filter fun kv => kv.2 != {}, kv := { ps.kv with refs := refs, loftRef := loft },
                                  yoke := { ps.yoke with dir := b } }).kvCounts p

/-- Half the STAGE range of a pen, in bytes (R308), and where it starts. -/
def Hw.stageHalf (s : Hw) (p : Nat) : Nat × Nat := match (s.yokeCfg.bind fun y => y.stage[p]?) with
  | some g => (g.start * granule, g.count * granule / 2)
  | none => (0, 0)

/-! ## The active side (R303 to R306) -/

/-- The item of a context's record, and those of its page table in parts of 1 MiB. -/
def Run.ctxItems (r : Run) (p x : Nat) : List JItem := match r.hw.desc p with
  | none => []
  | some d =>
    let a := r.hw.recAddr p x
    let len := min (max (r.readNat (a + 8) 4) 64) 0x100000
    let tbl := match (r.hw.pen p).kv.cfg with
      | none => []
      | some c => (List.range (cdiv c.tbl 0x100000)).map fun i =>
          (⟨1, c.root x + 0x100000 * i, r.read (c.root x + 0x100000 * i) (min 0x100000 (c.tbl - 0x100000 * i))⟩ : JItem)
    ⟨2, d.saveBase + x * 0x100000, r.read a len⟩ :: tbl

/-- The answered SEQ values of a window above its FREE_SEQ: neither pending nor awaiting an entry that no commit carries. -/
def Hw.answeredSeqs (s : Hw) (t : Nat) : List Nat :=
  let w := s.win t
  let f := w.freeSeq
  (List.range (w.nextSeq - f)).filterMap fun i =>
    let q := f + i
    if w.pend.any (·.seq == q) || s.penList.any (fun p => (s.pen p).bound.any (fun b => b.tenant == t && b.seq == q && !b.held) ||
      (s.pen p).deferred.any fun d => d.tenant == t && d.seq == q) then none else some q

/-- The tenants in force that name a pen. -/
def Hw.penTenants (s : Hw) (p : Nat) : List Tenant := ((s.dev.truss.map (·.tenants)).getD []).filter fun t => bit t.penMask p

/-- Where a CRIB item's sequence stood: its bind position, and the frame of its step above it. -/
def Bound.place (b : Bound) : Nat := b.pos + 256 * (b.frame % 2 ^ 32)

/-- The items of a commit point (R303): the records of DIRTY contexts and of those saved or changed since the last one, with their page
tables, the directory, windows, entries. -/
def Run.commitItems (r : Run) (p : Nat) : List JItem :=
  let ps := r.hw.pen p
  let xs := (ps.ctxs.filter fun kv => kv.2.serving != .free &&
    ((kv.2.res.resident && r.dirty p kv.1) || ps.yoke.changed.contains kv.1)).map (·.1)
  (xs.flatMap fun x => r.ctxItems p x) ++ [⟨3, 0, r.encDir p⟩] ++
  ((r.hw.penTenants p).map fun t =>
    let an := r.hw.answeredSeqs t.id
    (⟨4, t.id, leBytes 4 (r.hw.win t.id).freeSeq ++ leBytes 4 (r.hw.ten t.id).bucket ++ leBytes 4 an.length ++ an.flatMap (leBytes 4)⟩ : JItem)) ++
  (ps.yoke.held.filterMap fun h => (ps.bound.find? fun b => b.tenant == h.1 && b.seq == h.2.1 && b.idx == h.2.2).map fun b =>
    (⟨5, b.place, (r.entryOf p b).1.bytes 0 ++ b.data⟩ : JItem))

/-- A journal closed: it takes the next COMMIT_NO, and its packets are sent (R304). -/
def Hw.closeJournal (s : Hw) (p : Nat) (items : List JItem) : Hw :=
  let y := (s.pen p).yoke
  let bs := items.flatMap JItem.enc
  let s := s.modYoke p fun y => { y with held := [], freed := [], freedL := [], changed := [], nextNo := y.nextNo + 1,
                                         flight := y.flight ++ [⟨y.nextNo, y.held, y.freed, y.freedL, false, bs.length, s.clk.now⟩] }
  s.each (chunk4k bs) fun c s => s.yokeSend p { typ := 6, tc := 1, src := 0, dst := 0, commit := y.nextNo, addr := c.1, payload := c.2 }

/-- A commit point of a pen that is mirrored, or whose bulk copy is done (R304). -/
def Run.commitPoint (r : Run) (p : Nat) : Run :=
  if r.hw.mirrored p || (r.hw.mirroring p && (r.hw.pen p).yoke.bulk.isSome) then r.on fun s => s.closeJournal p (r.commitItems p) else r

/-- BULK_COPY_DONE (R309): the background copy of every page goes as DIRECT packets, that of records and page tables as
journals of one item each (log 30). -/
def execBulkCopyDone (p : PenId) (s : State) : Host.Outcome State Fault Refusal :=
  s.run fun r =>
    let ps := r.hw.pen p.val
    if r.hw.yokeSt p.val ≠ 1 ∨ !(r.hw.is R.YOK_PEN_STATE_ROLE p.val) ∨ ps.yoke.bulk.isSome then r
    else
      let r := match ps.kv.cfg with
        | none => r
        | some c =>
          let as := ps.kv.refs.map (fun kv : Nat × Nat => c.page (r.hw.ctxMax p.val) kv.1) ++ ps.kv.loftRef.map fun kv : Nat × Nat => c.loftPage kv.1
          r.each as fun a r =>
            let (bs, _, r) := r.memRead .device a pageSize
            r.on fun s => s.sendDirect p.val a bs (r.lineMark .device)
      let items := (ps.ctxs.filter fun kv => kv.2.serving != .free).flatMap fun kv => r.ctxItems p.val kv.1
      r.on fun s => (s.each items fun i s => s.closeJournal p.val [i]).modYoke p.val fun y => { y with bulk := some y.nextNo }

/-- YOKE_COMMIT_SEND: every packet of the oldest closed journal has been sent, so COMMIT is. A journal that exceeds half the
STAGE range returns the pen to SYNCING (R308). -/
def execYokeCommitSend (p : PenId) (s : State) : Host.Outcome State Fault Refusal :=
  s.run fun r =>
    match (r.hw.pen p.val).yoke.flight.find? (!·.sent) with
    | none => r
    | some c =>
      if r.hw.dev.txq.any fun x => (x.2.typ == 5 || x.2.typ == 6) && x.2.pen == p.val then r
      else
        let r := r.on fun s => (s.sendCtrl p.val 3 c.no (s.get R.YOK_COMMIT_NO_COMMIT p.val) c.bytes 0 []).modYoke p.val fun y =>
          { y with flight := y.flight.map fun d => if d.no = c.no then { d with sent := true } else d }
        if (r.hw.stageHalf p.val).2 < c.bytes then (r.on fun s => (s.inc R.YOK_ERR_STAGE_FULL p.val).resync p.val).postHeld p.val else r

/-! ## Receiving -/

/-- The CTRL subtype of a packet from the partner, on the yoke port or, for a heartbeat with ALT_PATH, on any (R300). -/
def Hw.isYoke (s : Hw) (l typ sub : Nat) (p : Pkt) : Bool := match s.yokeCfg with
  | none => false
  | some y => p.typ == typ && p.src == y.partner && (typ != 7 || (p.payload.length == 64 && fld p.payload 0 1 == sub)) &&
      ((match s.portOf l with
        | some k => k.id == y.port
        | none => false) || (y.altPath && typ == 7 && sub == 2))

/-- What every yoke packet of a pen does: liveness and bytes (R311). -/
def Hw.yokeHeard (s : Hw) (p : Nat) (pkt : Pkt) : Hw :=
  ((s.inc R.YOK_RX_BYTES_BYTES 0 pkt.size).set R.YOK_LAST_RX_FRAME p s.clk.frame).modYoke p fun y => { y with got := true }

/-- The bytes of a journal once every packet of it is held. -/
def RxJournal.whole (j : RxJournal) : Option Bytes := match j.len with
  | none => none
  | some n =>
    if ((j.parts.map fun x => x.2.length).sum) = n then some (j.parts.foldl (fun b x => overlay b x.1 x.2) (zeros n)) else none

/-- One journal item applied on the standby side (R308). -/
def Run.applyItem (r : Run) (p no : Nat) (j : JItem) : Run :=
  if j.kind = 1 ∨ j.kind = 2 then r.memWrite j.addr j.bytes 0
  else if j.kind = 3 then r.on fun s => s.decDir p j.bytes
  else if j.kind = 4 then
    let w : MirWin := ⟨fld j.bytes 0 4, fld j.bytes 4 4, (List.range (fld j.bytes 8 4)).map fun i => fld j.bytes (12 + 4 * i) 4⟩
    r.on fun s => s.modYoke p fun y => { y with mir := Tbl.insert j.addr w y.mir }
  else if j.kind = 5 then r.on fun s => s.modYoke p fun y => { y with cribs := y.cribs ++ [(no, j)] }
  else r

/-- Whether every packet that the partner sent before the one with a PSN has come, the DIRECT ones with them (R304). -/
def Hw.holdsAll (s : Hw) (psn : Nat) : Bool := match s.yokeCfg with
  | none => false
  | some y =>
    let d := ((s.rxFlow (flowKey y.partner 1)).next + 2 ^ 32 - psn % 2 ^ 32) % 2 ^ 32
    decide (0 < d) && decide (d < 2 ^ 31)

/-- Journals that are complete and next in order are acknowledged and applied, at most `fuel` of them; one that carries the
directory ends SYNCING (R304, R308, log 30). -/
def Run.ackJournals (p : Nat) : Nat → Run → Run
  | 0, r => r
  | fuel + 1, r =>
    let no := r.hw.get R.YOK_COMMIT_NO_COMMIT p + 1
    match (r.hw.pen p).yoke.rx.find? (·.no == no) with
    | none => r
    | some j => match j.whole with
      | none => r
      | some bs =>
        if !(r.hw.holdsAll j.psn) then r
        else if (r.hw.stageHalf p).2 < bs.length then r.on fun s => (s.inc R.YOK_ERR_STAGE_FULL p).resync p
        else
          let r := r.on fun s => ((s.set R.YOK_COMMIT_NO_COMMIT p no).sendCtrl p 4 no 0 0 0 []).modYoke p fun y => { y with rx := y.rx.filter (·.no != no) }
          let js := journalItems (bs.length / 16 + 1) bs
          let r := r.each js fun i r => r.applyItem p no i
          let r := r.on fun s => if s.yokeSt p = 1 ∧ js.any (·.kind == 3) then s.set R.YOK_PEN_STATE_STATE p 3 else s
          Run.ackJournals p fuel r

/-- A yoke packet received for pen `pen pkt` (R280 with the checks of this chapter in place of 3 to 5); a commit that waited for it may
now be acknowledged. -/
def Run.yokeRx (r : Run) (l typ sub : Nat) (raw : Bytes) (udpOk ce : Bool) (pen : Pkt → Nat) (body : Nat → Pkt → Run → Run) : Run :=
  r.rx l raw udpOk ce (r.hw.isYoke l typ sub) (fun _ _ => true) (fun _ _ => false) fun p r =>
    let r := if r.hw.yoked (pen p) then body (pen p) p (r.on fun s => s.yokeHeard (pen p) p) else r
    r.each r.hw.penList fun q r =>
      let n := (r.hw.pen q).yoke.rx.length
      if n = 0 then r else Run.ackJournals q (n + 1) r

/-- The pen a CTRL payload names. -/
def ctrlPen (p : Pkt) : Nat := fld p.payload 1 1

/-- A pen paired with a role by the packet with a PSN: SYNCING; a standby's prefix table is kept empty (R309, R313). -/
def Run.pairAs (r : Run) (p psn : Nat) (active : Bool) : Run :=
  let r := r.on fun s => ((if s.yokeSt p = 1 then s.newSync p else s.toSync p).set R.YOK_PEN_STATE_ROLE p (if active then 1 else 0)).modYoke p fun y =>
    { y with standby := !active, syncPsn := some psn }
  let r := r.postHeld p
  if active then r
  else match (r.hw.pen p).kv.cfg with
    | none => r
    | some c => r.each (List.range c.pfxLen) fun i r => r.when (r.pfxUsed p i) fun r => r.pfxRemove p c i

/-- A pen enters MISMATCH and mirrors nothing (R301). -/
def Run.mismatch (r : Run) (p : Nat) : Run :=
  if r.hw.yokeSt p = 6 then r else (r.on fun s => (s.newSync p).set R.YOK_PEN_STATE_STATE p 6).postHeld p

/-- The answer to a HELLO carries the state the pen had when it came. -/
def Hw.answerHello (s : Hw) (p st : Nat) : Hw :=
  let k := s.ctrlPkt p 1 0 0 0 0 (s.descDigest p)
  s.yokeSend p { k with payload := overlay k.payload 2 (leBytes 1 st) }

/-- Pairing refused (R309): SPLIT and its record; a MIRRORED pen is SOLO then, so that neither side mirrors (log 30). -/
def Run.refusePair (r : Run) (p : Nat) : Run :=
  let st := r.hw.yokeSt p
  let r := r.on fun s =>
    let first := !(s.is R.YOK_STATUS_SPLIT)
    let s := (s.set R.YOK_STATUS_SPLIT 0 1).log E.YOKE_SPLIT { kind := 4, pen := p }
    if first then s.answerHello p st else s
  if st = 2 then (r.on fun s => (s.newSync p).set R.YOK_PEN_STATE_STATE p 5).postHeld p else r

/-- What pairing does (R309, Table 11.4) for our state and the partner's. -/
inductive PairAct where
  | none | lost | refuse | again
  | pair (active : Bool) (answer : Option Nat)
deriving DecidableEq, Repr

/-- The rows of R309 for our state, our role, the role ACTIVE_MASK gives us and the partner's state. A pen in TAKEOVER leaves it only
when its replay completes (Table 11.4), so it does not pair; SOLO against MIRRORED is refused as two active sides are; `log 30` says how
HELLOs are answered. -/
def pairAct (st : Nat) (active first standby : Bool) (theirs : Nat) : PairAct :=
  let claims := decide (theirs = 5) || decide (theirs = 2)
  if st = 4 ∨ theirs = 4 then .none
  else if (st = 2 ∨ st = 3) ∧ theirs = 0 then .lost
  else if (st = 5 ∨ st = 2) ∧ claims then .refuse
  else if st = 5 then .pair true (some 5)
  else if (st = 0 ∨ st = 6) ∧ claims then .pair false (some st)
  else if (st = 1 ∨ st = 3) ∧ !active ∧ theirs = 5 then .pair false (some 1)
  else if (st = 1 ∨ st = 3) ∧ !active ∧ theirs = 1 then .again
  else if st = 1 ∧ active ∧ claims then .pair false none
  else if st = 0 ∧ (theirs = 0 ∨ theirs = 6) then .pair first (some 0)
  else if st = 6 ∧ theirs = 0 then .pair (active || first) (some (if active then 5 else 0))
  else if st = 6 then .pair (if standby then false else active || first) (some 6)
  else if st = 1 ∧ theirs = 0 then .pair (active || first) (some (if active then 5 else 0))
  else .none

/-- Roles at pairing (R309), by a packet with the partner's state. -/
def Run.pair (r : Run) (p psn theirs : Nat) : Run :=
  let st := r.hw.yokeSt p
  let first := match r.hw.yokeCfg with
    | some y => bit y.activeMask p
    | none => false
  match pairAct st (r.hw.is R.YOK_PEN_STATE_ROLE p) first (r.hw.pen p).yoke.standby theirs with
  | .none => r
  | .lost => r.on fun s => (s.modYoke p fun y => { y with lost := some s.clk.frame }).answerHello p st
  | .refuse => r.refusePair p
  | .again => r.pairAs p psn false
  | .pair active answer => (r.pairAs p psn active).on fun s => match answer with
    | some a => s.answerHello p a
    | none => s

/-- HELLO (R301, R309): the tag, the descriptor digest, then pairing once neither digest differs. -/
def execHello (l : LinkId) (raw : Bytes) (udpOk ce : Bool) (s : State) : Host.Outcome State Fault Refusal :=
  s.run fun r => r.yokeRx l.val 7 1 raw udpOk ce ctrlPen fun p k r =>
    let tag := match r.hw.yokeCfg with
      | some y => y.pairTag
      | none => 0
    if fld k.payload 0x28 4 ≠ tag then r.on fun s => s.set R.YOK_STATUS_TAG_MISMATCH 0 1
    else
      let bad := slice k.payload 0x18 16 != r.hw.descDigest p
      let r := r.on fun s => (s.set R.YOK_STATUS_PAIRED 0 1).modYoke p fun y => { y with descBad := bad }
      if bad then r.mismatch p
      else if r.hw.yokeSt p = 6 ∧ (r.hw.pen p).yoke.svcBad then r
      else r.pair p k.psn (fld k.payload 2 1)

/-- HEARTBEAT_RX: liveness, and the service digest (R301). -/
def execHeartbeatRx (l : LinkId) (raw : Bytes) (udpOk ce : Bool) (s : State) : Host.Outcome State Fault Refusal :=
  s.run fun r => r.yokeRx l.val 7 2 raw udpOk ce ctrlPen fun p k r =>
    let st := r.hw.yokeSt p
    let tag := match r.hw.yokeCfg with
      | some y => y.pairTag
      | none => 0
    if fld k.payload 0x28 4 ≠ tag then r.on fun s => s.set R.YOK_STATUS_TAG_MISMATCH 0 1
    else if st = 0 then r
    else
      let bad := slice k.payload 0x18 16 != r.hw.svcDigest p
      let r := r.on fun s => s.modYoke p fun y => { y with svcBad := bad }
      if bad then r.mismatch p
      else if st = 6 ∧ !(r.hw.pen p).yoke.descBad then r.pair p k.psn (fld k.payload 2 1) else r

/-- Whether a DIRECT range may be written: memory of a yoked pen outside its save area and STAGE range, or a pen stall's
scratchpad (R302). -/
def Hw.directOk (s : Hw) (a n : Nat) : Bool :=
  (s.penList.any fun p => s.yoked p && s.inPenMem p a n && (unpopFirst s.loftTib a n).isNone && !(s.hitsSave p a n) &&
    (match s.yokeCfg.bind fun y => y.stage[p]? with
      | some g => !(overlaps a n (g.start * granule) (g.count * granule))
      | none => true)) ||
  s.penList.any fun p => match s.penSpd p a with
    | some m => decide (a + n ≤ spdAddr m + spdSize)
    | none => false

/-- DIRECT: bytes written at once with their poison, or dropped and counted (R302). -/
def execDirect (l : LinkId) (raw : Bytes) (udpOk ce : Bool) (s : State) : Host.Outcome State Fault Refusal :=
  s.run fun r => r.yokeRx l.val 5 0 raw udpOk ce (·.pen) fun p k r =>
    let n := k.payload.length
    if n = 0 ∨ 4096 < n ∨ !(r.hw.directOk k.addr n) then r.on fun s => s.inc R.YOK_ERR_DENIED p
    else if spdBase ≤ k.addr then r.remoteBytes ((k.addr - spdBase) / spdSlot) k.addr k.payload (bits k.flags 1 2)
    else r.memWrite k.addr k.payload (bits k.flags 1 2)

/-- Whether a packet belongs to this synchronisation: it was sent after the packet that began it (log 30). -/
def YokeSt.fresh (y : YokeSt) (psn : Nat) : Bool := match y.syncPsn with
  | none => true
  | some q => decide ((psn + 2 ^ 32 - q % 2 ^ 32) % 2 ^ 32 < 2 ^ 31)

/-- Whether a pen receives journals. -/
def Hw.receives (s : Hw) (p : Nat) : Bool := (s.yokeSt p == 1 || s.yokeSt p == 3) && !(s.is R.YOK_PEN_STATE_ROLE p)

/-- A journal being received changed, opened by its first packet. -/
def Hw.modJournal (s : Hw) (p no : Nat) (f : RxJournal → RxJournal) : Hw :=
  s.modYoke p fun y => { y with rx := if y.rx.any (·.no == no) then y.rx.map fun j => if j.no = no then f j else j else y.rx ++ [f { no := no, parts := [], len := none }] }

/-- JOURNAL: a packet staged into its commit's journal, in the half of the STAGE range that its number picks (R302, R308). -/
def execJournal (l : LinkId) (raw : Bytes) (udpOk ce : Bool) (s : State) : Host.Outcome State Fault Refusal :=
  s.run fun r => r.yokeRx l.val 6 0 raw udpOk ce (·.pen) fun p k r =>
    let (base, half) := r.hw.stageHalf p
    if !(r.hw.receives p) || !((r.hw.pen p).yoke.fresh k.psn) || k.commit ≤ r.hw.get R.YOK_COMMIT_NO_COMMIT p then r
    else
      let r := if k.addr + k.payload.length ≤ half then r.memWrite (base + k.commit % 2 * half + k.addr) k.payload 0 else r
      r.on fun s => s.modJournal p k.commit fun j => { j with parts := j.parts ++ [(k.addr, k.payload)] }

/-- COMMIT: the journal's length and POSTED_THROUGH are known; it is acknowledged once every packet is held (R304). -/
def execCommit (l : LinkId) (raw : Bytes) (udpOk ce : Bool) (s : State) : Host.Outcome State Fault Refusal :=
  s.run fun r => r.yokeRx l.val 7 3 raw udpOk ce ctrlPen fun p k r =>
    let no := fld k.payload 4 4
    let through := fld k.payload 8 4
    if !(r.hw.receives p) || !((r.hw.pen p).yoke.fresh k.psn) || no ≤ r.hw.get R.YOK_COMMIT_NO_COMMIT p then r
    else
      r.on fun s => (s.modJournal p no fun j => { j with len := some (fld k.payload 0xC 4), psn := k.psn }).modYoke p fun y =>
        { y with posted := max y.posted through, cribs := y.cribs.filter fun c => decide (max y.posted through < c.1) }

/-- COMMIT_ACK (R305 to R307): the commit's entries are posted, its freed pages may be allocated, its time is counted; the
first one after the bulk copy makes a SYNCING pen MIRRORED. -/
def execCommitAck (l : LinkId) (raw : Bytes) (udpOk ce : Bool) (s : State) : Host.Outcome State Fault Refusal :=
  s.run fun r => r.yokeRx l.val 7 4 raw udpOk ce ctrlPen fun p k r =>
    let no := fld k.payload 4 4
    match (r.hw.pen p).yoke.flight.find? (·.no == no) with
    | none => r
    | some c =>
      let t := r.hw.clk.now - c.point
      let r := r.on fun s =>
        let s := (s.set R.YOK_COMMIT_NO_COMMIT p no).raise R.YOK_COMMIT_MAX_MAX p t
        let s := if 1500 < t then s.inc R.YOK_COMMIT_MAX_SLOW p else s
        let s := s.modPen p fun ps => { ps with kv := { ps.kv with late := ps.kv.late.filter fun i => !(c.freed.contains i),
                                                                     lateL := ps.kv.lateL.filter fun i => !(c.freedL.contains i) },
                                                yoke := { ps.yoke with flight := ps.yoke.flight.filter (·.no != no) } }
        match s.yokeSt p, (s.pen p).yoke.bulk with
        | 1, some b => if b ≤ no then s.set R.YOK_PEN_STATE_STATE p 2 else s
        | _, _ => s
      r.each c.held fun h r => match (r.hw.pen p).bound.find? fun b => b.tenant == h.1 && b.seq == h.2.1 && b.idx == h.2.2 && b.held with
        | some b => r.finish p b
        | none => r

/-! ## Fetches served (R314) -/

/-- FETCH_REQ: memory of the pen's HBM ranges returned as DIRECT packets and FETCH_DONE, or FETCH_NAK. -/
def execFetchReq (l : LinkId) (raw : Bytes) (udpOk ce : Bool) (s : State) : Host.Outcome State Fault Refusal :=
  s.run fun r => r.yokeRx l.val 7 5 raw udpOk ce ctrlPen fun p k r =>
    let a := fld k.payload 0x10 8
    let n := fld k.payload 0xC 4
    let ok := r.hw.is R.YOK_STATUS_PAIRED && decide (0 < n) && decide (n ≤ 0x1000000) && decide (a + n ≤ hbmEnd) && (match r.hw.desc p with
      | some d => d.hbm.any fun g => within a n (g.start * granule) (g.count * granule)
      | none => false)
    if !ok then r.on fun s => (s.inc R.YOK_FETCH_NAK).sendCtrl p 7 0 0 n a []
    else
      let r := r.each (List.range (cdiv n 4096)) fun i r =>
        let b := a + 4096 * i
        let len := min 4096 (n - 4096 * i)
        let (bs, m, r) := r.memRead .device b len
        r.on fun s =>
          if m = 0 then s.sendDirect p b bs fun _ => 0
          else s.each (linesOf b len) fun ln s =>
            let lo := max b (ln * 64)
            s.sendDirect p lo (slice bs (lo - b) (min (ln * 64 + 64) (b + len) - lo)) (r.lineMark .device)
      r.on fun s => (s.inc R.YOK_FETCH_SERVED).sendCtrl p 6 0 0 n a []

/-! ## Takeover, solo and demotion (R310 to R313) -/

/-- Whether a partner is silent, or reported UNPAIRED before the frame start just past (R311). -/
def Hw.partnerLost (s : Hw) (p : Nat) : Bool := s.get R.YOK_PEN_STATE_MISSED p == 3 || (match (s.pen p).yoke.lost with
  | some f => decide (f < s.clk.frame)
  | none => false)

/-- What every entry into TAKEOVER or SOLO does (R311). -/
def Hw.yokeMove (s : Hw) (p st : Nat) (e : Err) : Hw :=
  ((((s.set R.YOK_PEN_STATE_STATE p st).set R.YOK_PEN_STATE_ROLE p 1).inc R.YOK_COUNTS_TAKEOVERS p).log e { kind := 4, pen := p }).msi 0 6

/-- The references of the failed partner's prefix entries dropped, and every cached hash cleared (R313). -/
def Hw.dropPartnerPrefixes (s : Hw) (p : Nat) : Hw :=
  let refs := (decTbl (decTbl (decTbl (s.pen p).yoke.dir).2).2).1
  let s := s.each refs fun kv s => s.each (List.range kv.2) fun _ s => s.unrefPage p kv.1
  (s.modPen p fun ps => { ps with ctxs := ps.ctxs.map fun kv => (kv.1, { kv.2 with hash := [], hashBlk := 2 ^ 32 }) }).kvCounts p

/-- A CRIB item of a commit not known to be posted: its result bytes go to OUT_ADDR from this module's copy of the record, its
entry is posted as TAKEOVER_REPLAY (Table 11.5). Its tenant is its context's owner. -/
def Run.replayItem (r : Run) (p : Nat) (j : JItem) : Run :=
  let b := j.bytes
  let x := fld b 8 2
  let tid := ((r.hw.pen p).ctx x).owner
  match r.hw.tenant tid with
  | none => r
  | some t =>
    let seq := fld b 0 4
    let rec' := r.record t seq
    let e := slice rec' (64 + 64 * fld b 5 1) 64
    let k := min (fld b 0x1C 4) (b.length - 32)
    let out := fld e 0x20 8
    let ok := r.recValid t seq rec' && k != 0
    let r := if !ok then r
      else if r.hw.dmaOk t.function out k true then r.writeHost out (slice b 32 k) else r.on fun s => s.dmaReject t.function out true
    let ent : CribEnt :=
      { tenant := tid, seq := seq, status := cribCode [fld b 4 1, Crib.TAKEOVER_REPLAY], idx := fld b 5 1, flags := fld b 6 1 / 2 * 2 ||| 8,
        reason := 0, ctx := x, pen := p, slot := fld b 0xB 1, token := fld b 0xC 4, frame := fld b 0x10 4, pos := fld b 0x14 4,
        pfx := fld b 0x18 2, state := fld b 0x1A 2, outB := fld b 0x1C 4 }
    (r.reserve tid).postEntry ent

/-- The records kept of a pen are to be replayed. -/
def Hw.keepForReplay (s : Hw) (p : Nat) : Hw :=
  { s with dev.wins := s.dev.wins.map fun kv : Nat × Win =>
      (kv.1, { kv.2 with pend := kv.2.pend.map fun x : PendRec => if x.pen = p then { x with replay := true } else x }) }

/-- YOKE_TAKEOVER (R311, R312; Table 11.5): a SHADOW pen takes over at this frame, F_t. -/
def execYokeTakeover (p : PenId) (s : State) : Host.Outcome State Fault Refusal :=
  s.run fun r =>
    let q := p.val
    if r.hw.yokeSt q ≠ 3 ∨ !(r.hw.partnerLost q) then r
    else
      let y := (r.hw.pen q).yoke
      let r := r.on fun s =>
        let s := (s.yokeMove q 4 E.YOKE_TAKEOVER).cancelLoad q
        let s := (s.set R.FSQ_STATE_SUSPENDED q 1).set R.FSQ_STATE_SUSP_TAKEOVER q 1
        let s := s.modYoke q fun y => { y with standby := false, lost := none, takeF := some s.clk.frame }
        let s := s.dropPartnerPrefixes q
        let s := s.each y.mir fun kv s => s.modTen kv.1 fun t => { t with bucket := kv.2.bucket }
        s.keepForReplay q
      let r := r.each (y.cribs.filter fun c => decide (y.posted < c.1)) fun c r => r.replayItem q c.2
      r.on fun s => (s.modYoke q fun y => { y with cribs := [] }).showHeld q

/-- YOKE_SOLO (R311): a MIRRORED pen whose partner is lost goes on alone and posts its held entries; it looks for its partner
(log 30). -/
def execYokeSolo (p : PenId) (s : State) : Host.Outcome State Fault Refusal :=
  s.run fun r =>
    if r.hw.yokeSt p.val ≠ 2 ∨ !(r.hw.partnerLost p.val) then r
    else (r.on fun s => ((s.newSync p.val).yokeMove p.val 5 E.YOKE_SOLO).sendHello p.val).postHeld p.val

/-- The end of a replay: once no kept record is unanswered the pen is SOLO (Table 11.5). -/
def Hw.replayEnd (s : Hw) (p : Nat) : Hw :=
  let s := s.showHeld p
  match s.yokeSt p, (s.pen p).yoke.takeF with
  | 4, some f =>
    if f < s.clk.frame ∧ s.get R.YOK_REPLAY_PENDING p = 0 then
      (((s.modYoke p fun y => { y with takeF := none }).yokeMove p 5 E.YOKE_SOLO).set R.FSQ_STATE_SUSP_TAKEOVER p 0).sendHello p
    else s
  | _, _ => s

/-- A yoked pen at its module's frame start: the heartbeat, MISSED of the frame just ended (R311), and the HELLO that tells the partner
of a failed mirror (R308, log 30). -/
def Hw.yokeFrame (s : Hw) (p : Nat) : Hw :=
  if !(s.yoked p) then s
  else
    let st := s.yokeSt p
    let s := if st = 2 ∨ st = 3 then
        s.set R.YOK_PEN_STATE_MISSED p (if (s.pen p).yoke.got then 0 else min 3 (s.get R.YOK_PEN_STATE_MISSED p + 1))
      else s
    let tell := (s.pen p).yoke.again
    let s := (s.modYoke p fun y => { y with got := false, again := false }).sendHeartbeat p
    if tell && st == 1 then s.answerHello p 1 else s

/-- A bit of YOK_CTRL.DEMOTE written 1 (R310); hardware clears it. The pen's drain begins as for a function disable. -/
def Run.demote (r : Run) (q : Nat) : Run :=
  let r := r.on fun s => s.set R.YOK_CTRL_DEMOTE 0 (setBits (s.get R.YOK_CTRL_DEMOTE) q 1 0)
  if !(r.hw.yoked q) || (r.hw.pen q).yoke.demote.isSome then r
  else
    let r := r.on fun s =>
      let s := s.modYoke q fun y => { y with demote := some s.clk.now }
      let s := s.each ((s.penTenants q).map (·.function)).eraseDups fun f s => s.set R.ERR_FN_STATUS_DISABLING f 1
      s.log E.FUNCTION_FENCE { kind := 4, pen := q }
    let r := r.discardQueued fun c => c.pen == q && c.pos.isSome
    if (r.hw.penTenants q).isEmpty then r.endDemote q else r

/-- DEMOTE. -/
def execDemote (p : PenId) (s : State) : Host.Outcome State Fault Refusal := s.byHost fun r => r.demote p.val

end Sys2Proof.Machine
end

