-- ==== Sys2Proof/Machine/Wait.lean ====
section
/-! DEFINITION. The end of a detached wait (R191, R244): what a detached command still does when nothing holds it up any
more, and its completion. -/

namespace Sys2Proof.Machine

/-- Whether every sequence of a bound sequence's record has had its CRIB_EMIT. -/
def PenSt.stepEmitted (ps : PenSt) (b : Bound) : Bool := ps.bound.all fun c => !(c.tenant == b.tenant && c.seq == b.seq) || c.emitted

/-- The entry of a bind position whose CRIB_EMIT completes; the last one of a U0 step is a commit point (R304). -/
def Run.emitDone (r : Run) (p f q : Nat) : Run :=
  match r.hw.boundAt p f q with
  | none => r
  | some b =>
    if !b.emitted || b.held then r
    else
      let last := b.cls == 0 && (r.hw.pen p).stepEmitted b
      let r := r.deliver p b
      if last then r.commitPoint p else r

/-- What a detached command does when its wait ends: the copy of bytes that came from the host, the reads and writes of
slots, the entry of a CRIB_EMIT. -/
def Run.endWait (r : Run) (n : Nat) (x : Detached) : Run :=
  let c := x.cx n
  let r' := r.on fun s => s.each x.reads fun y s => s.readDone y.1 x.plan y.2
  if x.op = 0x12 then
    let f := DmaMove.of x.cmd
    (if f.src.kind = 3 then r.moveLand f c x.poison x.copies else r).moveDone f c x.reads
  else if x.op = 0x13 then r'.emitDone x.pen x.frame x.key
  else if x.op = 0x14 then r'
  else if x.op = 0x15 then r.on fun s => s.writeDone n x.plan (fld x.cmd 8 2)
  else r

/-- Whether the DMA port still runs the local part of a detached command. -/
def Hw.localPart (s : Hw) (n : Nat) (x : Detached) : Bool := match (s.eng (n * 16 + 6)).run with
  | some q => q.pen == x.pen && q.frame == x.frame && q.task == x.task && q.cmd == x.cmd
  | none => false

/-- DETACHED_WAIT_END: the command in a detached slot, whose wait needs nothing more, completes (R191); while its local part
still runs, its command boundary follows. Its context wakes (Table 3.6). -/
def execDetachedWaitEnd (n : StallId) (d : Fin 8) (s : State) : Host.Outcome State Fault Refusal :=
  s.run fun r => match Tbl.find? d.val (r.hw.stl n.val).det with
    | none => r
    | some x =>
      if x.waits ≠ 0 ∨ !(r.hw.penLive x.pen) then r
      else
        let r := r.endWait n.val x
        let r := r.on fun s => s.modStl n.val fun t => { t with det := Tbl.erase d.val t.det }
        let q : QCmd := ⟨x.pen, x.frame, x.task, 0, x.pos, x.u0, x.cmd⟩
        let r := if r.hw.penRun x.pen && !(r.hw.localPart n.val x) then r.cmdDone q else r
        let r := (r.wakeCtx x.pen x.frame x.pos).on fun s => (s.park x.pen x.frame x.pos).showResident x.pen
        r.on fun s => s.replayEnd x.pen

end Sys2Proof.Machine
end

