-- ==== Sys2Proof/Machine/Plans.lean ====
section
/-! DEFINITION. Frame plans (Section 3.1 of 03_frames.md): installation with the checks of Table 3.4, and the rota of Section 4
up to its application; what a frame start does with both. -/

namespace Sys2Proof.Machine

/-! ## Which plans may follow each other (R57, R63) -/

/-- The lap length in force, in µs. -/
def Hw.lap (s : Hw) : Nat := s.get R.TRS_TIMING_LAP_US

/-- The ceiling of CLASS_U0 in the ADMISSION entry of a pen and slot. -/
def Hw.u0Bound (s : Hw) (p slot : Nat) : Nat := match s.adm p slot with
  | some a => a.u0.bound
  | none => 0

/-- Whether plan `b` may run in the frame after plan `a` of slot `sa`. -/
def Hw.mayFollow (s : Hw) (p sa : Nat) (a b : Plan) : Bool :=
  (s.lap == 0 || a.tailMask &&& b.headMask == 0) && (!(bit a.flags 0) || decide (s.u0Bound p sa ≤ b.u0Reserve))

/-- The cyclically consecutive pairs of a rota. -/
def rotaPairs (rota : List Nat) : List (Nat × Nat) := rota.zip (rota.drop 1 ++ rota.take 1)

/-- The plan of a slot, `slot` standing for `pl`. -/
def PenSt.planAs (ps : PenSt) (slot : Nat) (pl : Plan) (x : Nat) : Option Plan := if x = slot then some pl else Tbl.find? x ps.plans

/-- Whether a new plan of a slot breaks R57 or R63 against a neighbouring entry of the rota in force (Table 3.4, order 8). -/
def Hw.rotaBreaks (s : Hw) (p slot : Nat) (pl : Plan) : Bool :=
  let ps := s.pen p
  (rotaPairs ps.rota).any fun x => (x.1 == slot || x.2 == slot) &&
    match ps.planAs slot pl x.1, ps.planAs slot pl x.2 with
    | some a, some b => !(s.mayFollow p x.1 a b)
    | _, _ => false

/-! ## Installation (R59, Table 3.4) -/

/-- The extents of a pen that hold a plan: installed, replaced but still in use, or being installed. -/
def PenSt.planExtents (ps : PenSt) : List (Nat × Nat) :=
  ps.plans.map (fun kv : Nat × Plan => (kv.2.addr, kv.2.len)) ++ ps.old.map (fun o : OldPlan => (o.addr, o.len)) ++
    ps.inst.toList.map fun i => (i.dst, i.len)

/-- Check 2, PLACEMENT. -/
def Hw.placed (s : Hw) (p dst len : Nat) : Bool := match s.desc p with
  | none => false
  | some d =>
    decide (128 ≤ len) && decide (len ≤ 0x4000000) && dst % 4096 == 0 &&
    (d.hbm.any fun g => within dst len (g.start * granule) (g.count * granule)) && !(s.hitsSave p dst len) &&
    !((s.pen p).planExtents.any fun x => overlaps dst len x.1 x.2)

/-- FSQ_PLAN_STATUS.READY_MASK and STALE_MASK of a pen (R39, R60). -/
def Hw.showPlans (s : Hw) (p : Nat) : Hw :=
  let ready := (List.range 8).foldl (fun m i => if s.selectable p i then m + 2 ^ i else m) 0
  let stale := (s.pen p).plans.foldl (fun m kv => if kv.2.stale then m + 2 ^ kv.1 else m) 0
  (s.set R.FSQ_PLAN_STATUS_READY_MASK p ready).set R.FSQ_PLAN_STATUS_STALE_MASK p stale

/-- An FSQ_PLAN_CMD write with START = 1: checks 1 and 2, then FETCH. -/
def Hw.planStart (s : Hw) (p : Nat) : Hw :=
  let s := s.set R.FSQ_PLAN_CMD_START p 0
  let dst := s.get R.FSQ_PLAN_DST_DST p
  let len := s.get R.FSQ_PLAN_LEN_LEN p
  if !(s.present p) then s
  else if s.get R.FSQ_PLAN_STATUS_STATE p ≠ 0 ∨ s.is R.PEN_STATE_LOAD_PENDING p then s.set R.FSQ_PLAN_STATUS_BUSY_REFUSED p 1
  else if !(s.placed p dst len) then ((s.set R.FSQ_PLAN_STATUS_FAIL p 1).set R.FSQ_PLAN_STATUS_ERR_CODE p 0x06).msi 0 (16 + p)
  else
    (s.modPen p fun ps => { ps with inst := some ⟨s.get R.FSQ_PLAN_CMD_SLOT p, s.get R.FSQ_PLAN_SRC_SRC p, dst, len, false, [], none, 0⟩ }).set
      R.FSQ_PLAN_STATUS_STATE p 1

/-- PLAN_START: the write names its slot. -/
def execPlanStart (p : PenId) (slot : Fin 8) (s : State) : Host.Outcome State Fault Refusal :=
  s.byHostHw fun h => if h.present p.val then (h.set R.FSQ_PLAN_CMD_SLOT p.val slot.val).planStart p.val else h

/-- An FSQ_PLAN_CMD write with ABORT = 1: an installation before staging is cancelled. -/
def Hw.planAbort (s : Hw) (p : Nat) : Hw :=
  let s := s.set R.FSQ_PLAN_CMD_ABORT p 0
  if s.get R.FSQ_PLAN_STATUS_STATE p = 4 then s else s.instFail p 0x08

/-- PLAN_ABORT. -/
def execPlanAbort (p : PenId) (s : State) : Host.Outcome State Fault Refusal := s.byHostHw fun h => if h.present p.val then h.planAbort p.val else h

/-- The installation of a pen changed. -/
def Hw.modInst (s : Hw) (p : Nat) (f : Inst → Inst) : Hw := s.modPen p fun ps => { ps with inst := ps.inst.map f }

/-- PLAN_FETCH_DONE: the copy into the pen's HBM ends; a copy that could not be made fails check 3 later. -/
def execPlanFetchDone (p : PenId) (res : Completion) (s : State) : Host.Outcome State Fault Refusal :=
  s.run fun r => match (r.hw.pen p.val).inst with
    | none => r
    | some i =>
      if r.hw.get R.FSQ_PLAN_STATUS_STATE p.val ≠ 1 then r
      else
        let inWin := r.hw.dmaOk 0 i.src i.len false
        let ok := i.src % 8 == 0 && inWin && res == .ok
        let r := r.on fun s =>
          let s := if inWin then s.cplErr res else s.dmaReject 0 i.src false
          (s.modInst p.val fun i => { i with bad := !ok }).set R.FSQ_PLAN_STATUS_STATE p.val 2
        if ok then r.memWrite i.dst (r.readHost i.src i.len) 0 else r

/-- PLAN_DIGEST_DONE: the 64-byte SHAKE256 digest of the copied plan (R58). -/
def execPlanDigestDone (p : PenId) (s : State) : Host.Outcome State Fault Refusal :=
  s.run fun r => match (r.hw.pen p.val).inst with
    | none => r
    | some i =>
      if r.hw.get R.FSQ_PLAN_STATUS_STATE p.val ≠ 2 then r
      else
        let (bs, _, r) := r.memRead (.pen p.val) i.dst i.len
        r.on fun s => (s.modInst p.val fun i => { i with digest := (shake256 bs 64).take 64 }).set R.FSQ_PLAN_STATUS_STATE p.val 3

/-- The entries of a plan's buffer-slot table: relative stall, slot, READS (R180). -/
def Run.slotTable (r : Run) (base n : Nat) : List (Nat × Nat × Nat) :=
  (List.range n).map fun i => (r.readNat (base + 4 * i + 2) 1, r.readNat (base + 4 * i) 2, r.readNat (base + 4 * i + 3) 1)

/-- Whether the table breaks R180 for a pen of `k` stalls. -/
def slotTableBad (k : Nat) : List (Nat × Nat × Nat) → Bool
  | [] => false
  | x :: xs => decide (k ≤ x.1) || decide (4096 ≤ x.2.1) || (xs.any fun y => y.1 == x.1 && y.2.1 == x.2.1) || slotTableBad k xs

/-- Whether a header's fields break check 4, FORMAT. -/
def planFormatBad (h : Bytes) : Bool :=
  let len := fld h 8 4
  fld h 0 4 != 0x4E4C504B || fld h 6 2 != 0x80 || ([0x48, 0x4C, 0x50, 0x54, 0x58].any fun o => decide (len ≤ fld h o 4)) || decide (8 ≤ fld h 0x5C 4) ||
  !(zeroAt h 0x60 32)

/-- Whether a header's fields break check 7, SHAPE. -/
def Hw.planShapeBad (s : Hw) (p : Nat) (h : Bytes) : Bool :=
  fld h 0xC 2 != (s.penStalls p).length || fld h 0xE 2 != s.tFrame || decide (s.tFrame * 1300 < fld h 0x1C 4) || decide (s.lap * 1300 < fld h 0x20 4) ||
  decide (52000 < fld h 0x24 4) || decide (0x100000 < fld h 0x28 4) || (s.yoked p && !(bit (fld h 0x5C 4) 1))

/-- The plan that a header and a task graph describe. -/
def planOf (i : Inst) (h : Bytes) (tasks : List Task) (reads : List (Nat × Nat × Nat)) : Plan :=
  { addr := i.dst, len := i.len, digest := i.digest, abi := fld h 4 2, headMask := fld h 0x38 8, tailMask := fld h 0x40 8, u0Reserve := fld h 0x2C 4,
    recompute := fld h 0x30 4, flags := fld h 0x5C 4, regionOff := fld h 0x50 4, reads := reads, tasks := tasks }

/-- The first of checks 3 to 8 that fails, by its code. -/
def Run.planCheck (r : Run) (p : Nat) (i : Inst) (h : Bytes) (reads : List (Nat × Nat × Nat)) (tasks : List Task) : Option Nat :=
  if i.bad || fld h 8 4 != i.len then some 0x01
  else if planFormatBad h || slotTableBad (r.hw.penStalls p).length reads then some 0x02
  else if some (fld h 4 2) != (r.hw.desc p).map (·.planAbi) then some 0x04
  else if (r.hw.adm p i.slot).map (·.digest) != some (i.digest.take 16) then some 0x03
  else if r.hw.planShapeBad p h then some 0x05
  else if r.hw.rotaBreaks p i.slot (planOf i h tasks reads) then some 0x09
  else none

/-- PLAN_CHECK_DONE: checks 3 to 8 end; a plan that passes is STAGED. `tasks` is the task graph that the plan's bytes hold (log 10): it
has TASK_COUNT tasks. -/
def execPlanCheckDone (p : PenId) (tasks : List Task) (s : State) : Host.Outcome State Fault Refusal :=
  s.run fun r => match (r.hw.pen p.val).inst with
    | none => r
    | some i =>
      if r.hw.get R.FSQ_PLAN_STATUS_STATE p.val ≠ 3 then r
      else
        let h := r.read i.dst 128
        let reads := r.slotTable (i.dst + fld h 0x4C 4) (fld h 0x14 4)
        match r.planCheck p.val i h reads tasks with
        | some code => r.on fun s => s.instFail p.val code
        | none =>
          if tasks.length ≠ fld h 0x10 4 then r
          else r.on fun s => (s.modInst p.val fun i => { i with plan := some (planOf i h tasks reads), staged := s.clk.now }).set
            R.FSQ_PLAN_STATUS_STATE p.val 4

/-! ## The rota (R62) -/

/-- The entries that FSQ_ROTA_LO and FSQ_ROTA_HI hold. -/
def Hw.rotaRegs (s : Hw) (p n : Nat) : List Nat :=
  (List.range n).map fun i => if i < 8 then bits (s.get R.FSQ_ROTA_LO_ENTRY0_7 p) (4 * i) 3 else bits (s.get R.FSQ_ROTA_HI_ENTRY8_15 p) (4 * (i - 8)) 3

/-- An FSQ_ROTA_CTRL write with APPLY = 1: the rota is captured for the next frame start. -/
def Hw.rotaApply (s : Hw) (p : Nat) : Hw :=
  if !(s.present p) then s
  else (s.set R.FSQ_ROTA_CTRL_APPLY p 1).modPen p fun ps => { ps with pendRota := some (s.rotaRegs p (s.get R.FSQ_ROTA_CTRL_LEN_M1 p + 1)) }

/-- ROTA_APPLY: the write names the rota's length less 1. -/
def execRotaApply (p : PenId) (lenM1 : Fin 16) (s : State) : Host.Outcome State Fault Refusal :=
  s.byHostHw fun h => if h.present p.val then (h.set R.FSQ_ROTA_CTRL_LEN_M1 p.val lenM1.val).rotaApply p.val else h

/-! ## At a frame start (R59, R62 to R64) -/

/-- The plan of the newest frame of a pen, with its slot. -/
def Hw.currentPlan (s : Hw) (p : Nat) : Option (Nat × Plan) :=
  if s.is R.FSQ_STATE_IDLE_FRAME p then none
  else (Tbl.find? (s.get R.FSQ_STATE_SLOT_SEL p) (s.pen p).plans).map fun pl => (s.get R.FSQ_STATE_SLOT_SEL p, pl)

/-- The READS tables of a plan written into the pen's stalls, or dropped (R180). -/
def Hw.loadReads (s : Hw) (p : Nat) (pl : Plan) (on : Bool) : Hw :=
  let ns := s.penStalls p
  s.each ns fun n s => s.modStl n fun t =>
    let t := { t with reads := dropRange (pl.key * 4096) 4096 t.reads }
    if on then pl.reads.foldl (fun t x => if ns[x.1]? = some n then { t with reads := Tbl.set 1 (pl.key * 4096 + x.2.1) x.2.2 t.reads } else t) t else t

/-- A staged plan takes effect at a frame start at least 10 µs after it was staged; the plan it replaces stays installed until
the tail of the last frame that uses it. A light commit in between does not judge it again (DESIGN CHOICE, log 64: R60 speaks of
installed plans). -/
def Hw.planEffect (s : Hw) (p : Nat) : Hw := match (s.pen p).inst with
  | none => s
  | some i => match i.plan with
    | none => s
    | some pl =>
      if s.clk.now < i.staged + 1000 then s
      else
        let ps := s.pen p
        let prev := Tbl.find? i.slot ps.plans
        let pl := { pl with key := match prev with
          | some o => o.key + 8
          | none => i.slot + 8 * ((ps.old.map (fun o : OldPlan => o.key / 8 + 1)).foldl max 0) }
        let last := fun (o : Plan) => ((ps.frames.filter fun x => x.key == o.key && !x.tailDone).map (·.frame)).foldl max 0
        let used := fun (o : Plan) => ps.frames.any fun x => x.key == o.key && !x.tailDone
        let s := s.modPen p fun ps => { ps with inst := none, plans := Tbl.insert i.slot pl ps.plans, old := match prev with
          | some o => if used o then ps.old ++ [⟨o.addr, o.len, last o, o.key⟩] else ps.old
          | none => ps.old }
        (((s.loadReads p pl true).set R.FSQ_PLAN_STATUS_STATE p 0).set R.FSQ_PLAN_STATUS_DONE p 1 |>.set R.FSQ_PLAN_STATUS_ERR_CODE p 0).msi 0 (16 + p)

/-- Whether a rota may take effect after frame F_a − 1, whose plan is `cur` (R63). -/
def Hw.rotaOk (s : Hw) (p : Nat) (cur : Option (Nat × Plan)) (rota : List Nat) : Bool :=
  let plan := fun x => Tbl.find? x (s.pen p).plans
  (rota.all fun x => s.selectable p x) &&
  ((rotaPairs rota).all fun x => match plan x.1, plan x.2 with
    | some a, some b => s.mayFollow p x.1 a b
    | _, _ => false) &&
  match cur, plan (rota.headD 0) with
  | some (sa, a), some b => s.mayFollow p sa a b
  | _, _ => true

/-- A pending rota takes effect at this frame start, F_a, or is rejected. -/
def Hw.rotaEffect (s : Hw) (p : Nat) (cur : Option (Nat × Plan)) : Hw := match (s.pen p).pendRota with
  | none => s
  | some rota =>
    let s := (s.modPen p fun ps => { ps with pendRota := none }).set R.FSQ_ROTA_CTRL_APPLY p 0
    if s.rotaOk p cur rota then (s.modPen p fun ps => { ps with rota := rota }).set R.FSQ_ROTA_FRAME_F_A p s.clk.frame
    else s.set R.FSQ_ROTA_CTRL_REJECT p 1

/-- The slot of frame `f` (R62). -/
def Hw.rotaSlot (s : Hw) (p f : Nat) : Nat :=
  let rota := (s.pen p).rota
  (rota[(f - s.get R.FSQ_ROTA_FRAME_F_A p) % max 1 rota.length]?).getD 0

/-- Every plan of a pen uninstalled and its rota at length 1 with slot 0 (R60). -/
def Hw.uninstall (s : Hw) (p : Nat) : Hw :=
  let s := s.each (s.pen p).plans fun kv s => s.loadReads p kv.2 false
  ((s.modPen p fun ps => { ps with plans := [], old := [], rota := [0], pendRota := none }).set R.FSQ_ROTA_CTRL_APPLY p 0 |>.set R.FSQ_ROTA_FRAME_F_A p
    s.clk.frame).showPlans p

/-- Plans judged again after a light commit: one without a matching entry is STALE (R60). -/
def Hw.restale (s : Hw) (p : Nat) : Hw :=
  (s.modPen p fun ps => { ps with plans := ps.plans.map fun kv : Nat × Plan =>
    (kv.1, { kv.2 with stale := (s.adm p kv.1).map (·.digest) != some (kv.2.digest.take 16) }) }).showPlans p

end Sys2Proof.Machine
end

