-- ==== Sys2Proof/Machine/Image.lean ====
section
/-! DEFINITION. Truss images (02_truss_image.md): the container, its sections, what would be in force after the image commits, and
the loader's checks of Table 2.9 in their order. -/

namespace Sys2Proof.Machine

/-! ## The container (R28, Tables 2.1 and 2.2) -/

/-- A directory entry with its index. -/
structure Sec where
  idx  : Nat
  typ  : Nat
  crit : Bool
  off  : Nat
  len  : Nat
  crc  : Nat
deriving DecidableEq, Repr

/-- The directory of a container. -/
def secsOf (b : Bytes) : List Sec :=
  (List.range (min 64 (fld b 0xE 2))).map fun i =>
    let e := 0x100 + 16 * i
    ⟨i, fld b e 2, bit (fld b (e + 2) 2) 0, fld b (e + 4) 4, fld b (e + 8) 4, fld b (e + 12) 4⟩

/-- The body of a section. -/
def Sec.body (b : Bytes) (x : Sec) : Bytes := slice b x.off x.len

/-- The sections of a type. -/
def ofType (b : Bytes) (t : Nat) : List Sec := (secsOf b).filter (·.typ == t)

/-- Entry `i` of `n` bytes in a section's body. -/
def Sec.entries (b : Bytes) (n : Nat) (x : Sec) : List Bytes := (List.range (x.len / n)).map fun i => slice b (x.off + n * i) n

/-- The entries of the one section of a type; none where it is absent. -/
def entriesOf (b : Bytes) (t n : Nat) : List Bytes := match ofType b t with
  | [] => []
  | x :: _ => x.entries b n

/-- Why an image is rejected: the code of Table 2.9, the section at fault and the byte offset of the failing field, where one
field of one section is at fault. -/
structure Bad where
  code : Nat
  sec  : Option Nat := none
  off  : Option Nat := none
deriving DecidableEq, Repr

/-- The first condition that holds, with the offset of its field from `base`. Where several fields or sections fail one check of Table 2.9,
R43 does not say which is reported: the first in the order of these lists is (DESIGN CHOICE, log 64). -/
def firstBad (code : Nat) (sec base : Nat) (cs : List (Bool × Nat)) : Option Bad :=
  (cs.find? (·.1)).map fun c => ⟨code, some sec, some (base + c.2)⟩

/-- A condition that no one section or field fails: what is reported of them is open. -/
def badIf (code : Nat) (c : Bool) : Option Bad := if c then some { code := code } else none

/-! ## Header checks (Table 2.9, orders 2 to 5) -/

/-- Check 2, FORMAT, for an image whose register length is `len`. -/
def checkFormat (b : Bytes) (len : Nat) : Option Bad :=
  let n := fld b 0xE 2
  let scope := fld b 0xC 1
  let dirEnd := 0x100 + 16 * n
  let secs := secsOf b
  (firstBad 0x02 0xFF 0 [(fld b 0 4 != 0x5352544B, 0), (fld b 4 2 != 1, 4), (fld b 6 2 != 0x100, 6), (fld b 8 4 != len, 8),
    (!(zeroAt b 0x26 2), 0x26), (!(zeroAt b 0x38 200), 0x38), (decide (1 < scope), 0xC),
    (if scope = 0 then fld b 0xD 1 != 0xFF else decide (15 < fld b 0xD 1), 0xD), (scope == 0 && fld b 0x18 8 != 0, 0x18),
    (decide (n = 0) || decide (64 < n), 0xE)]).or
  (secs.findSome? fun x => firstBad 0x02 x.idx (0x100 + 16 * x.idx)
    [(decide (len - 114 < dirEnd) || decide (len - 114 < x.off + x.len), 4),
     (secs.any fun y => y.idx != x.idx && overlaps x.off x.len y.off y.len, 4), (x.off % 8 != 0, 4), (decide (x.off < dirEnd), 4),
     (crc32c (x.body b) != x.crc, 12)])

/-- The prehash of R29. -/
def imageDigest (b : Bytes) : Bytes := (shake256 (b.take (b.length - 114)) 64).take 64

/-- Check 3, SIG_FAIL, with the key store as it stood when VERIFY began. -/
def checkSig (keys : Tbl Bytes) (b : Bytes) : Option Bad :=
  let k := Tbl.get [] (fld b 0x34 4) keys
  if k = [] then some ⟨0x01, some 0xFF, some 0x34⟩
  else if Config.ed448Verify true k (imageDigest b) (b.drop (b.length - 114)) then none
  else some { code := 0x01 }

/-- Check 4, COMPAT. In limited service and in recovery every load fails it (R373). -/
def Hw.checkCompat (s : Hw) (b : Bytes) : Option Bad :=
  let abi := fld b 0x24 2
  let step := s.get R.HIF_MODULE_ID_STEPPING
  if s.get R.SEC_BOOT_STATUS_STATE ≠ 0 then some { code := 0x03 }
  else firstBad 0x03 0xFF 0 [(fld b 0x20 1 != 0x40, 0x20), (!(bit (fld b 0x21 1) (s.get R.HIF_MODULE_ID_VARIANT - 1)), 0x21),
    (decide (step < fld b 0x22 1), 0x22), (decide (fld b 0x23 1 < step), 0x23),
    (decide (s.get R.SEC_IMG_VER_VERSION 1 < fld b 0x28 4), 0x28), (decide (s.get R.SEC_IMG_VER_VERSION 3 < fld b 0x2C 4), 0x2C),
    (decide (s.get R.SEC_IMG_VER_VERSION 2 < fld b 0x30 4), 0x30),
    (decide (abi < s.get R.FSQ_CAPS2_PLAN_ABI_MIN) || decide (s.get R.FSQ_CAPS_PLAN_ABI_MAX < abi), 0x24)]

/-- Check 5, SERIAL. -/
def Hw.checkSerial (s : Hw) (b : Bytes) : Option Bad :=
  firstBad 0x04 0xFF 0 [(decide (fld b 0x10 8 ≤ s.get R.TRS_SERIAL_SERIAL), 0x10),
    (fld b 0xC 1 == 1 && fld b 0x18 8 != s.get R.TRS_BASE_SERIAL_BASE, 0x18)]

/-! ## Section bodies (Tables 2.4 to 2.8, 10.4, 11.1, R286) -/

/-- `n` ranges of START and COUNT. -/
def gransOf (b : Bytes) (o n : Nat) : List Gran := (List.range n).map fun i => ⟨fld b (o + 8 * i) 4, fld b (o + 8 * i + 4) 4⟩

/-- A PEN section. -/
def PenDesc.of (abi : Nat) (b : Bytes) : PenDesc :=
  { kvPolicy := fld b 1 1, planMask := fld b 2 1, saveRange := fld b 5 1, ctxMax := fld b 6 2, quads := fld b 8 8, portMask := fld b 0x10 4,
    hubShare := fld b 0x18 8, hbm := gransOf b 0x20 (min 8 (fld b 3 1)), loft := gransOf b 0x60 (min 4 (fld b 4 1)), planAbi := abi, raw := b }

/-- A PORT entry. -/
def PortDef.of (b : Bytes) : PortDef := ⟨fld b 0 1, fld b 1 1, fld b 4 4⟩

/-- The ceilings of a class. -/
def ClassLim.of (b : Bytes) : ClassLim := ⟨fld b 0 2, fld b 2 2, fld b 4 4, fld b 8 4⟩

/-- An ADMISSION entry. -/
def AdmEntry.of (b : Bytes) : AdmEntry :=
  ⟨fld b 0 1, fld b 1 1, slice b 8 16, ClassLim.of (slice b 0x18 12), ClassLim.of (slice b 0x24 12), ClassLim.of (slice b 0x30 12)⟩

/-- A TENANT entry. -/
def Tenant.of (b : Bytes) : Tenant :=
  { id := fld b 0 1, enabled := bit (fld b 1 1) 0, pauseMode := bits (fld b 1 1) 1 1, share := fld b 2 1, function := fld b 3 1, penMask := fld b 4 2,
    classMask := fld b 6 1, cap := fld b 8 4, refill := fld b 0xC 4, ttl := fld b 0x10 4, base := fld b 0x14 2, size := fld b 0x16 2, raw := b }

/-- A YOKE section. -/
def YokeCfg.of (b : Bytes) : YokeCfg := ⟨fld b 0 2, fld b 2 1, bit (fld b 3 1) 0, fld b 4 2, fld b 6 2, fld b 8 4, gransOf b 0x10 16⟩

/-- The EGRESS entries that are valid, and how many are not (R276). -/
def egressOf (ports : List PortDef) (es : List Bytes) : List Egress × Nat :=
  es.foldl (fun a e =>
    let d := fld e 0 2
    let k := fld e 2 1
    let bad := decide (4095 < d) || decide (17 < k) || decide (fld e 3 1 = 0) || decide (64 < fld e 3 1) || !(zeroAt e 0xA 6) ||
      !(ports.any fun p => p.id == k && p.mode == 1) || a.1.any fun x => x.dev == d && fld x.data 2 1 == k
    if bad then (a.1, a.2 + 1) else (a.1 ++ [⟨d, e⟩], a.2)) ([], 0)

/-- The ROUTE entries by destination (R286). -/
def routeWords (b : Bytes) : List (Nat × Nat) := match ofType b 4 with
  | [] => []
  | x :: _ => (List.range 4096).map fun i => (i, fld b (x.off + 2 * i) 2)

/-! ## What would be in force after the commit (R417) -/

/-- The EGRESS entries of an image. -/
def egressEntries (b : Bytes) : List Bytes := match ofType b 7 with
  | [] => []
  | x :: _ => (List.range (fld b (x.off + 0x16) 2)).map fun i => slice b (x.off + 32 + 32 * i) 32

/-- A whole-device image. R33 gives a pen 4 to 192 stalls, but no check of Table 2.9 names a PEN section whose STALL_QUADS is 0 in such
an image: it is taken as a present pen without stalls (DESIGN CHOICE, log 64). -/
def wholeTruss (b : Bytes) : Truss :=
  let dev := ((ofType b 1).head?.map (Sec.body b)).getD []
  let abi := fld b 0x24 2
  let ports := (entriesOf b 3 8).map PortDef.of
  let eg := (egressOf ports (egressEntries b)).1
  let yoke := ((ofType b 8).head?.map (Sec.body b)).map YokeCfg.of
  { tFrame := fld dev 0 2, lap := fld dev 2 2, deviceId := fld dev 4 2,
    pens := (ofType b 2).foldl (fun t x => Tbl.insert (fld (x.body b) 0 1) (PenDesc.of abi (x.body b)) t) [], ports := ports,
    adm := (entriesOf b 5 64).map AdmEntry.of, tenants := (entriesOf b 6 32).map Tenant.of,
    route := (checkRoutes (fld dev 4 2) ports eg (yoke.map (·.port)) (routeWords b)).1, egress := eg, yoke := yoke,
    eHdr := ((ofType b 7).head?.map fun x => slice b x.off 32).getD [], digest := imageDigest b }

/-- The pens that a tenant names: bits of absent pens are ignored (R49). -/
def Truss.named (t : Truss) (x : Tenant) : List Nat := (t.pens.map (·.1)).filter (bit x.penMask)

/-- Whether a tenant in force names pen `p` and no other pen. -/
def Truss.onlyNames (t : Truss) (p : Nat) (x : Tenant) : Bool :=
  bit x.penMask p && (t.named x).all fun q => q == p

/-- A per-pen image over the image in force. -/
def penTruss (t : Truss) (b : Bytes) : Truss :=
  let p := fld b 0xD 1
  let d := PenDesc.of (fld b 0x24 2) (((ofType b 2).head?.map (Sec.body b)).getD [])
  let gone := d.quads == 0
  let ports := (entriesOf b 3 8).map PortDef.of
  let tens := (entriesOf b 6 32).map Tenant.of
  { t with
    pens := if gone then Tbl.erase p t.pens else Tbl.insert p d t.pens,
    ports := t.ports.filter (fun k => !(ports.any fun q => q.id == k.id)) ++ ports,
    adm := if (ofType b 5).isEmpty then (if gone then t.adm.filter fun a => a.pen != p else t.adm)
      else t.adm.filter (fun a => a.pen != p) ++ (entriesOf b 5 64).map AdmEntry.of,
    tenants := if (ofType b 6).isEmpty then t.tenants else t.tenants.filter (fun x => !(t.onlyNames p x)) ++ tens,
    digest := imageDigest b }

/-- Whether a per-pen image is heavy (Section 5.2). -/
def Truss.heavy (t : Truss) (b : Bytes) : Bool :=
  let p := fld b 0xD 1
  let d := PenDesc.of (fld b 0x24 2) (((ofType b 2).head?.map (Sec.body b)).getD [])
  (match Tbl.find? p t.pens with
    | none => true
    | some o => { o with kvPolicy := d.kvPolicy, planMask := d.planMask, raw := d.raw } != d) ||
  ((entriesOf b 3 8).map PortDef.of).any fun k => !(t.ports.contains k)

/-! ## Section checks (Table 2.9, orders 6 to 15; R299) -/

/-- Whether a section's length does not match its type. -/
def Sec.lenBad (b : Bytes) (x : Sec) : Bool :=
  match x.typ with
  | 1 => x.len != 16
  | 2 => x.len != 128
  | 3 => x.len % 8 != 0 || decide (144 < x.len)
  | 4 => x.len != 8192
  | 5 => x.len % 64 != 0
  | 6 => x.len % 32 != 0 || decide (2048 < x.len)
  | 7 => decide (4096 < fld b (x.off + 0x16) 2) || x.len != 32 + 32 * fld b (x.off + 0x16) 2
  | 8 => x.len != 144
  | _ => false

/-- How many sections of a type a scope may carry (Table 2.3). -/
def secLimit (whole : Bool) (t : Nat) : Nat × Nat :=
  if whole then (if t = 1 then (1, 1) else if t = 2 then (1, 16) else (0, 1))
  else if t = 2 then (1, 1) else if t = 3 ∨ t = 5 ∨ t = 6 then (0, 1) else (0, 0)

/-- Check 6, SECTION. -/
def checkSection (b : Bytes) (next : Truss) : Option Bad :=
  let whole := fld b 0xC 1 == 0
  ((secsOf b).findSome? fun x => firstBad 0x0F x.idx (0x100 + 16 * x.idx)
    [(x.crit && (decide (x.typ = 0) || decide (8 < x.typ)), 0),
     (decide (1 ≤ x.typ) && decide (x.typ ≤ 8) && decide ((secLimit whole x.typ).2 < (ofType b x.typ).length), 0), (x.lenBad b, 8)]).or
  ((badIf 0x0F ([1, 2].any fun t => decide ((ofType b t).length < (secLimit whole t).1))).or
  (((ofType b 1).findSome? fun x => firstBad 0x0F x.idx x.off
    [(!(zeroAt (x.body b) 7 9), 7), (decide (4096 ≤ fld (x.body b) 4 2) && fld (x.body b) 4 2 != 0xFFFF, 4)]).or
  (((ofType b 2).findSome? fun x => firstBad 0x0F x.idx x.off [(!(zeroAt (x.body b) 0x14 4), 0x14), (decide (2 < fld (x.body b) 1 1), 1)]).or
  (((ofType b 3).findSome? fun x => firstBad 0x0F x.idx x.off ((List.range (x.len / 8)).map fun i => (!(zeroAt (x.body b) (8 * i + 2) 2), 8 * i + 2))).or
  (((ofType b 5).findSome? fun x => firstBad 0x0F x.idx x.off ((List.range (x.len / 64)).flatMap fun i =>
    [(!(zeroAt (x.body b) (64 * i + 2) 6), 64 * i + 2), (!(zeroAt (x.body b) (64 * i + 0x3C) 4), 64 * i + 0x3C)])).or
  (match next.yoke with
    | none => none
    | some y => ((ofType b 8).findSome? fun x => firstBad 0x0F x.idx x.off
        [(y.activeMask &&& y.penMask != y.activeMask, 6), ((List.range 16).any fun p => bit y.penMask p && (Tbl.find? p next.pens).isNone, 4),
         (y.partner == next.deviceId, 0), (y.pairTag == 0, 8)]).or
      (((ofType b 1).findSome? fun x => firstBad 0x0F x.idx x.off [(next.deviceId == 0xFFFF, 4)]).or
      (badIf 0x0F (y.activeMask &&& y.penMask != y.activeMask || ((List.range 16).any fun p => bit y.penMask p && (Tbl.find? p next.pens).isNone) ||
        next.deviceId == 0xFFFF || y.partner == next.deviceId || y.pairTag == 0)))))))))

/-- The HBM ranges of a pen overlap those of another. -/
def gransMeet (a b : List Gran) : Bool := a.any fun x => b.any fun y => overlaps x.start x.count y.start y.count

/-- A byte of HUB_SHARE. -/
def PenDesc.share (d : PenDesc) (m : Nat) : Nat := d.hubShare / 256 ^ m % 256

/-- Check 7, SCOPE, of a per-pen image. -/
def checkScope (inForce : Option Truss) (b : Bytes) : Option Bad :=
  if fld b 0xC 1 = 0 then none
  else match inForce, (ofType b 2).head? with
    | none, _ => some { code := 0x05 }
    | _, none => some { code := 0x05 }
    | some t, some x =>
      let p := fld b 0xD 1
      let d := PenDesc.of 0 (x.body b)
      let others := t.pens.filter fun kv => kv.1 != p
      (firstBad 0x05 x.idx x.off [(fld (x.body b) 0 1 != p, 0), (others.any fun kv => kv.2.quads &&& d.quads != 0, 8),
        (others.any fun kv => gransMeet kv.2.hbm d.hbm, 0x20), (others.any fun kv => gransMeet kv.2.loft d.loft, 0x60),
        ((List.range 8).any fun m => decide (d.share m ≤ 56) && decide (56 < d.share m + (others.map fun kv : Nat × PenDesc => kv.2.share m).sum), 0x18),
        (others.any fun kv => kv.2.portMask &&& d.portMask != 0, 0x10)]).or
      (((ofType b 3).findSome? fun x => firstBad 0x05 x.idx x.off ((x.entries b 8).zip (List.range (x.len / 8)) |>.map fun e =>
        (others.any fun kv => bit kv.2.portMask (fld e.1 0 1), 8 * e.2))).or
      (((ofType b 5).findSome? fun x => firstBad 0x05 x.idx x.off ((x.entries b 64).zip (List.range (x.len / 64)) |>.map fun e =>
        (fld e.1 0 1 != p && decide (fld e.1 0 1 ≤ 15), 64 * e.2))).or
      ((ofType b 6).findSome? fun x => firstBad 0x05 x.idx x.off ((x.entries b 32).zip (List.range (x.len / 32)) |>.map fun e =>
        (fld e.1 4 2 != fld e.1 4 2 &&& 2 ^ p || t.tenants.any fun y => y.id == fld e.1 0 1 && (t.named y).any (· != p), 32 * e.2 + 4)))))

/-- Check 8, TIMING. -/
def checkTiming (b : Bytes) (next : Truss) : Option Bad :=
  match (ofType b 1).head? with
  | none => none
  | some x => firstBad 0x0A x.idx x.off [(decide (next.tFrame < 250) || decide (16000 < next.tFrame), 0), (decide (next.tFrame / 4 < next.lap), 2),
      (next.yoke.isSome && decide (next.lap < 15), 2)]

/-- Check 9, STALL. A PEN_ID above 15 in a whole-device image, which no check of Table 2.9 names, is rejected here (DESIGN CHOICE,
log 64). -/
def checkStall (b : Bytes) (next : Truss) : Option Bad :=
  let ids := (ofType b 2).map fun x => fld (x.body b) 0 1
  let meets := fun x : Sec =>
    let p := fld (x.body b) 0 1
    next.pens.any fun y => y.1 != p && y.2.quads &&& (PenDesc.of 0 (x.body b)).quads != 0
  (((ofType b 2).findSome? fun x => firstBad 0x06 x.idx x.off [(meets x, 8)]).or
    (((ofType b 1).findSome? fun x => firstBad 0x06 x.idx x.off [(fld (x.body b) 6 1 != ids.length, 6)]).or
    ((ofType b 2).findSome? fun x =>
      let p := fld (x.body b) 0 1
      firstBad 0x06 x.idx x.off [(decide (1 < (ids.filter (· == p)).length) || decide (15 < p), 0), (fld (x.body b) 0xE 2 != 0, 8)])))

/-- Whether the ranges of a list overlap each other. -/
def selfMeet : List Gran → Bool
  | [] => false
  | x :: xs => gransMeet [x] xs || selfMeet xs

/-- The STAGE range of a yoked pen breaks R299. -/
def Truss.stageBad (t : Truss) (p : Nat) : Bool := match t.yoke, Tbl.find? p t.pens with
  | some y, some d => bit y.penMask p && (match y.stage[p]? with
      | none => true
      | some g => decide (g.count < 2) || !(inRange d.hbm g.start g.count) ||
          overlaps (g.start * granule) (g.count * granule) d.saveBase (d.ctxMax * 0x100000))
  | _, _ => false

/-- Check 10, MEMORY. -/
def Hw.checkMemory (s : Hw) (b : Bytes) (next : Truss) : Option Bad :=
  let lof := s.loftTib * 524288
  let meets := fun (hbm : Bool) (g : Gran) =>
    decide (1 < ((next.pens.flatMap fun kv => if hbm then kv.2.hbm else kv.2.loft).filter fun y => overlaps g.start g.count y.start y.count).length)
  (((ofType b 2).findSome? fun x =>
    let d := PenDesc.of 0 (x.body b)
    firstBad 0x07 x.idx x.off ([(decide (fld (x.body b) 3 1 = 0) || decide (8 < fld (x.body b) 3 1), 3), (decide (4 < fld (x.body b) 4 1), 4)] ++
      (d.hbm.zip (List.range 8)).map (fun g => (decide (g.1.count = 0) || meets true g.1 || decide (393216 < g.1.start + g.1.count) || decide (g.1.start < 16), 0x20 + 8 * g.2)) ++
      (d.loft.zip (List.range 4)).map fun g => (decide (g.1.count = 0) || meets false g.1 || decide (lof < g.1.start + g.1.count), 0x60 + 8 * g.2))).or
  ((ofType b 8).findSome? fun x => firstBad 0x07 x.idx x.off ((List.range 16).map fun p => (next.stageBad p, 0x10 + 8 * p)))).or
  (badIf 0x07 (selfMeet (next.pens.flatMap fun kv => kv.2.hbm) || selfMeet (next.pens.flatMap fun kv => kv.2.loft) ||
    next.pens.any fun kv => next.stageBad kv.1))

/-- A rejection for what the pens of an image share: where the image has one PEN section, that one's field at `off`. -/
def badPens (code : Nat) (b : Bytes) (off : Nat) (c : Bool) : Option Bad := match ofType b 2 with
  | [x] => firstBad code x.idx x.off [(c, off)]
  | _ => badIf code c

/-- Check 11, CONTEXT. -/
def checkContext (b : Bytes) (next : Truss) : Option Bad :=
  (badPens 0x0D b 6 (decide (4096 < (next.pens.map fun kv : Nat × PenDesc => kv.2.ctxMax).sum))).or
  ((ofType b 2).findSome? fun x =>
    let d := PenDesc.of 0 (x.body b)
    firstBad 0x0D x.idx x.off [(decide (fld (x.body b) 3 1 ≤ d.saveRange), 5), (match d.hbm[d.saveRange]? with
      | some g => decide (2 * g.count < d.ctxMax)
      | none => false, 6)])

/-- Check 12, HUB_SHARE. -/
def checkShare (b : Bytes) (next : Truss) : Option Bad :=
  badPens 0x08 b 0x18 ((List.range 8).any fun m => decide (56 < (next.pens.map fun kv : Nat × PenDesc => kv.2.share m).sum))

/-- The port of the YOKE section breaks R299. -/
def Truss.yokePortBad (t : Truss) : Bool := match t.yoke with
  | none => false
  | some y => !(t.devicePort y.port) || (match t.ports.find? (·.id == y.port) with
      | none => true
      | some k => k.mode != 0 || decide (popcount 18 k.linkMask < 2))

/-- Check 13, PORT. Two PORT entries with one PORT_ID and disjoint links, which no check of Table 2.9 names, are accepted, and the first
defines the port (DESIGN CHOICE, log 64). -/
def checkPort (b : Bytes) (next : Truss) : Option Bad :=
  ((ofType b 2).findSome? fun x =>
    let d := PenDesc.of 0 (x.body b)
    firstBad 0x09 x.idx x.off [(decide (2 ^ 18 ≤ d.portMask) || (setBitsOf 18 d.portMask).any fun k => !(next.ports.any (·.id == k)), 0x10),
      (next.pens.any fun y => y.1 != fld (x.body b) 0 1 && y.2.portMask &&& d.portMask != 0, 0x10)]).or
  (((ofType b 3).findSome? fun x => firstBad 0x09 x.idx x.off ((x.entries b 8).zip (List.range (x.len / 8)) |>.flatMap fun e =>
    [(decide (17 < fld e.1 0 1), 8 * e.2), (decide (1 < fld e.1 1 1), 8 * e.2 + 1), (decide (2 ^ 18 ≤ fld e.1 4 4), 8 * e.2 + 4),
     (decide (1 < (next.ports.filter fun y => y.linkMask &&& fld e.1 4 4 != 0).length), 8 * e.2 + 4)])).or
  (((ofType b 8).findSome? fun x => firstBad 0x09 x.idx x.off [(next.yokePortBad, 2)]).or
  (badIf 0x09 ((next.ports.any fun x => decide (1 < (next.ports.filter fun y => y.linkMask &&& x.linkMask != 0).length)) ||
    (next.pens.any fun x => next.pens.any fun y => decide (x.1 < y.1) && x.2.portMask &&& y.2.portMask != 0) ||
    next.yokePortBad))))


/-- Check 14, ADMISSION. -/
def checkAdmission (b : Bytes) (next : Truss) : Option Bad :=
  ((ofType b 5).findSome? fun x => firstBad 0x0B x.idx x.off ((x.entries b 64).zip (List.range (x.len / 64)) |>.flatMap fun e =>
    let a := AdmEntry.of e.1
    let o := 64 * e.2
    let lim := next.tFrame * 1300
    [(decide (15 < a.pen) || (Tbl.find? a.pen next.pens).isNone, o),
     (decide (7 < a.slot) || (match Tbl.find? a.pen next.pens with
        | some d => !(bit d.planMask a.slot)
        | none => true), o + 1),
     (decide (1 < (next.adm.filter fun y => y.pen == a.pen && y.slot == a.slot).length), o + 1), (decide (lim < a.u0.bound), o + 0x20),
     (decide (lim < a.u1.bound), o + 0x2C), (decide (lim < a.b.bound), o + 0x38)])).or
  ((ofType b 2).findSome? fun x =>
    let d := PenDesc.of 0 (x.body b)
    firstBad 0x0B x.idx x.off [(d.quads != 0 && d.policy == 1 && fld (x.body b) 4 1 == 0, 4)])

/-- Whether a TENANT entry's field is outside Table 2.8, with its offset. -/
def tenantFields (e : Bytes) : List (Bool × Nat) :=
  [(decide (63 < fld e 0 1), 0), (decide (3 < fld e 1 1), 1), (decide (15 < fld e 2 1), 2), (decide (63 < fld e 3 1), 3), (decide (7 < fld e 6 1), 6),
   (!(zeroAt e 7 1), 7), (fld e 8 4 == 0, 8), (decide (fld e 8 4 < fld e 0xC 4), 0xC), (fld e 0x10 4 == 0 || decide (86400 < fld e 0x10 4), 0x10),
   (decide (1023 < fld e 0x14 2), 0x14), (fld e 0x16 2 == 0 || decide (1024 < fld e 0x14 2 + fld e 0x16 2), 0x16), (!(zeroAt e 0x18 8), 0x18)]

/-- A tenant breaks the yoke clause of R299. -/
def Truss.yokeTenantBad (t : Truss) (x : Tenant) : Bool := match t.yoke with
  | none => false
  | some y =>
    let ps := t.named x
    (ps.any fun p => bit y.penMask p) && ((ps.any fun p => !(bit y.penMask p)) || ps.any fun p => ps.any fun q => bit y.activeMask p != bit y.activeMask q)

/-- Check 15, TENANT. -/
def checkTenant (b : Bytes) (next : Truss) : Option Bad :=
  let ts := next.tenants
  ((ofType b 6).findSome? fun x => firstBad 0x0C x.idx x.off ((x.entries b 32).zip (List.range (x.len / 32)) |>.flatMap fun e =>
    (tenantFields e.1).map (fun c => (c.1, 32 * e.2 + c.2)) ++
    (let t := Tenant.of e.1
     [((List.range 16).any fun p => bit (fld e.1 4 2) p && (Tbl.find? p next.pens).isNone, 32 * e.2 + 4),
      (decide (1 < (ts.filter fun y => y.id == t.id).length), 32 * e.2),
      (t.enabled && ts.any fun y => y.id != t.id && y.enabled && overlaps t.base t.size y.base y.size, 32 * e.2 + 0x14),
      (next.yokeTenantBad t, 32 * e.2 + 4)]))).or
  (badIf 0x0C ((ts.any fun x => decide (1 < (ts.filter fun y => y.id == x.id).length)) ||
    (ts.any fun x => ts.any fun y => decide (x.id < y.id) && x.enabled && y.enabled && overlaps x.base x.size y.base y.size) ||
    ts.any fun x => next.yokeTenantBad x))

/-- Checks 6 to 15 in order. -/
def Hw.checkSections (s : Hw) (b : Bytes) (next : Truss) : Option Bad :=
  (checkSection b next).or ((checkScope s.dev.truss b).or ((checkTiming b next).or ((checkStall b next).or ((s.checkMemory b next).or
    ((checkContext b next).or ((checkShare b next).or ((checkPort b next).or ((checkAdmission b next).or (checkTenant b next)))))))))

end Sys2Proof.Machine
end

