-- ==== Sys2Proof/Machine/Truss.lean ====
section
/-! DEFINITION. Loading a truss image (Section 5 of 02_truss_image.md): the load's steps, quiescence, whole-device commits, and
light and heavy per-pen commits. -/

namespace Sys2Proof.Machine

/-! ## Registers that show the image in force -/

/-- The RWT registers of pen `p` (Table 2.13): 0 while it is absent (R52). -/
def Hw.showPen (s : Hw) (p : Nat) : Hw :=
  let d := s.desc p
  let v := fun (f : PenDesc → Nat) => (d.map f).getD 0
  let s := s.set R.PEN_STATE_PRESENT p (if d.isSome then 1 else 0)
  let s := (s.set R.PEN_CTRL_KV_POLICY_EFF p (v PenDesc.policy)).set R.PEN_CTRL_PLAN_MASK p (v (·.planMask)) |>.set R.PEN_CTRL_CTX_MAX p (v (·.ctxMax))
  let s := (s.set R.PEN_QUADS_LO_QUADS_LO p (v fun d => d.quads % 2 ^ 32)).set R.PEN_QUADS_HI_QUADS_HI p (v fun d => d.quads / 2 ^ 32)
  let s := (s.set R.PEN_PORTS_PORT_MASK p (v (·.portMask))).set R.PEN_HUB_SHARE_SHARE p (v (·.hubShare))
  let s := s.each (List.range 8) fun i s => s.set R.PEN_HBM_RANGE_RANGE (8 * p + i) (v fun d => (d.hbm[i]?.map fun g => g.start + 2 ^ 32 * g.count).getD 0)
  let s := s.each (List.range 4) fun i s => s.set R.PEN_LOFT_RANGE_RANGE (4 * p + i) (v fun d => (d.loft[i]?.map fun g => g.start + 2 ^ 32 * g.count).getD 0)
  (s.set R.PEN_SAVE_SAVE_RANGE p (v (·.saveRange))).set R.PEN_SAVE_PLAN_ABI p (v (·.planAbi))

/-- The RWT registers of tenant `t` (Table 15.7). -/
def Hw.showTenant (s : Hw) (t : Nat) : Hw :=
  let x := s.dev.truss.bind fun tr => tr.tenants.find? (·.id == t)
  let v := fun (f : Tenant → Nat) => (x.map f).getD 0
  let s := (s.set R.TV_CFG_ENABLED t (v fun x => if x.enabled then 1 else 0)).set R.TV_CFG_PAUSE_MODE t (v (·.pauseMode)) |>.set R.TV_CFG_SHARE_GROUP t
    (v (·.share))
  let s := (s.set R.TV_CFG_PEN_MASK t (v (·.penMask))).set R.TV_CFG_CLASS_MASK t (v (·.classMask)) |>.set R.TV_TROUGH_BASE t (v (·.base))
  let s := (s.set R.TV_TROUGH_SIZE t (v (·.size))).set R.TV_BUCKET_CAP_CAP t (v (·.cap)) |>.set R.TV_REFILL_REFILL t (v (·.refill))
  s.set R.TV_PAUSE_TTL_S t (v (·.ttl))

/-- Every RWT register brought to the image in force. -/
def Hw.showTruss (s : Hw) : Hw := match s.dev.truss with
  | none => s
  | some t =>
    let s := (s.set R.TRS_TIMING_T_FRAME_US 0 t.tFrame).set R.TRS_TIMING_LAP_US 0 t.lap |>.set R.TRS_DEVICE_DEVICE_ID 0 t.deviceId
    let s := s.each (List.range 16) fun p s => s.showPen p
    let s := s.each (List.range 64) fun i s => s.showTenant i
    let y := fun (f : YokeCfg → Nat) => (t.yoke.map f).getD 0
    let s := (s.set R.YOK_CFG_PARTNER_DEV 0 (y (·.partner))).set R.YOK_CFG_PORT 0 (y (·.port)) |>.set R.YOK_CFG_ALT_PATH 0 (y fun y => if y.altPath then 1 else 0)
    (s.set R.YOK_PENS_PEN_MASK 0 (y (·.penMask))).set R.YOK_PENS_ACTIVE_MASK 0 (y (·.activeMask))

/-! ## START, ABORT, QUIESCE (R43, R44, R46, R50) -/

/-- A TRS_CTRL write with START = 1. -/
def Hw.trsStart (s : Hw) : Hw :=
  let s := s.set R.TRS_CTRL_START 0 0
  if s.get R.TRS_STATUS_STATE ≠ 0 then s.set R.TRS_STATUS_BUSY_REFUSED 0 1
  else
    let src := s.get R.TRS_SRC_ADDR_LO_ADDR_LO + 2 ^ 32 * s.get R.TRS_SRC_ADDR_HI_ADDR_HI
    ({ s with dev.load := some { len := s.get R.TRS_SRC_LEN_LEN, src := src } }).set R.TRS_STATUS_STATE 0 1

/-- TRS_START. -/
def execTrsStart (s : State) : Host.Outcome State Fault Refusal := s.byHostHw fun h => h.trsStart

/-- A TRS_CTRL write with ABORT = 1: a load before COMMIT is cancelled. -/
def Hw.trsAbort (s : Hw) : Hw :=
  let s := s.set R.TRS_CTRL_ABORT 0 0
  let st := s.get R.TRS_STATUS_STATE
  if 1 ≤ st ∧ st ≤ 4 then s.abortLoad else s

/-- TRS_ABORT. -/
def execTrsAbort (s : State) : Host.Outcome State Fault Refusal := s.byHostHw fun h => h.trsAbort

/-- A TRS_CTRL write of QUIESCE: 0 clears QUIESCED at once; it has no effect during a whole-device COMMIT or SCRUB. -/
def Hw.trsQuiesce (s : Hw) (on : Bool) : Hw :=
  if on then s.set R.TRS_CTRL_QUIESCE 0 1
  else
    let st := s.get R.TRS_STATUS_STATE
    let whole := match s.dev.load with
      | some l => l.whole
      | none => false
    if whole && decide (5 ≤ st) then s else (s.set R.TRS_CTRL_QUIESCE 0 0).set R.TRS_STATUS_QUIESCED 0 0

/-- QUIESCE. -/
def execQuiesce (s : State) : Host.Outcome State Fault Refusal := s.byHostHw fun h => h.trsQuiesce true

/-- QUIESCE_CLEAR. -/
def execQuiesceClear (s : State) : Host.Outcome State Fault Refusal := s.byHostHw fun h => h.trsQuiesce false

/-- QUIESCED: the device quiesces once every pen's FSQ is idle and every entry of accepted work is written; with no pen present
no frame start need pass (R45, R46). -/
def execQuiesced (s : State) : Host.Outcome State Fault Refusal :=
  s.onHw fun h =>
    let idle := h.penList.all fun p => (h.pen p).frames.isEmpty && (h.pen p).bound.isEmpty && (h.pen p).deferred.isEmpty
    if h.is R.TRS_CTRL_QUIESCE ∧ (h.penList = [] ∨ h.dev.quiet) ∧ idle then h.set R.TRS_STATUS_QUIESCED 0 1 else h

/-! ## FETCH, VERIFY, VALIDATE -/

/-- A load rejected: what names no one section and field at fault leaves an open value. -/
def Hw.loadBad (s : Hw) (b : Bad) : Hw :=
  let (v, s) := s.draw
  let (w, s) := s.draw
  s.loadFail b.code (b.sec.getD v) (b.off.getD w)

/-- TRUSS_FETCH_DONE: check 1; the image is copied into the staging area, and VERIFY begins with the key store as it stands. -/
def execTrussFetchDone (res : Completion) (s : State) : Host.Outcome State Fault Refusal :=
  s.run fun r => match r.hw.dev.load with
    | none => r
    | some l =>
      if r.hw.get R.TRS_STATUS_STATE ≠ 1 then r
      else
        let inWin := r.hw.dmaOk 0 l.src l.len false
        let r := r.on fun s =>
          if inWin then s.cplErr res else s.dmaReject 0 l.src false
        if 0x1000000 < l.len ∨ l.len < 512 ∨ l.src % 8 ≠ 0 ∨ !inWin ∨ res ≠ .ok then r.on fun s => s.loadBad { code := 0x10 }
        else (r.memWrite 0 (r.readHost l.src l.len) 0).on fun s =>
          ({ s with dev.load := some { l with keys := s.mgt.keys } }).set R.TRS_STATUS_STATE 0 2

/-- Where the staging area holds poisoned lines: FORMAT, for the section whose CRC the first of them fails, else for the header
(R207). -/
def stageSpoilt (b : Bytes) (mark : Nat → Nat) : Option Bad :=
  let bad := fun (o n : Nat) => (linesOf o n).any fun l => mark l != 0
  ((secsOf b).findSome? fun x => firstBad 0x02 x.idx (0x100 + 16 * x.idx) [(bad x.off x.len, 12)]).or (some { code := 0x02, sec := some 0xFF })

/-- TRUSS_VERIFY_DONE: checks 2 to 5, with the first QUIESCED check after check 2. The loader's reads find bit errors of the staging
area (R204), and a poisoned line fails the load (R207). -/
def execTrussVerifyDone (s : State) : Host.Outcome State Fault Refusal :=
  s.run fun r => match r.hw.dev.load with
    | none => r
    | some l =>
      if r.hw.get R.TRS_STATUS_STATE ≠ 2 then r
      else
        let (b, m, r) := r.memRead .device 0 l.len
        let whole := fld b 0xC 1 == 0
        let spoilt : Option Bad := if m = 0 then none else stageSpoilt b r.mark
        let busy : Option Bad := if whole && !(r.hw.is R.TRS_STATUS_QUIESCED) then some { code := 0x12 } else none
        match (spoilt.or (checkFormat b l.len)).or (busy.or ((checkSig l.keys b).or ((r.hw.checkCompat b).or (r.hw.checkSerial b)))) with
        | some e => r.on fun s => s.loadBad e
        | none => r.on fun s => ({ s with dev.load := some { l with whole := whole, pen := fld b 0xD 1 % 16, serial := fld b 0x10 8 } }).set
            R.TRS_STATUS_STATE 0 3

/-- TRUSS_VALIDATE_DONE: checks 6 to 15 and the second QUIESCED check. A whole-device image stops the tick and enters COMMIT; a
per-pen image is PENDING. -/
def execTrussValidateDone (s : State) : Host.Outcome State Fault Refusal :=
  s.run fun r => match r.hw.dev.load with
    | none => r
    | some l =>
      if r.hw.get R.TRS_STATUS_STATE ≠ 3 then r
      else
        let (b, m, r) := r.memRead .device 0 l.len
        let next := if l.whole then wholeTruss b else match r.hw.dev.truss with
          | some t => penTruss t b
          | none => wholeTruss b
        let r := r.on fun s => if (secsOf b).any fun x => (x.typ == 0 || decide (8 < x.typ)) && !x.crit then s.set R.TRS_STATUS_SKIPPED 0 1 else s
        let busy : Option Bad := if l.whole && !(r.hw.is R.TRS_STATUS_QUIESCED) then some { code := 0x12 } else none
        match (if m = 0 then none else stageSpoilt b r.mark).or ((r.hw.checkSections b next).or busy) with
        | some e => r.on fun s => s.loadBad e
        | none => r.on fun s =>
          if l.whole then
            ({ s with dev.load := some { l with next := some next }, clk.running := false }).set R.TRS_STATUS_STATE 0 5
          else
            let heavy := match s.dev.truss with
              | some t => t.heavy b
              | none => true
            (({ s with dev.load := some { l with next := some next, heavy := heavy, pending := some s.clk.now } }).set R.TRS_STATUS_STATE 0 4).set
              R.PEN_STATE_LOAD_PENDING l.pen 1

/-! ## What a commit changes -/

/-- The pen that a granule of HBM (or of the loft) belongs to. -/
def Truss.ownerOf (t : Truss) (loft : Bool) (g : Nat) : Option Nat :=
  (t.pens.find? fun kv => (if loft then kv.2.loft else kv.2.hbm).any fun x => decide (x.start ≤ g) && decide (g < x.start + x.count)).map (·.1)

/-- The starts and ends of every range of a list, rising. -/
def cutsOf (gs : List Gran) : List Nat := (gs.foldl (fun t g => Tbl.insert (g.start + g.count) () (Tbl.insert g.start () t)) ([] : Tbl Unit)).map (·.1)

/-- The runs of granules, not retired, for which `sel` holds; `cuts` are all points where it may change. -/
def runsOf (sel : Nat → Bool) (cuts : List Nat) : List Gran := ((cuts.zip (cuts.drop 1)).filter fun c => sel c.1).map fun c => ⟨c.1, c.2 - c.1⟩

/-- The granules that a commit scrubs: those whose owner changes, or for a per-pen load those that its pen acquires; HBM
granules by device address, loft granules from the loft's start on. -/
def Hw.scrubList (s : Hw) (old : Option Truss) (next : Truss) (pen : Option Nat) : List Gran :=
  let side := fun (loft : Bool) =>
    let ranges := fun (t : Truss) => t.pens.flatMap fun kv : Nat × PenDesc => if loft then kv.2.loft else kv.2.hbm
    let dead := if loft then s.loftRetired else s.retired
    let cuts := cutsOf ((old.map ranges).getD [] ++ ranges next ++ dead.map fun g => ⟨g, 1⟩)
    let was := fun g => old.bind fun t => t.ownerOf loft g
    (runsOf (fun g => !(dead.contains g) && was g != next.ownerOf loft g && (match pen with
      | none => true
      | some p => next.ownerOf loft g == some p)) cuts).map fun g => if loft then (⟨loftBase / granule + g.start, g.count⟩ : Gran) else g
  side false ++ side true

/-- The stalls that a commit zero-fills. -/
def scrubStalls (old : Option Truss) (next : Truss) (pen : Option Nat) : List Nat :=
  let own := fun (t : Truss) (n : Nat) => (t.pens.find? fun kv => bit kv.2.quads (n / 4)).map (·.1)
  (List.range 192).filter fun n => (old.bind fun t => own t n) != own next n && (match pen with
    | none => true
    | some p => own next n == some p)

/-- A fresh prefix key: an open value of 32 bytes, never shown (R41). -/
def Hw.freshKey (s : Hw) (k : Nat) : Hw :=
  let (v, s) := s.draw
  { s with dev.keys := Tbl.insert k (leBytes 32 (v % 2 ^ 256)) s.dev.keys }

/-- The entries of an unavailable list whose header lies in a scrubbed granule are gone (R356). -/
def Hw.scrubUnav (s : Hw) (gs : List Gran) : Hw :=
  let gone := fun u : Unavail => gs.any fun g => decide (g.start ≤ u.hdr / granule) && decide (u.hdr / granule < g.start + g.count)
  ({ s with dev.unav := (s.dev.unav.map fun kv : Nat × List Unavail => (kv.1, kv.2.filter fun u => !(gone u))).filter (fun kv => !(kv.2.isEmpty)) }).each
    (List.range 8) fun u s => s.showUnav u

/-- Links whose port or mode a commit changes train anew, or are disabled (R38, R267, R270). -/
def Hw.relink (s : Hw) (old : Option Truss) : Hw :=
  (s.each (List.range 18) fun l s =>
    let was : Option (Nat × Nat) := old.bind fun t => (t.ports.find? fun p => bit p.linkMask l).map fun p => (p.id, p.mode)
    let now : Option (Nat × Nat) := (s.portOf l).map fun p => (p.id, p.mode)
    if was = now then s else s.placeLink l).showPorts

/-- The routing table of the image with its counts; the shadow starts as a copy (R276, R286, R287). -/
def Hw.loadRoutes (s : Hw) (b : Bytes) (t : Truss) : Hw :=
  let (rt, bad, herd) := checkRoutes t.deviceId t.ports t.egress (t.yoke.map (·.port)) (routeWords b)
  let badE := (egressOf t.ports (egressEntries b)).2
  (({ s with dev.shadow := rt.map fun kv : Nat × Nat => (kv.1, 0x8000 + kv.2) }).set R.LNK_RT_STATUS_BAD_ROUTE 0 (min bad 4095)).set
    R.LNK_RT_STATUS_BAD_EGRESS 0 (min badE 4095) |>.set R.LNK_RT_STATUS_HERD_DEST 0 herd

/-- A window zero-filled and at reset (R231). -/
def Run.clearWindow (r : Run) (t : Tenant) : Run := (r.zero t.window (t.size * 0x10000)).on fun s => s.resetWin t.id

/-- The part of a pen that a whole-device commit or a heavy per-pen commit discards (R46, R49, R60). -/
def Hw.clearPen (s : Hw) (p : Nat) : Hw :=
  let s := ((s.instFail p 0x08).uninstall p).discardContexts p
  let s := s.each (List.range 192) fun n s => if s.penOf n = some p then
      { s with dev.engs := s.dev.engs.filter fun kv => !(decide (kv.1 < 4096) && kv.1 / 16 == n) } else s
  let s := { s with dev.engs := s.dev.engs.filter fun kv => !(decide (4096 ≤ kv.1) && (kv.1 - 4096) % 16 == p) }
  (((((s.modPen p fun ps => { ps with frames := [], kv := {}, nextPos := 0, counts := [(0, 0, 0), (0, 0, 0), (0, 0, 0)], yoke := {} }).set
    R.KVM_FREE_PAGES p 0).set R.KVM_USED_PAGES p 0).set R.KVM_LOFT_USED_PAGES p 0).set R.YOK_PEN_STATE_STATE p 0 |>.set R.YOK_PEN_STATE_MISSED p 0 |>.set
    R.YOK_PEN_STATE_ROLE p 0).showResident p

/-- What follows a commit: serials and DONE's frame. -/
def Hw.trsSerials (s : Hw) (l : Load) (pens : List Nat) : Hw :=
  let s := s.set R.TRS_SERIAL_SERIAL 0 l.serial
  let s := if l.whole then s.set R.TRS_BASE_SERIAL_BASE 0 l.serial else s
  s.each pens fun p s => s.set R.PEN_SERIAL_SERIAL p l.serial

/-- DONE with the frame at which the commit took effect. -/
def Hw.trsDone (s : Hw) (f : Nat) : Hw :=
  (((s.set R.TRS_STATUS_DONE 0 1).set R.TRS_STATUS_ERR_CODE 0 0).set R.TRS_COMMIT_FRAME_FRAME 0 f).msi 0 1

/-- Packets that wait for a network port to whose destination it may no longer send are dropped, and their messages fail (R276): a load
changed the EGRESS table or the port. -/
def Hw.dropUnsent (s : Hw) : Hw :=
  let gone := s.dev.txq.filter fun x => !(s.maySend x.2.dst x.1)
  let s := { s with dev.txq := s.dev.txq.filter fun x => s.maySend x.2.dst x.1 }
  s.each gone fun x s =>
    let s := s.inc R.ZLT_DENY_EGRESS
    let k := flowKey x.2.dst x.2.tc
    match (s.flow k).unacked.find? fun y => y.pkt.psn == x.2.psn && y.pkt.src == x.2.src with
    | some y => s.msgFail k y.pkt.msg y.pen .egress y.pkt.mirrors
    | none => s

/-! ## Whole-device commit (Table 2.10) -/

/-- TRUSS_COMMIT_DONE: everything of the image before is discarded, the new image is in the registers, and SCRUB begins. -/
def execTrussCommitDone (s : State) : Host.Outcome State Fault Refusal :=
  s.run fun r => match r.hw.dev.load.bind fun l => l.next.map fun t => (l, t) with
    | none => r
    | some (l, next) =>
      if r.hw.get R.TRS_STATUS_STATE ≠ 5 ∨ !l.whole then r
      else
        let old := r.hw.dev.truss
        let scrub := r.hw.scrubList old next none
        let stalls := scrubStalls old next none
        let b := r.read 0 l.len
        let r := r.on fun s =>
          let s := s.each (List.range 16) fun p s => s.clearPen p
          let s := { s with dev.truss := some next, dev.keys := [], dev.load := some { l with scrub := scrub } }
          let s := ((s.showTruss.moveWays old (some next)).relink old).loadRoutes b next
          let s := s.each ((next.tenants.map Tenant.keyId).eraseDups) fun k s => s.freshKey k
          let s := s.each (List.range 64) fun t s => s.modTen t fun x =>
            { x with bucket := ((next.tenants.find? (·.id == t)).map (·.cap)).getD 0, disabling := none, byCount := false, ghost := none }
          ((s.trsSerials l (next.pens.map (·.1))).scrubUnav scrub).set R.TRS_STATUS_STATE 0 6
        let r := r.on fun s => s.each (List.range 64) fun t s => s.resetWin t
        let r := r.each (next.tenants.filter (·.enabled)) fun t r => r.clearWindow t
        (r.each stalls fun n r => r.zeroFill n).on fun s => (s.dropUnsent).limits

/-! ## Per-pen commits (R47 to R49, R231, R417) -/

/-- What a per-pen commit does with the tenants: removed or disabled ones with work in flight are disabled (R42), buckets are
clamped, added tenants start at their caps, changed keys are drawn anew, changed windows are cleared. A tenant that the image lists again with an unchanged key group keeps its key
(DESIGN CHOICE, log 64: R41 gives a key when an entry comes into force, and speaks of a load that changes a key). -/
def Run.retenant (r : Run) (old next : Truss) : Run :=
  let was := fun t => old.tenants.find? (·.id == t)
  let r := r.each old.tenants fun x r =>
    let now := next.tenants.find? (·.id == x.id)
    let off := x.enabled && (match now with
      | some y => !y.enabled
      | none => true)
    let r := if off && r.hw.awaiting x.id then (r.on fun s => s.modTen x.id fun y => { y with ghost := if now.isNone then some x else none }).disableTenant x.id false
      else r
    match now with
    | some y => r.on fun s => s.modTen x.id fun z => { z with bucket := min z.bucket y.cap }
    | none => r
  let keys := fun (t : Truss) => (t.tenants.map Tenant.keyId).eraseDups
  let r := r.each ((keys old).filter fun k => !((keys next).contains k)) fun k r =>
    (r.each (next.pens.map (·.1)) fun p r => r.pfxDropKey p k).on fun s => { s with dev.keys := Tbl.erase k s.dev.keys }
  let r := r.each ((keys next).filter fun k => !((keys old).contains k)) fun k r => r.on fun s => s.freshKey k
  r.each next.tenants fun y r =>
    match was y.id with
    | none =>
      let r := r.on fun s => s.modTen y.id fun z => { z with bucket := y.cap }
      if y.enabled then r.clearWindow y else r
    | some x =>
      if y.enabled && (!x.enabled || x.base != y.base || x.size != y.size || x.function != y.function) then r.clearWindow y else r

/-- A light image commits at this frame start (R48). -/
def Run.lightCommit (r : Run) : Run := match r.hw.dev.load, r.hw.dev.truss with
  | some l, some old => match l.next with
    | none => r
    | some next =>
      let next := { next with route := old.route }
      let r := r.on fun s => ({ s with dev.truss := some next, dev.load := none }).showTruss.moveWays (some old) (some next)
      let r := r.retenant old next
      r.on fun s =>
        let s := ((s.trsSerials l [l.pen]).restale l.pen).set R.PEN_STATE_LOAD_PENDING l.pen 0
        (s.set R.TRS_STATUS_STATE 0 0).trsDone s.clk.frame
  | _, _ => r

/-- PEN_HEAVY_COMMIT: with the tail of frame F − 1 complete, the pen's contexts, pages and plans are discarded, its resources are
committed, and what it newly acquired is scrubbed (R49). -/
def execPenHeavyCommit (s : State) : Host.Outcome State Fault Refusal :=
  s.run fun r => match r.hw.dev.load, r.hw.dev.truss with
    | some l, some old => match l.next with
      | none => r
      | some next =>
        if !(r.hw.mayCommit l.pen) then r
        else
          let next := { next with route := old.route }
          let scrub := r.hw.scrubList (some old) next (some l.pen)
          let stalls := scrubStalls (some old) next (some l.pen)
          let r := r.on fun s =>
            let s := s.clearPen l.pen
            let s := ({ s with dev.truss := some next, dev.load := some { l with scrub := scrub, next := none } }).showTruss.moveWays (some old) (some next)
            ((((s.relink (some old)).trsSerials l [l.pen]).scrubUnav scrub).set R.PEN_STATE_LOAD_PENDING l.pen 0).set R.TRS_STATUS_STATE 0 6
          ((r.retenant old next).each stalls fun n r => r.zeroFill n).on fun s => (s.dropUnsent).limits
    | _, _ => r

/-- TRUSS_SCRUB_DONE: the granules are zero-filled, a retired page being skipped (R206). A whole-device load ends: the tick restarts
at the next frame number. A heavy per-pen load is IDLE; its pen takes intake, and DONE comes, at the next frame start. -/
def execTrussScrubDone (s : State) : Host.Outcome State Fault Refusal :=
  s.run fun r => match r.hw.dev.load with
    | none => r
    | some l =>
      if r.hw.get R.TRS_STATUS_STATE ≠ 6 ∨ (List.range 192).any (fun n => r.hw.is R.SPD_STATUS_ZEROING n && (l.whole || r.hw.penOf n == some l.pen)) then r
      else
        let r := r.each l.scrub fun g r => r.zero (g.start * granule) (g.count * granule)
        if l.whole then
          r.on fun s =>
            let s := { s with dev.load := none, dev.quiet := false, clk.running := true, clk.due := s.clk.now }
            let s := ((s.set R.TRS_STATUS_STATE 0 0).set R.TRS_STATUS_IN_FORCE 0 1).set R.TRS_STATUS_QUIESCED 0 0 |>.set R.TRS_CTRL_QUIESCE 0 0
            let s := s.trsDone (s.clk.frame + 1)
            s.each s.penList fun p s => if s.yoked p then s.sendHello p else s
        else
          r.on fun s =>
            let s := (({ s with dev.load := none }).modPen l.pen fun ps => { ps with trsDone := true }).set R.TRS_STATUS_STATE 0 0
            if s.yoked l.pen then s.sendHello l.pen else s

/-! ## Frame starts -/

/-- What a frame start does with a load (R47 to R49): a PENDING image that became so at least 10 µs ago commits if it is light, and
refuses intake for its pen if it is heavy; a heavy load whose scrub is over ends. -/
def Run.loadFrame (r : Run) : Run :=
  let r := r.each (List.range 16) fun p r =>
    if (r.hw.pen p).trsDone then r.on fun s =>
      (((s.modPen p fun ps => { ps with trsDone := false }).set R.PEN_STATE_REFUSING p 0).trsDone s.clk.frame)
    else r
  match r.hw.dev.load with
  | none => r
  | some l => match l.pending with
    | none => r
    | some t =>
      if r.hw.get R.TRS_STATUS_STATE ≠ 4 ∨ r.hw.clk.now < t + 1000 ∨ l.refuseF.isSome then r
      else if l.heavy then r.on fun s =>
        (({ s with dev.load := some { l with refuseF := some s.clk.frame } }).set R.PEN_STATE_REFUSING l.pen 1).enterCommit l.pen
      else r.lightCommit

end Sys2Proof.Machine
end

