-- ==== Sys2Proof/Machine/Frames.lean ====
section
/-! DEFINITION. Frame starts, sub-ticks and frame tails (Sections 1, 4 and 7 of 03_frames.md): what a frame start does in its
order, and the end of a frame. -/

namespace Sys2Proof.Machine

/-! ## The tick (R53) -/

/-- Reference cycles of a frame. -/
def Hw.frameLen (s : Hw) : Nat := s.tFrame * 100

/-- Frame `f` starts at instant `t`: its successor starts exactly one frame length later. -/
def Hw.startFrame (s : Hw) (f t : Nat) : Hw :=
  let s := { s with clk := { s.clk with now := max s.clk.now t, running := true, frame := f, frameStart := t, due := t + s.frameLen, subtick := 0,
                                        starts := ((f, t) :: s.clk.starts).take 300 } }
  ((s.set R.FSQ_FRAME_FRAME 0 f).set R.FSQ_TICK_SUBTICK 0 0).traceAdd 8 0xFF 0xFF 0xFF 0xFFFFFFFF (f % 2 ^ 32)

/-- The start of sub-tick `k`, floor(k T / 8) cycles after the frame start. -/
def Hw.startSubtick (s : Hw) (k : Nat) : Hw :=
  let s := s.reach (s.clk.frameStart + k * s.frameLen / 8)
  ({ s with clk.subtick := k }).set R.FSQ_TICK_SUBTICK 0 k

/-- Whether the tick runs: the device is up and no whole-device load holds the tick. -/
def Hw.ticks (s : Hw) : Bool := s.clk.running && s.mgt.phase == .run

/-! ## What a frame start does -/

/-- Every tenant's bucket gains its REFILL (R240). -/
def Hw.refill (s : Hw) : Hw :=
  s.each ((s.dev.truss.map (·.tenants)).getD []) fun t s => s.modTen t.id fun y => { y with bucket := min t.cap (y.bucket + t.refill) }

/-- A pen that was reset, or resumed, runs again (step 6 of Table 13.6, R350). -/
def Hw.runAgain (s : Hw) (p : Nat) : Hw := match (s.pen p).runAt with
  | some t => if t ≤ s.clk.now then (s.modPen p fun ps => { ps with runAt := none }).set R.ERR_PEN_STATE_STATE p 0 else s
  | none => s

/-- A ticket not DONE by the end of its frame: its pages freed and its spans queued again (R255). -/
def Run.requeue (r : Run) (p : Nat) : Run := match (r.hw.pen p).kv.cfg with
  | none => r
  | some c =>
    let old := (r.hw.pen p).kv.tickets.filter fun t => decide (t.frame < r.hw.clk.frame)
    r.each old fun t r =>
      let sps := (List.range t.nspan).map (t.first + ·)
      let r := r.each sps fun sp r => r.each (List.range c.gKv) fun j r =>
        let e := r.pte p c t.ctx sp j
        if pteState e = 0 ∧ Tbl.get 0 (pteIndex e) (r.hw.pen p).kv.refs = 1 then
          (r.on fun s => s.unrefPage p (pteIndex e)).setPte p c t.ctx sp j (2 * 2 ^ 30)
        else r
      r.on fun s => ((s.modKv p fun k => { k with tickets := k.tickets.filter (·.num ≠ t.num), recomp := k.recomp ++ sps.map fun sp => (t.ctx, sp) }).showQueue
        p).kvCounts p

/-- Whether a body of the pen still runs. -/
def PenSt.bodyRuns (ps : PenSt) : Bool := ps.frames.any fun x => !x.bodyDone

/-- The pen leaves the suspended state (R77): no cause, ACLK at F_assured or above through the whole preceding frame, no slipped
frame pending. -/
def Hw.suspendExit (s : Hw) (p : Nat) : Hw :=
  let cause := s.is R.FSQ_STATE_SUSP_SAG p || s.is R.FSQ_STATE_SUSP_THERMAL p || s.is R.FSQ_STATE_SUSP_OTHER p || s.is R.FSQ_STATE_SUSP_TAKEOVER p
  let s := if s.is R.FSQ_STATE_SUSPENDED p && !cause && !(s.pen p).dirtyClk && !(s.pen p).bodyRuns then s.set R.FSQ_STATE_SUSPENDED p 0 else s
  s.modPen p fun ps => { ps with dirtyClk := s.penBelow p }

/-- The slot of the new frame, and whether the frame is idle (R62, R64) or slipped (R80). -/
def Hw.frameKind (s : Hw) (p : Nat) : Hw :=
  let late := (s.pen p).bodyRuns
  let slip := late && s.is R.FSQ_STATE_SUSPENDED p
  let slot := s.rotaSlot p s.clk.frame
  let idle := !(s.selectable p slot)
  let s := ((s.set R.FSQ_STATE_SLOT_SEL p slot).set R.FSQ_STATE_IDLE_FRAME p (if idle then 1 else 0)).set R.FSQ_STATE_SLIPPED p (if slip then 1 else 0)
  let s := if slip then s.inc R.FSQ_FRAME_COUNTS_SLIPPED p else if late then s.inc R.FSQ_OVERRUN_COUNT_BODY_LATE p else s
  if idle then s.inc R.FSQ_FRAME_COUNTS_IDLE_FRAMES p else s

/-- The new frame of a pen opened: every task of its plan waits for its push and for each command. A pen that is not in RUN,
takes no intake, or is quiesced opens none (log 35). -/
def Hw.openFrame (s : Hw) (p : Nat) : Hw :=
  match Tbl.find? (s.get R.FSQ_STATE_SLOT_SEL p) (s.pen p).plans with
  | none => s
  | some pl =>
    if s.is R.FSQ_STATE_IDLE_FRAME p || s.is R.FSQ_STATE_SLIPPED p || !(s.penRun p) || s.is R.PEN_STATE_REFUSING p || s.dev.quiet then s
    else
      let left := (pl.tasks.zip (List.range pl.tasks.length)).foldl (fun t x => Tbl.set 0 x.2 (x.1.cmds.length + 1) t) ([] : Tbl Nat)
      s.modPen p fun ps => { ps with frames := ps.frames ++
        [{ frame := s.clk.frame, slot := s.get R.FSQ_STATE_SLOT_SEL p, key := pl.key, regs := pl.addr + pl.regionOff, idle := false, slipped := false,
           tasks := pl.tasks, left := left, pushed := [] }] }

/-- What a frame start does for one pen before the sweep. -/
def Run.penFrame (r : Run) (p : Nat) : Run :=
  let cur := r.hw.currentPlan p
  let r := r.on fun s =>
    let s := ((s.runAgain p).replayEnd p).suspendExit p
    let s := (s.modPen p fun ps => { ps with ledger := [], nextPos := 0, counts := [(0, 0, 0), (0, 0, 0), (0, 0, 0)] }).set R.GEN_LEDGER_USED p 0
    ((s.planEffect p).rotaEffect p cur).frameKind p
  let r := ((r.dropIdleU0 p).requeue p).on fun s => s.yokeFrame p
  (r.reclaim p).on fun s => (s.showPlans p).openFrame p

/-- A committed routing shadow takes effect (R287). -/
def Hw.routesDue (s : Hw) : Hw := if s.is R.LNK_RT_CTRL_COMMIT then s.applyRoutes.set R.LNK_RT_CTRL_COMMIT 0 0 else s

/-- FRAME_START (R53): the tick source reaches a frame start. Loads, buckets, plans, rotas, suspension and slipped frames come
before the sub-tick 0 sweep of every window. -/
def execFrameStart (s : State) : Host.Outcome State Fault Refusal :=
  s.run fun r =>
    if !r.hw.ticks then r
    else
      let r := r.on fun s =>
        let s := s.startFrame (s.clk.frame + 1) s.clk.due
        ({ s with dev.quiet := s.is R.TRS_CTRL_QUIESCE }).suspend.energyFrame
      let r := (r.loadFrame.on fun s => s.refill.routesDue)
      let r := r.each r.hw.penList fun p r => r.penFrame p
      let r := r.each r.hw.penList fun p r => r.expirePauses p r.hw.clk.frameStart
      let r := r.postAllHeld.on fun s => { s with dev.sweep0 := (s.dev.sweep0 + 1) % 64 }
      let r := r.sweep true
      r.each r.hw.penList fun p r => r.afterEnd p

/-- SUBTICK (R54): sub-tick 1 to 7 of the running frame; only U0 STEP records are examined. -/
def execSubtick (s : State) : Host.Outcome State Fault Refusal :=
  s.run fun r =>
    if !r.hw.ticks || decide (7 ≤ r.hw.clk.subtick) then r
    else
      let r := (r.on fun s => s.startSubtick (s.clk.subtick + 1)).sweep false
      r.each r.hw.penList fun p r => r.on fun s => s.replayEnd p

/-! ## The end of a frame (R55, R59, R304) -/

/-- FRAME_TAIL_DONE: the tail of an open frame is complete. Plans replaced since then are no more installed, and the frame is a
commit point of the yoke. -/
def execFrameTailDone (p : PenId) (frame : Nat) (s : State) : Host.Outcome State Fault Refusal :=
  s.run fun r => match (r.hw.pen p.val).frames.find? (·.frame == frame) with
    | none => r
    | some x =>
      if !x.tailDone && x.tailOk && x.bodyDone && r.hw.penRun p.val then
        let gone := (r.hw.pen p.val).old.filter fun o => decide (o.last ≤ frame)
        let r := r.on fun s =>
          let s := s.each gone fun o s => s.loadReads p.val { addr := 0, len := 0, digest := [], abi := 0, headMask := 0, tailMask := 0, u0Reserve := 0,
                                                              recompute := 0, flags := 0, regionOff := 0, reads := [], tasks := [], key := o.key } false
          (s.modPen p.val fun ps => { ps.modFrame frame fun y => { y with tailDone := true } with
            old := ps.old.filter fun o => decide (frame < o.last) }).set R.FSQ_TAIL_DONE_FRAME p.val (max frame (s.get R.FSQ_TAIL_DONE_FRAME p.val))
        (r.commitPoint p.val).afterEnd p.val
      else r

end Sys2Proof.Machine
end

