-- ==== Sys2Proof/Machine/Retire.lean ====
section
/-! DEFINITION. Page retirement and patrol scrub (Sections 5 and 6 of 08_memory_compression.md). -/

namespace Sys2Proof.Machine

/-- The free-page counts of every pen that a retirement may change. -/
def Hw.recount (s : Hw) : Hw := s.each s.penList fun p s => s.kvCounts p

/-- A write of HBM retirement entry `e` of stack `k` (R206, R207). An entry whose VALID is 1 ignores it; a refused write leaves
VALID at 0. -/
def Hw.retirePage (s : Hw) (k e v : Nat) : Hw :=
  let i := k * 1024 + e
  let page := v % 2 ^ 15
  if s.is R.MHB_RET_ENTRY_VALID i then s
  else
    let used := ((List.range 1024).filter fun j => s.is R.MHB_RET_ENTRY_VALID (k * 1024 + j)).length
    let twice := (List.range 1024).any fun j => s.is R.MHB_RET_ENTRY_VALID (k * 1024 + j) && s.get R.MHB_RET_ENTRY_PAGE (k * 1024 + j) == page
    let s := s.set R.MHB_RET_ENTRY_PAGE i page
    if !(bit v 31) then s
    else if 24576 ≤ page ∨ twice ∨ (k = 0 ∧ page < 16) then s.set R.MHB_RET_STATUS_REFUSED (k / 2) 1
    else
      let s := (s.set R.MHB_RET_ENTRY_VALID i 1).set (if k % 2 = 0 then R.MHB_RET_STATUS_USED0 else R.MHB_RET_STATUS_USED1) (k / 2) (used + 1)
      (s.uncache (k * 24576 + page)).recount

/-- RETIRE_PAGE (R206): a write of an entry of a stack's retirement table. -/
def execRetirePage (stack : Fin 16) (entry : Fin 1024) (value : BitVec 32) (s : State) : Host.Outcome State Fault Refusal :=
  s.byHostHw fun h => h.retirePage stack.val entry.val value.toNat

/-- A write of loft retirement entry `e` (R211). -/
def Hw.retireLoft (s : Hw) (e v : Nat) : Hw :=
  let g := v % 2 ^ 20
  if s.is R.MHB_LOFT_RET_ENTRY_VALID e then s
  else
    let used := s.loftRetired.length
    let twice := s.loftRetired.contains g
    let s := s.set R.MHB_LOFT_RET_ENTRY_GRANULE e g
    if !(bit v 31) then s
    else if (loftEnd s.loftTib - loftBase) / granule ≤ g ∨ twice then s.set R.MHB_LOFT_RET_STATUS_REFUSED 0 1
    else ((s.set R.MHB_LOFT_RET_ENTRY_VALID e 1).set R.MHB_LOFT_RET_STATUS_USED 0 (used + 1)).recount

/-- LOFT_RETIRE (R211): a write of an entry of the loft retirement table. -/
def execLoftRetire (entry : Fin 4096) (value : BitVec 32) (s : State) : Host.Outcome State Fault Refusal :=
  s.byHostHw fun h => h.retireLoft entry.val value.toNat

/-- Whether a line belongs to the memory a scrubber reads: a hub's two stacks, or the loft lines of a TD die (R209). -/
def ScrubUnit.holds (u : ScrubUnit) (l : Nat) : Bool :=
  let a := l * 64
  match u with
  | .hub m => decide (a < hbmEnd) && a / stackSize / 2 == m.val
  | .loft k => decide (loftBase ≤ a) && decide (a < spdBase) && bits (a - loftBase) 12 1 == k.val

/-- PATROL_SCRUB (R205, R211): a pass over every line of a hub's stacks, or of a TD die's loft lines: corrected lines are
rewritten and counted, uncorrectable ones poisoned and logged. -/
def execPatrolScrub (u : ScrubUnit) (upsets : List Upset) (s : State) : Host.Outcome State Fault Refusal :=
  s.run fun r =>
    if r.hw.mgt.phase ≠ .run then r
    else
      let r := r.on fun s => s.upset upsets
      let found := r.hw.dev.soft.filter fun kv : Nat × Nat => ScrubUnit.holds u kv.1
      let fixed := (found.filter fun kv => kv.2 == 1).length
      let r := r.each found fun kv r => r.senseLine kv.1 kv.2
      match u with
      | .hub m => r.on fun s => s.inc R.MHB_ECC_UE_PATROL_FIX m.val fixed
      | .loft _ => r

end Sys2Proof.Machine
end

