-- ==== Sys2Proof/Machine/Refetch.lean ====
section
/-! DEFINITION. Refetch of unavailable blocks (Section 6 of 13_faults_reset.md). -/

namespace Sys2Proof.Machine

/-- Entry `e` of hub `u`'s list. -/
def Hw.unavAt (s : Hw) (u e : Nat) : Option Unavail := (Tbl.get [] u s.dev.unav)[e]?

/-- Entry `e` of hub `u`'s list changed. -/
def Hw.modUnav (s : Hw) (u e : Nat) (f : Unavail → Unavail) : Hw :=
  { s with dev.unav := Tbl.set [] u ((Tbl.get [] u s.dev.unav).modify e f) s.dev.unav }

/-- Entry `e` of hub `u`'s list removed. -/
def Hw.dropUnav (s : Hw) (u e : Nat) : Hw :=
  ({ s with dev.unav := Tbl.set [] u ((Tbl.get [] u s.dev.unav).eraseIdx e) s.dev.unav }).showUnav u

/-- A block read again by its hub, which reads for no pen: whether it decodes with a CRC that matches and no poisoned line (R356). -/
def Run.blockGood (r : Run) (hdr i : Nat) : Run × Bool :=
  let (hb, hm, r) := r.memRead .device hdr 256
  let h := CwHdr.of hb
  let (ib, im, r) := r.memRead .device (hdr + h.idx + 4 * i) 8
  if hm ≠ 0 ∨ !(cwHdrOk hdr hb) ∨ h.nblk ≤ i then (r, false)
  else match blkExt (fld ib 0 4) (fld ib 4 4) with
    | none => (r, false)
    | some (o, n) =>
      let (bs, bm, r) := r.memRead .device (hdr + h.data + 16 * o) n
      (r, (blkDecode h i (fld ib 0 4) o bs (im ||| bm != 0)).ev == .ok)

/-- REFETCH_FAIL: logged and counted; the entry stays, in state FAILED (R356). -/
def Hw.refetchFail (s : Hw) (u e : Nat) (x : Unavail) : Hw :=
  (((s.log E.REFETCH_FAIL { kind := 1, unit := u, addr := x.hdr, detail := x.block }).inc R.ERR_RF_DONE_FAILED).modUnav u e fun y =>
    { y with state := 3, src := none })

/-- The block of an entry decoded again after a refetch. -/
def Run.recheck (r : Run) (u e : Nat) : Run := match r.hw.unavAt u e with
  | none => r
  | some x =>
    let (r, good) := r.blockGood x.hdr x.block
    if good then r.on fun s => (s.dropUnav u e).inc R.ERR_RF_DONE_DONE else r.on fun s => s.refetchFail u e x

/-- A write of ERR_RF_CTRL.GO: a host refetch of the selected entry begins where its reads lie inside the PF's windows. -/
def Hw.refetchGo (s : Hw) : Hw :=
  let u := s.get R.ERR_RF_SEL_HUB
  let e := s.get R.ERR_RF_SEL_ENTRY
  match s.unavAt u e with
  | none => s
  | some x =>
    let src := s.get R.ERR_RF_SRC_ADDR
    if x.state ≠ 2 ∨ x.src.isSome then s
    else match x.need.find? fun n => !(s.dmaOk 0 (src + n.1 - x.hdr) n.2 false) with
      | some n => s.dmaReject 0 (src + n.1 - x.hdr) false
      | none => s.modUnav u e fun y => { y with src := some src }

/-- REFETCH_GO (R355). -/
def execRefetchGo (s : State) : Host.Outcome State Fault Refusal := s.byHostHw fun h => h.refetchGo

/-- HOST_REFETCH_DONE (R355, R356): the lines written whole, poisoned where the read failed, and the block decoded again. -/
def execHostRefetchDone (m : HubId) (entry : Fin 64) (res : Completion) (s : State) : Host.Outcome State Fault Refusal :=
  s.run fun r => match r.hw.unavAt m.val entry.val with
    | none => r
    | some x => match x.src with
      | none => r
      | some src =>
        let r := r.on fun s => s.cplErr res
        let r := r.each x.need fun n r => r.memWrite n.1 (r.readHost (src + n.1 - x.hdr) n.2) (if res = .ok then 0 else 1)
        let r := r.on fun s => s.modUnav m.val entry.val fun y => { y with need := [], src := none }
        r.recheck m.val entry.val

/-- REFETCH_TIMEOUT (R356): no refetch has passed within 8 frames of listing. -/
def execRefetchTimeout (m : HubId) (entry : Fin 64) (s : State) : Host.Outcome State Fault Refusal :=
  s.onHw fun h => match h.unavAt m.val entry.val with
    | none => h
    | some x => if x.state ≠ 3 ∧ x.listed + 8 ≤ h.clk.frame then h.refetchFail m.val entry.val x else h

/-- The entry, asked of the partner, that a range belongs to. -/
def Hw.unavOf (s : Hw) (a n : Nat) : Option (Nat × Nat) :=
  (List.range 8).findSome? fun u =>
    ((Tbl.get [] u s.dev.unav).findIdx? fun x => x.state == 1 && x.need.contains (a, n)).map fun e => (u, e)

/-- FETCH_DONE (R356): one part of a refetch range is back; with the last one the block is decoded again. -/
def execFetchDone (l : LinkId) (raw : Bytes) (udpOk ce : Bool) (s : State) : Host.Outcome State Fault Refusal :=
  s.run fun r => r.yokeRx l.val 7 6 raw udpOk ce ctrlPen fun _ k r =>
    let a := fld k.payload 0x10 8
    let n := fld k.payload 0xC 4
    match r.hw.unavOf a n with
    | none => r
    | some (u, e) =>
      let r := r.on fun s => s.modUnav u e fun y => { y with need := y.need.filter (· != (a, n)) }
      match (r.hw.unavAt u e).map (·.need) with
      | some [] => r.recheck u e
      | _ => r

/-- FETCH_NAK (R355): the entry is left to the host. -/
def execFetchNak (l : LinkId) (raw : Bytes) (udpOk ce : Bool) (s : State) : Host.Outcome State Fault Refusal :=
  s.run fun r => r.yokeRx l.val 7 7 raw udpOk ce ctrlPen fun _ k r =>
    match r.hw.unavOf (fld k.payload 0x10 8) (fld k.payload 0xC 4) with
    | none => r
    | some (u, e) => r.on fun s => (s.modUnav u e fun y => { y with state := 2 }).msi 0 2

end Sys2Proof.Machine
end

