-- ==== Sys2Proof/Machine/Reset.lean ====
section
/-! DEFINITION. Device reset and crash dumps (Section 7 of 13_faults_reset.md), the sheepdog's reset, and what the log sends on:
the flash log, platform events, CE_STORM. -/

namespace Sys2Proof.Machine

/-! ## Dumps (R359, R360) -/

/-- A byte of a dump whose layout is not stated. -/
def openByte (seed i : Nat) : Byte := BitVec.ofNat 8 (Config.pick 40 seed i)

/-- The 16 bytes of a trace entry (R359). -/
def Trace.bytes (t : Trace) : Bytes :=
  leBytes 4 t.tNs ++ leBytes 1 t.kind ++ leBytes 1 t.pen ++ leBytes 1 t.stall ++ leBytes 1 t.engine ++ leBytes 4 t.task ++ leBytes 4 t.arg

/-- Rows laid from an offset on; bytes after the last row are open. -/
def Dump.rows (seed off size : Nat) (rows : List Bytes) (i : Nat) : Byte :=
  match rows[(i - off) / size]? with
  | some b => (b[(i - off) % size]?).getD 0
  | none => openByte seed i

/-- Bytes of a dump. -/
def Dump.size (d : Dump) : Nat := if d.full then 0x4000000 else 0x4000

/-- Byte `i` of a dump (Table 13.8, R360): error records and trace, the oldest first, at their offsets; the other sections have
no stated layout (log 37). -/
def Dump.byte (d : Dump) (i : Nat) : Byte :=
  let rs := d.recs.map Rec.bytes
  let ts := d.trace.map Trace.bytes
  if d.full then
    if 0x1800000 ≤ i ∧ i < 0x1A00000 then Dump.rows d.seed 0x1800000 16 ts i
    else if 0x3200000 ≤ i ∧ i < 0x3600000 then Dump.rows d.seed 0x3200000 64 rs i
    else openByte d.seed i
  else if 0x100 ≤ i ∧ i < 0x2100 then Dump.rows d.seed 0x100 64 rs i
  else if 0x3100 ≤ i then Dump.rows d.seed 0x3100 16 ts i
  else openByte d.seed i

/-- Bytes of a dump from an offset on. -/
def Dump.slice (d : Dump) (off n : Nat) : Bytes := (List.range (min n (d.size - off))).map fun i => d.byte (off + i)

/-- The slot a new dump takes: an empty one, else the oldest of its kind. -/
def dumpSlot (n : Nat) (t : Tbl Dump) : Nat :=
  match (List.range n).find? fun i => (Tbl.find? i t).isNone with
  | some i => i
  | none => ((leastBy (fun kv : Nat × Dump => kv.2.num) t).map (·.1)).getD 0

/-- What the crash-dump writer captures: records not yet in the flash log, then the flash log's (full) or the 128 oldest of the
first (short); the newest trace entries. -/
def Hw.capture (s : Hw) (full : Bool) : Dump × Hw :=
  let (v, s) := s.draw
  let l := s.mgt.log
  let recs := if full then ((l.toFl.reverse ++ l.flash.map (·.1)).take 65536).reverse else l.toFl.take 128
  let num := ((s.mgt.dumps ++ s.mgt.shorts).foldl (fun m kv => max m kv.2.num) 0) + 1
  ({ full := full, num := num, cause := s.mgt.rst.cause, seq := s.mgt.rst.seq, frame := s.mgt.rst.frame, recs := recs,
     trace := (if full then s.dev.trace else s.dev.trace.take 240).reverse, regs := s.regs, dev := s.dev, seed := v }, s)

/-- The dump slots as ERR_DUMP_STATUS shows them. -/
def Hw.showDumps (s : Hw) : Hw :=
  let mask := fun (t : Tbl Dump) => (t.map fun kv : Nat × Dump => 2 ^ kv.1).sum
  (s.set R.ERR_DUMP_STATUS_VALID 0 (mask s.mgt.dumps)).set R.ERR_DUMP_STATUS_SHORT_VALID 0 (mask s.mgt.shorts)

/-- A dump written to flash. -/
def Hw.writeDump (s : Hw) (d : Dump) : Hw :=
  let s := if d.full then { s with mgt.dumps := Tbl.insert (dumpSlot 2 s.mgt.dumps) d s.mgt.dumps }
    else { s with mgt.shorts := Tbl.insert (dumpSlot 4 s.mgt.shorts) d s.mgt.shorts }
  s.showDumps.set R.ERR_STATUS_DUMP_NEW 0 1

/-! ## The sheepdog's reset (R344) -/

/-- The sheepdog domain goes into reset: its interfaces are silent, sessions, an update in progress, a dump copy and a key record
under way are gone; the bank an update was writing stays empty (R375); a trial is spoilt (R377). -/
def Hw.sdgDown (s : Hw) : Hw :=
  let m := s.mgt
  let banks := match m.update with
    | some u => if u.busy then Tbl.erase u.slot m.banks else m.banks
    | none => m.banks
  let s := { s with mgt := { m with sdgUp := false, banks := banks, update := none, events := false, copy := none, keyRec := none, arcTo := none, spdm := [],
                                    spoilt := m.spoilt || m.trial.isSome, log := { m.log with toFl := [], events := [] } } }
  (((((((s.set R.SDG_STATUS_STATE 0 2).set R.SDG_STATUS_EID_VALID 0 0).set R.SDG_MGMT_MODE 0 0).set R.SDG_MGMT_I3C_DA 0 0).set R.SDG_MGMT_EID 0 0).inc
    R.SDG_STATUS_RESETS).set R.ERR_DUMP_STATUS_BUSY 0 0).set R.SEC_KEY_CTRL_APPLY 0 0

/-- SDG_RESET: the sheepdog's watchdog is not serviced for 1 s (Table 13.5). Its record waits until the sheepdog runs again. -/
def execSdgReset (s : State) : Host.Outcome State Fault Refusal :=
  s.onHw fun h => if h.mgt.sdgUp then h.sdgDown.log E.SDG_RESET { kind := 5 } else h

/-! ## Device reset (R344, R358) -/

/-- Registers a device reset leaves: the sheepdog's blocks, what the sheepdog keeps of the error log and the dumps, the causes of
the last resets, and the conditions and temperatures that hold on. -/
def keptFlds : List Fld :=
  [R.ERR_STATUS_LOG_OVERFLOW, R.ERR_STATUS_SDG_RESET, R.ERR_STATUS_DUMP_NEW, R.ERR_STATUS_LAST_DEV_RESET, R.ERR_LOG_SEQ_NEWEST, R.ERR_LOG_MIN_OLDEST,
   R.ERR_DUMP_STATUS_VALID, R.ERR_DUMP_STATUS_SHORT_VALID, R.PWR_STATUS_SAG_WARN, R.PWR_STATUS_SAG_CAUSE, R.PWR_STATUS_CLAMP,
   R.PWR_STATUS_LAST_SUPPLY_RESET, R.PWR_VIN_VIN, R.PWR_IIN_IIN, R.PWR_PIN_P_MEAS, R.THM_STATUS_TRIP_ANY, R.THM_STATUS_LAST_RESET_CRIT, R.THM_CT_TEMP_C,
   R.THM_CT_LEVEL, R.THM_ZONE_TRIP, R.THM_DIE_TEMP_C, R.THM_DIE_TRIP, R.MHB_STATUS_THR_LEVEL, R.MHB_STATUS_HOT_REFRESH0,
   R.MHB_STATUS_HOT_REFRESH1, R.MHB_STATUS_ACLK_CAP, R.MHB_TEMP_STACK0_C, R.MHB_TEMP_STACK1_C, R.MHB_TEMP_HUB_C, R.MHB_TEMP_ZONE_C,
   R.HIF_MODULE_ID_STEPPING, R.HIF_MODULE_ID_LOFT_TIB, R.HIF_MODULE_ID_VARIANT, R.HIF_MODULE_ID_MODEL, R.HIF_PORT_BIFUR]

/-- Whether a field, by number, outlives a device reset. -/
def keptId (i : Nat) : Bool := (decide (R.SDG_STATUS_STATE.id ≤ i) && decide (i ≤ R.SEC_KEY_CTRL_ERR.id)) || keptFlds.any fun f => f.id == i

/-- Every die but MG resets: nothing of the device's state is left, memory reads 0 again, the tick stops; the levels of the port
pins stay. The records in the dies' own buffers are gone. -/
def Run.diesReset (r : Run) : Run :=
  (r.post (.zero 0 (2 ^ 48))).on fun s =>
    let s := { s with dev := { ports := s.dev.ports }, latch := [], clk := { now := s.clk.now },
                      mgt := { s.mgt with copy := none, keyRec := none, log := { s.mgt.log with buf := s.mgt.log.buf.filter fun kv => kv.1 == 39 },
                                          pwr := { s.mgt.pwr with lowUs := 0, overUs := 0, raw := 0, meas := 0, droop := [] } } }
    (s.resetFields keptId).set R.SEC_KEY_CTRL_APPLY 0 0

/-- The timestamp now: the value last set, running in ns (R399; log 38). -/
def Hw.timestamp (s : Hw) : Nat := s.mgt.stamp.1 + (s.clk.now - s.mgt.stamp.2) * 10

/-- Every record that MG has taken is in the flash log (R342). -/
def Hw.flushLog (s : Hw) : Hw :=
  let l := s.mgt.log
  { s with mgt.log := { l with toFl := [], flash := ((l.toFl.reverse.map fun x => (x, s.timestamp)) ++ l.flash).take 65536 } }

/-- A pending bank takes the sheepdog domain along (R376), once the records that MG has taken are in flash: that is 10 ms at most
(R342). -/
def Hw.takePending (s : Hw) : Hw := if s.is R.SEC_FW_PENDING_PENDING then s.flushLog.sdgDown else s

/-- Whether a device reset of a cause does nothing: one that finds the dies without power or with a dump under way adds nothing
unless the supply fails (R346); a dark module has no causes. -/
def Hw.absorbs (s : Hw) (cause : Nat) : Bool :=
  let supply := decide (1 ≤ cause) && decide (cause ≤ 4)
  s.mgt.phase == .dark || (!supply && (s.mgt.phase == .reset || s.mgt.phase == .capture || s.mgt.phase == .dump))

/-- A device reset of a cause (R358). Supply causes and THERMAL_CRITICAL write the short dump on the hold-up rail and leave the
dies without power; causes 5 and 6 capture for a full dump, which DUMP_WRITE_DONE puts into flash, unless NO_DUMP; cause 7
writes none. A supply cause that finds the dies without power is one more that the boot waits for, and has nothing to dump: a cool-down
goes on (R334), and so does a SAG_RESET or OV_RESET in force (R316). -/
def Run.deviceReset (r : Run) (cause : Nat) (noDump : Bool := false) : Run :=
  let supply := decide (1 ≤ cause) && decide (cause ≤ 4)
  if r.hw.absorbs cause then r
  else
    let s := r.hw
    let off := s.mgt.phase == .reset
    let hot := cause == 4 || (off && s.mgt.rst.hot)
    let rst : DevReset := { cause := cause, seq := s.get R.ERR_LOG_SEQ_NEWEST, frame := s.clk.frame, start := s.clk.now,
                            clear := if hot then none else if cause = 3 then some (s.clk.now + 2000) else some s.clk.now,
                            hot := hot, sag := cause == 1 || cause == 2 || (off && s.mgt.rst.sag) }
    let s := ({ s with mgt.rst := rst }).set R.ERR_STATUS_LAST_DEV_RESET 0 cause
    let s := s.set R.THM_STATUS_LAST_RESET_CRIT 0 (if cause = 4 ∨ (off && s.is R.THM_STATUS_LAST_RESET_CRIT) = true then 1 else 0)
    let s := if 1 ≤ cause ∧ cause ≤ 3 then s.set R.PWR_STATUS_LAST_SUPPLY_RESET 0 cause else s
    let full := decide (5 ≤ cause) && decide (cause ≤ 6) && !noDump
    if off then { r with hw := s }
    else if supply then
      let (d, s) := s.capture false
      let r := ({ r with hw := s }).diesReset.on fun s => s.writeDump d
      r.on fun s => ({ s with mgt.phase := .reset }).takePending
    else if full then
      let (d, s) := s.capture true
      ({ r with hw := s }).diesReset.on fun s => { s with mgt.phase := .capture, mgt.rst := { s.mgt.rst with cap := some d } }
    else ({ r with hw := s }).diesReset.on fun s => ({ s with mgt.phase := .boot }).takePending

/-- A device-fatal record: logged, sent as an event at once (R366), a trial spoilt (R377), and the device reset. -/
def Run.deviceFatal (r : Run) (e : Err) (a : LogArg) (cause : Nat) (noDump : Bool := false) : Run :=
  if r.hw.absorbs cause then r
  else
    let r := r.on fun s =>
      let s := s.log e { a with flags := a.flags ||| (if noDump then 0 else 2) }
      let s := { s with mgt := { s.mgt with spoilt := s.mgt.spoilt || s.mgt.trial.isSome } }
      match s.mgt.log.events.find? fun x => x.seq == s.get R.ERR_LOG_SEQ_NEWEST && x.cls == 3 with
      | some x => { s.emit (.msg 1 0x0A 0 x.bytes) with mgt.log := { s.mgt.log with events := s.mgt.log.events.filter fun y => y.seq != x.seq } }
      | none => s
    r.deviceReset cause noDump

/-- SRC_KIND and SRC_UNIT of a die: 0 to 23 CT, 24 to 31 MH, 32 to 35 LK, 36 and 37 TD, 38 HX, 39 MG (Table 13.2). -/
def dieSource (d : Nat) : Nat × Nat :=
  if d < 24 then (6, d) else if d < 32 then (1, d - 24) else if d < 36 then (2, d - 32) else if d < 38 then (3, d - 36)
  else if d < 39 then (4, 0) else (5, 0)

/-- Whether the dies have power and clock. -/
def Hw.diesUp (s : Hw) : Bool := s.mgt.phase == .run || s.mgt.phase == .boot

/-- FABRIC_UE (R345): on a port of a CT die, the die's pens are fenced and its stalls in no pen are reset; elsewhere the device
is reset. -/
def execFabricUe (die : Fin 40) (s : State) : Host.Outcome State Fault Refusal :=
  s.run fun r =>
    let (k, u) := dieSource die.val
    if !r.hw.diesUp then r
    else if k = 6 then
      let stalls := (List.range 8).map (8 * u + ·)
      let pens := r.hw.penList.filter fun p => stalls.any fun n => (r.hw.penStalls p).contains n
      let r := r.on fun s => s.fence E.FABRIC_UE_CT { kind := 6, unit := u } pens 3 0
      r.each (stalls.filter fun n => (r.hw.penOf n).isNone) fun n r => r.resetStall n
    else r.deviceFatal E.FABRIC_UE_DEV { kind := k, unit := u } 5

/-- DIE_FATAL (R345): uncorrectable state or clock loss in an MH, LK, TD or HX die; no CT or MG die raises it. -/
def execDieFatal (die : Fin 40) (s : State) : Host.Outcome State Fault Refusal :=
  s.run fun r =>
    let (k, u) := dieSource die.val
    if k = 6 ∨ k = 5 ∨ !r.hw.diesUp then r else r.deviceFatal E.DIE_FATAL { kind := k, unit := u } 5

/-- A write of ERR_DEV_CTRL with RESET = 1 and the key (R358). -/
def Run.hostReset (r : Run) (noDump : Bool) : Run := r.deviceFatal E.HOST_RESET { kind := 4 } 6 noDump

/-- HOST_RESET. -/
def execHostReset (noDump : Bool) (s : State) : Host.Outcome State Fault Refusal :=
  s.byHost fun r => r.hostReset noDump

/-- CRASH_CAPTURE_DONE (Table 13.7). -/
def execCrashCaptureDone (s : State) : Host.Outcome State Fault Refusal :=
  s.onHw fun h => if h.mgt.phase = .capture then { h with mgt.phase := .dump } else h

/-- DUMP_WRITE_DONE: the dump lies in the older slot, and the dies reset and boot (Table 13.7). -/
def execDumpWriteDone (s : State) : Host.Outcome State Fault Refusal :=
  s.onHw fun h => match h.mgt.phase, h.mgt.rst.cap with
    | .dump, some d =>
      let h := h.writeDump d
      ({ h with mgt := { h.mgt with phase := .boot, rst := { h.mgt.rst with cap := none } } }).takePending
    | _, _ => h

/-! ## Dump copies (R361) -/

/-- The dump a SOURCE names. -/
def Hw.dumpOf (s : Hw) (src : Nat) : Option Dump :=
  if src < 2 then Tbl.find? src s.mgt.dumps else if src < 6 then Tbl.find? (src - 2) s.mgt.shorts else none

/-- A write of ERR_DUMP_CTRL with COPY = 1: the copy starts, or fails where its destination is bad or the slot holds none; one
that finds a copy under way is discarded (log 37). -/
def Hw.dumpCopy (s : Hw) : Hw :=
  let s := s.set R.ERR_DUMP_CTRL_COPY 0 0
  let src := s.get R.ERR_DUMP_CTRL_SOURCE
  let dst := s.get R.ERR_DUMP_DST_ADDR
  let fail := fun s : Hw => (s.set R.ERR_DUMP_STATUS_COPY_FAIL 0 1).msi 0 8
  if !s.mgt.sdgUp || s.mgt.copy.isSome then s
  else match s.dumpOf src with
    | none => fail s
    | some d =>
      if dst % 4096 ≠ 0 then fail s
      else if !(s.dmaOk 0 dst d.size true) then fail (s.dmaReject 0 dst true)
      else ({ s with mgt.copy := some (src, dst) }).set R.ERR_DUMP_STATUS_BUSY 0 1

/-- DUMP_COPY. -/
def execDumpCopy (s : State) : Host.Outcome State Fault Refusal := s.byHostHw fun h => h.dumpCopy

/-- DUMP_COPY_DONE: the dump's bytes lie in host memory. -/
def execDumpCopyDone (s : State) : Host.Outcome State Fault Refusal :=
  s.run fun r => match r.hw.mgt.copy with
    | none => r
    | some (src, dst) => match r.hw.dumpOf src with
      | none => r
      | some d => (r.writeHost dst (d.slice 0 d.size)).on fun s =>
          ((({ s with mgt.copy := none }).set R.ERR_DUMP_STATUS_BUSY 0 0).set R.ERR_DUMP_STATUS_COPY_DONE 0 1).msi 0 8

/-! ## What the log sends on -/

/-- FLASH_LOG_WRITE (R342): the oldest record not yet in the flash log is written with the timestamp; the 65,536 newest stay. -/
def execFlashLogWrite (s : State) : Host.Outcome State Fault Refusal :=
  s.onHw fun h => match h.mgt.sdgUp, h.mgt.log.toFl with
    | true, x :: rest => { h with mgt.log := { h.mgt.log with toFl := rest, flash := ((x, h.timestamp) :: h.mgt.log.flash).take 65536 } }
    | _, _ => h

/-- PLATFORM_EVENT_SEND (R366): the oldest record not yet reported leaves as a PlatformEventMessage, or is dropped where the
transmit queue has no room. -/
def execPlatformEventSend (room : Bool) (s : State) : Host.Outcome State Fault Refusal :=
  s.onHw fun h => match h.mgt.sdgUp, h.mgt.log.events with
    | true, x :: rest =>
      let h := { h with mgt.log := { h.mgt.log with events := rest } }
      if room then h.emit (.msg 1 0x0A 0 x.bytes) else h
    | _, _ => h

/-- Corrected errors of a unit in its last second with one. What a link's FEC corrects is met by no other command, so CE_STORM brings
it: `fec` codewords in the second that has not been judged yet (log 41). -/
def Hw.ceOf (s : Hw) (kind unit fec : Nat) : CeCount :=
  let x := Tbl.get {} (256 * kind + unit) s.dev.ce
  if kind = 7 ∧ x.sec ≠ s.clk.now / second then { sec := s.clk.now / second, count := fec } else x

/-- CE_STORM (R340): a unit whose corrected count of a second exceeds the threshold is logged, once for that second. -/
def execCeStorm (kind : Fin 8) (unit : Fin 192) (fec : Nat) (s : State) : Host.Outcome State Fault Refusal :=
  s.onHw fun h =>
    let x := h.ceOf kind.val unit.val fec
    if !h.diesUp || x.logged || decide (x.count ≤ h.get R.ERR_CE_THRESH_PER_S) then h
    else
      let h := { h with dev.ce := Tbl.set {} (256 * kind.val + unit.val) { x with logged := true } h.dev.ce }
      (h.log E.CE_STORM { kind := kind.val, unit := unit.val, detail := x.count }).inc R.ERR_COUNTS2_CE_STORM

end Sys2Proof.Machine
end

