-- ==== Sys2Proof/Machine/Power.lean ====
section
/-! DEFINITION. Supply conditions, power estimate and measurement, the cap loop, the current clamp and droop (Sections 1 to 4 of
12_power_thermal.md). -/

namespace Sys2Proof.Machine

/-- Whether the module has power: MG's fixed logic runs (R338, R363). -/
def Hw.lit (s : Hw) : Bool := s.mgt.phase != .dark

/-- A non-fatal record of MG, logged at most once in a period of reference cycles. -/
def Hw.logRate (s : Hw) (e : Err) (period : Nat) : Hw := match Tbl.find? e.code s.mgt.pwr.lastLog with
  | some t => if t + period ≤ s.clk.now then
      ({ s with mgt.pwr := { s.mgt.pwr with lastLog := Tbl.insert e.code s.clk.now s.mgt.pwr.lastLog } }).log e { kind := 5 } else s
  | none => ({ s with mgt.pwr := { s.mgt.pwr with lastLog := Tbl.insert e.code s.clk.now s.mgt.pwr.lastLog } }).log e { kind := 5 }

/-- A quotient whose rounding is not stated: one of its two neighbours (log 20). -/
def openDiv (num den : Nat) : Nat := num / den + (if num % den = 0 then 0 else Config.pick 41 num den % 2)

/-! ## Cap loop (R323 to R325) -/

/-- The limit of the loop in mW: the cap, or SAG_ILIM times the input voltage while SAG_WARN holds. -/
def Hw.loopLimit (s : Hw) : Nat :=
  if s.is R.PWR_STATUS_SAG_WARN then s.get R.PWR_SAG_ILIM_ILIM_A * s.get R.PWR_VIN_VIN * 10 else s.get R.PWR_CAP_CAP_W * 1000

/-- The target set; above F_assured, CAP_HELD clears. -/
def Hw.setTarget (s : Hw) (f : Nat) : Hw :=
  let s := s.set R.PWR_STATUS_ACLK_MHZ 0 f
  if fAssured < f then s.set R.PWR_STATUS_CAP_HELD 0 0 else s

/-- `n` steps of 25 MHz down, not below the floor; a target at the floor stays. -/
def Hw.stepDown (s : Hw) (n : Nat) : Hw :=
  s.setTarget (max (if s.is R.PWR_STATUS_SAG_WARN then fTrip else fAssured) (s.get R.PWR_STATUS_ACLK_MHZ - 25 * n))

/-- A step up, not above F_max, nor above F_assured while SAG_WARN holds. -/
def Hw.stepUp (s : Hw) : Hw :=
  let top := if s.is R.PWR_STATUS_SAG_WARN then fAssured else fMax
  if s.get R.PWR_STATUS_ACLK_MHZ < top then s.setTarget (min top (s.get R.PWR_STATUS_ACLK_MHZ + 25)) else s

/-- Run lengths of the loop changed. -/
def Hw.modPwr (s : Hw) (f : Power → Power) : Hw := { s with mgt.pwr := f s.mgt.pwr }

/-- The loop's decision for an estimate of `e` (2^-14 pJ in 1 µs); while the clamp holds it waits (R326). -/
def Hw.loopStep (s : Hw) (e : Nat) : Hw :=
  let limit := s.loopLimit * milliwatt
  if s.is R.PWR_STATUS_CLAMP then s.modPwr fun p => { p with lowUs := 0 }
  else if limit < e then (s.modPwr fun p => { p with lowUs := 0 }).stepDown 1
  else if 100 * e ≤ 97 * limit then
    if 50 ≤ s.mgt.pwr.lowUs + 1 then (s.modPwr fun p => { p with lowUs := 0 }).stepUp
    else s.modPwr fun p => { p with lowUs := p.lowUs + 1 }
  else s.modPwr fun p => { p with lowUs := 0 }

/-- How long the estimate has stayed above the cap at 1,300 MHz, outside SAG_WARN; CAP_HELD clears at an estimate within the
cap (R325). -/
def Hw.capWatch (s : Hw) (e : Nat) : Hw :=
  let ovr := decide (s.get R.PWR_CAP_CAP_W * 1000 * milliwatt < e)
  let s := if ovr then s else s.set R.PWR_STATUS_CAP_HELD 0 0
  if ovr && s.get R.PWR_STATUS_ACLK_MHZ == fAssured && !s.is R.PWR_STATUS_SAG_WARN then s.modPwr fun p => { p with overUs := p.overUs + 1 }
  else s.modPwr fun p => { p with overUs := 0 }

/-- POWER_ESTIMATE (R321, R324, R336): one microsecond's estimate from the activity counts of the dies, each attributed to its account;
static power is the device's. -/
def execPowerEstimate (counts : List ActCount) (s : State) : Host.Outcome State Fault Refusal :=
  s.onHw fun h =>
    if !h.diesUp then h
    else
      let raw := h.rawEnergy counts
      let e := raw * h.get R.PWR_CAL_GAIN
      let h := (h.each counts fun c h => h.attribute c).charge 0 (h.staticEnergy * h.get R.PWR_CAL_GAIN)
      let h := h.modPwr fun p => { p with raw := p.raw + raw }
      let h := h.set R.PWR_PIN_P_EST 0 (min (openDiv e (1000 * milliwatt)) 0xFFFF)
      ((h.capWatch e).loopStep e).clocked

/-- POWER_MEASURE (R322, R324): voltage in 10 mV, current in 2 mA, power in mW, averaged over the 100 µs. The calibration window takes
the measured energy while the estimate runs. -/
def execPowerMeasure (vin iin : Fin 65536) (mw : Nat) (s : State) : Host.Outcome State Fault Refusal :=
  s.onHw fun h =>
    if !h.lit then h
    else
      let h := (h.set R.PWR_VIN_VIN 0 vin.val).set R.PWR_IIN_IIN 0 iin.val
      let h := h.set R.PWR_PIN_P_MEAS 0 (min (openDiv mw 1000) 0xFFFF)
      let h := h.set R.PWR_SAG_MIN_VIN 0 (min (h.get R.PWR_SAG_MIN_VIN) vin.val)
      let h := if h.diesUp then h.modPwr fun p => { p with meas := p.meas + mw * 100000 } else h
      if h.diesUp && !h.is R.PWR_STATUS_CLAMP && decide (h.loopLimit < mw) then (h.stepDown 2).clocked else h

/-- POWER_CALIBRATE (R322): G moves a quarter of the way to E_meas / E_raw where that lies in 0.75 to 1.5; it is held while the sheepdog
does not run (R344). -/
def execPowerCalibrate (s : State) : Host.Outcome State Fault Refusal :=
  s.onHw fun h =>
    if !h.diesUp then h
    else
      let (meas, raw) := (h.mgt.pwr.meas, h.mgt.pwr.raw)
      let h := h.modPwr fun p => { p with meas := 0, raw := 0 }
      if !h.mgt.sdgUp then h
      else if 0 < raw ∧ 3 * raw ≤ 4 * meas ∧ 2 * meas ≤ 3 * raw then
        (h.set R.PWR_CAL_GAIN 0 (openDiv (3 * h.get R.PWR_CAL_GAIN * raw + meas * 2 ^ 14) (4 * raw))).set R.PWR_STATUS_CAL_VALID 0 1
      else h.logRate E.PWR_CAL_RANGE second

/-- POWER_CAP_HELD (R325). -/
def execPowerCapHeld (s : State) : Host.Outcome State Fault Refusal :=
  s.onHw fun h =>
    if h.diesUp && decide (100 ≤ h.mgt.pwr.overUs) && !h.is R.PWR_STATUS_CAP_HELD then
      ((h.set R.PWR_STATUS_CAP_HELD 0 1).inc R.PWR_COUNTS_CAP_HELD).logRate E.POWER_CAP_HELD second
    else h

/-- The cap written, held within 2,900 to 3,200 W (R323). -/
def Hw.setCap (s : Hw) (w : Nat) : Hw := s.set R.PWR_CAP_CAP_W 0 (min (max w 2900) 3200)

/-- CAP_WRITE: the word written to PWR_CAP. -/
def execCapWrite (value : BitVec 32) (s : State) : Host.Outcome State Fault Refusal :=
  s.byHostHw fun h => h.setCap (bits value.toNat 0 12)

/-! ## Current clamp (R326, R327) -/

/-- POWER_CLAMP. -/
def execPowerClamp (s : State) : Host.Outcome State Fault Refusal :=
  s.onHw fun h =>
    if h.diesUp && !h.is R.PWR_STATUS_CLAMP then
      let h := ((h.set R.PWR_STATUS_CLAMP 0 1).inc R.PWR_COUNTS_CLAMP).modPwr fun p => { p with clampAt := some h.clk.now }
      (h.logRate E.POWER_CLAMP second).clocked
    else h

/-- CLAMP_RELEASE: the loop resumes from 1,300 MHz. -/
def execClampRelease (s : State) : Host.Outcome State Fault Refusal :=
  s.onHw fun h => match h.is R.PWR_STATUS_CLAMP, h.mgt.pwr.clampAt with
    | true, some t =>
      let h := (h.reach (t + 10000)).modPwr fun p => { p with clampAt := none }
      ((h.set R.PWR_STATUS_CLAMP 0 0).setTarget fAssured).clocked
    | _, _ => h

/-- POWER_OVERCURRENT: 10 ms after a clamp began the current is still above 66 A. -/
def execPowerOvercurrent (s : State) : Host.Outcome State Fault Refusal :=
  s.run fun r => match r.hw.is R.PWR_STATUS_CLAMP && r.hw.diesUp, r.hw.mgt.pwr.clampAt with
    | true, some t =>
      let r := r.on fun h => h.reach (t + 1000000)
      (r.deviceFatal E.POWER_OVERCURRENT { kind := 5 } 3).on fun h => (h.modPwr fun p => { p with clampAt := none }).set R.PWR_STATUS_CLAMP 0 0
    | _, _ => r

/-! ## Sag warning (R315 to R318, R408) -/

/-- Whether the input has lain on the release side of 48.0 and 65.0 V for 10 ms (Table 12.1). -/
def Hw.inputHeld (s : Hw) : Bool := match s.mgt.pwr.in48, s.mgt.pwr.in65 with
  | some a, some b => decide (max a b + 1000000 ≤ s.clk.now)
  | _, _ => false

/-- Whether the module itself drives SAG_N low (R316, R408). -/
def Hw.drivesSagN (s : Hw) : Bool :=
  (s.is R.PWR_STATUS_SAG_WARN && s.mgt.pwr.sample.isNone && !s.mgt.pwr.sagFree) ||
  (s.mgt.phase == .reset && s.mgt.rst.sag && !s.inputHeld)

/-- SAG_WARN enters (R317). -/
def Hw.enterSag (s : Hw) (cause : Nat) : Hw :=
  let s := (s.set R.PWR_STATUS_SAG_WARN 0 1).set R.PWR_STATUS_SAG_CAUSE 0 cause
  let s := s.modPwr fun p => { p with sagFrom := s.clk.now, sample := none, sagExt := false, sagFree := false, overUs := 0, lowUs := 0 }
  let s := s.set R.PWR_STATUS_CAP_HELD 0 0
  let s := if s.get R.PWR_STATUS_ACLK_MHZ > fAssured then s.setTarget fAssured else s
  (((s.log E.SAG_WARN { kind := 5 }).inc R.PWR_SAG_WARN).msi 0 4).limits

/-- SAG_WARN leaves: below F_assured the target returns to it (R324). -/
def Hw.leaveSag (s : Hw) : Hw :=
  let s := (s.set R.PWR_STATUS_SAG_WARN 0 0).modPwr fun p => { p with sample := none, sagExt := false, sagFree := false }
  let s := if s.get R.PWR_STATUS_ACLK_MHZ < fAssured then s.setTarget fAssured else s
  s.limits

/-- SAG_WARN: the input has stayed below 51.0 V, or SAG_N low from outside, for 2 µs. While it is in force a further dip only
restarts the release timer (R318), and the module drives the line again where its own input dipped (R316); an external low is not seen
while the module drives the line. -/
def execSagWarn (ext : Bool) (s : State) : Host.Outcome State Fault Refusal :=
  s.onHw fun h =>
    if !h.lit || (ext && h.drivesSagN) then h
    else
      let h := if ext then h else h.modPwr fun p => { p with in52 := none }
      if h.is R.PWR_STATUS_SAG_WARN then h.modPwr fun p => { p with sagFrom := h.clk.now, sample := none, sagExt := ext, sagFree := ext }
      else h.enterSag (if ext then 1 else 0)

/-- SAG_WARN_RELEASE: the release conditions have held for 1 ms; the module releases SAG_N and samples it, unless it released it
before. -/
def execSagWarnRelease (s : State) : Host.Outcome State Fault Refusal :=
  s.onHw fun h => match h.lit && h.is R.PWR_STATUS_SAG_WARN && h.mgt.pwr.sample.isNone && !h.mgt.pwr.sagExt, h.mgt.pwr.in52 with
    | true, some t =>
      let h := h.reach (max h.mgt.pwr.sagFrom t + 100000)
      if h.mgt.pwr.sagFree then h.leaveSag else h.modPwr fun p => { p with sample := some h.clk.now }
    | _, _ => h

/-- SAG_N_SAMPLE_END: a line low throughout the 2 µs keeps SAG_WARN, with cause 1. -/
def execSagNSampleEnd (low : Bool) (s : State) : Host.Outcome State Fault Refusal :=
  s.onHw fun h => match h.lit, h.mgt.pwr.sample with
    | true, some t =>
      let h := h.reach (t + 200)
      if low then
        (h.modPwr fun p => { p with sample := none, sagExt := true, sagFree := true, sagFrom := h.clk.now }).set R.PWR_STATUS_SAG_CAUSE 0 1
      else h.leaveSag
    | _, _ => h

/-- SAG_N_RISE (R408). -/
def execSagNRise (s : State) : Host.Outcome State Fault Refusal :=
  s.onHw fun h =>
    if h.lit && h.is R.PWR_STATUS_SAG_WARN && h.mgt.pwr.sagExt then h.modPwr fun p => { p with sagExt := false, sagFrom := h.clk.now } else h

/-- INPUT_RELEASE_LEVEL (Table 12.1): the input comes to the release side of a level (`ok`) or leaves it. -/
def execInputReleaseLevel (l : InLevel) (ok : Bool) (s : State) : Host.Outcome State Fault Refusal :=
  s.onHw fun h =>
    if !h.lit then h
    else
      let upd := fun old : Option Nat => if ok then (if old.isSome then old else some h.clk.now) else none
      h.modPwr fun p => match l with
        | .v52 => { p with in52 := upd p.in52, sample := if ok then p.sample else none, sagFree := p.sagFree && ok,
                           sagExt := p.sagExt && (ok || !p.sagFree) }
        | .v48 => { p with in48 := upd p.in48 }
        | .v65 => { p with in65 := upd p.in65 }

/-- SAG_RESET (R319). -/
def execSagReset (s : State) : Host.Outcome State Fault Refusal :=
  s.run fun r => if r.hw.lit then (r.deviceFatal E.SAG_RESET { kind := 5 } 1).on fun h => h.modPwr fun p => { p with in52 := none, in48 := none } else r

/-- OV_RESET (R320). -/
def execOvReset (s : State) : Host.Outcome State Fault Refusal :=
  s.run fun r => if r.hw.lit then (r.deviceFatal E.OV_RESET { kind := 5 } 2).on fun h => h.modPwr fun p => { p with in65 := none } else r

/-! ## Droop (R329, R330) -/

/-- DROOP_STRETCH: one event of a die, with its stretched cycles. -/
def execDroopStretch (d : Fin 24) (cycles : Fin 33) (s : State) : Host.Outcome State Fault Refusal :=
  s.onHw fun h =>
    if !h.diesUp then h
    else (h.inc R.PWR_DROOP_STRETCHED d.val cycles.val).modPwr fun p =>
      { p with droop := Tbl.modify {} d.val (fun x => { x with win := x.win + cycles.val }) p.droop }

/-- DROOP_WINDOW: the end of a 100 µs window of a die in which its stalls ran `aclk` cycles. -/
def execDroopWindow (d : Fin 24) (aclk : Nat) (s : State) : Host.Outcome State Fault Refusal :=
  s.onHw fun h =>
    if !h.diesUp then h
    else
      let x := Tbl.get {} d.val h.mgt.pwr.droop
      let put := fun (x : Droop) (h : Hw) => h.modPwr fun p => { p with droop := Tbl.set {} d.val x p.droop }
      let active := h.is R.PWR_DROOP_EXCESS_ACTIVE d.val
      if aclk < x.win * 100 then
        let h := put { x with win := 0, calm := 0 } h
        if active then h
        else
          let h := (h.set R.PWR_DROOP_EXCESS_ACTIVE d.val 1).inc R.PWR_DROOP_EXCESS d.val
          let h := if x.logF = some h.clk.frame then h
            else put { x with win := 0, calm := 0, logF := some h.clk.frame } (h.log E.DROOP_EXCESS { kind := 6, unit := d.val })
          h.limits
      else if active && decide (10 ≤ x.calm + 1) then
        ((put { x with win := 0, calm := 0 } h).set R.PWR_DROOP_EXCESS_ACTIVE d.val 0).limits
      else put { x with win := 0, calm := if active then x.calm + 1 else 0 } h

end Sys2Proof.Machine
end

