-- ==== Sys2Proof/Machine/Thermal.lean ====
section
/-! DEFINITION. Temperatures, throttle levels, trips and critical temperatures (R201, R202 and Section 5 of
12_power_thermal.md). -/

namespace Sys2Proof.Machine

/-! ## Levels -/

/-- Level tracking after a sample of temperature `t` with the entry temperatures of levels 1 and 2 and the trip point: a level is
entered at the first sample at its entry, and left after ten in a row more than 3 °C below it (R201, R331). -/
def Therm.sample (x : Therm) (t e1 e2 trip : Nat) : Therm :=
  let low1 := if t + 3 < e1 then x.low1 + 1 else 0
  let low2 := if t + 3 < e2 then x.low2 + 1 else 0
  let cool := if t + 5 < trip then x.cool + 1 else 0
  let want := if e2 ≤ t then 2 else if e1 ≤ t then 1 else 0
  let down := if x.level = 2 ∧ 10 ≤ low2 then (if 10 ≤ low1 then 0 else 1) else if x.level = 1 ∧ 10 ≤ low1 then 0 else x.level
  { x with level := if x.level < want then want else down, low1 := low1, low2 := low2, cool := cool }

/-- The key of a unit among the tracked ones. -/
def thermKey : ThermUnit → Nat
  | .ct d => d.val
  | .zone m => 24 + m.val
  | .lk k => 32 + k.val
  | .td k => 36 + k.val
  | .hx => 38
  | .mg => 39

/-- The tracked state of a unit. -/
def Hw.therm (s : Hw) (u : ThermUnit) : Therm := Tbl.get {} (thermKey u) s.mgt.pwr.therm

/-- The tracked state of a unit changed. -/
def Hw.setTherm (s : Hw) (u : ThermUnit) (x : Therm) : Hw := s.modPwr fun p => { p with therm := Tbl.set {} (thermKey u) x p.therm }

/-- Whether a trip of a unit holds. -/
def Hw.tripped (s : Hw) : ThermUnit → Bool
  | .ct d => s.get R.THM_CT_LEVEL d.val == 3
  | .zone m => s.is R.THM_ZONE_TRIP m.val
  | .lk k => s.is R.THM_DIE_TRIP k.val
  | .td k => s.is R.THM_DIE_TRIP (4 + k.val)
  | .hx => s.is R.THM_DIE_TRIP 6
  | .mg => s.is R.THM_DIE_TRIP 7

/-- CT_TEMP_SAMPLE (R331): the four sensors of a CT die, in °C. The level goes on being tracked while a trip holds. -/
def execCtTempSample (d : Fin 24) (t0 t1 t2 t3 : Fin 256) (s : State) : Host.Outcome State Fault Refusal :=
  s.onHw fun h =>
    if !h.lit then h
    else
      let t := max (max t0.val t1.val) (max t2.val t3.val)
      let x := h.therm (.ct d)
      let y := x.sample t 95 100 108
      let h := (h.setTherm (.ct d) y).set R.THM_CT_TEMP_C d.val t
      if h.tripped (.ct d) then h
      else
        let h := if x.level < 2 ∧ y.level = 2 then h.inc R.THM_CT_COUNT_C2 d.val else h
        if y.level = h.get R.THM_CT_LEVEL d.val then h else (h.set R.THM_CT_LEVEL d.val y.level).limits

/-- A stack's refresh interval is halved from 85 °C on and restored below 82 °C (R202). -/
def Hw.hotRefresh (s : Hw) (f : Fld) (m t : Nat) : Hw := if 85 ≤ t then s.set f m 1 else if t < 82 then s.set f m 0 else s

/-- ZONE_SAMPLE (R201, R202): the sensors of a zone's two stacks and its hub die, in °C. -/
def execZoneSample (m : HubId) (stack0 stack1 hub : Fin 256) (s : State) : Host.Outcome State Fault Refusal :=
  s.onHw fun h =>
    if !h.lit then h
    else
      let t := max (max stack0.val stack1.val) hub.val
      let x := h.therm (.zone m)
      let y := x.sample t 88 92 98
      let h := (((h.set R.MHB_TEMP_STACK0_C m.val stack0.val).set R.MHB_TEMP_STACK1_C m.val stack1.val).set R.MHB_TEMP_HUB_C m.val hub.val).set
        R.MHB_TEMP_ZONE_C m.val t
      let h := (h.hotRefresh R.MHB_STATUS_HOT_REFRESH0 m.val stack0.val).hotRefresh R.MHB_STATUS_HOT_REFRESH1 m.val stack1.val
      let h := h.setTherm (.zone m) y
      let h := if 1 ≤ x.level then h.inc R.MHB_THR_TIME_US m.val 100 else h
      let h := if x.level < y.level then
          h.inc (if y.level = 2 then R.MHB_THR_COUNT_L2 else R.MHB_THR_COUNT_L1) m.val else h
      if y.level = x.level then h
      else ((h.set R.MHB_STATUS_THR_LEVEL m.val y.level).set R.MHB_STATUS_ACLK_CAP m.val (if y.level = 2 then 1 else 0)).limits

/-! ## Trips (R332 to R335) -/

/-- Whether any trip holds, shown in THM_STATUS. -/
def Hw.showTrip (s : Hw) : Hw :=
  let any := (List.range 24).any (fun d => s.get R.THM_CT_LEVEL d == 3) || (List.range 8).any (fun m => s.is R.THM_ZONE_TRIP m || s.is R.THM_DIE_TRIP m)
  s.set R.THM_STATUS_TRIP_ANY 0 (if any then 1 else 0)

/-- Whether the module drives the pin THERM_N low: while a trip holds anywhere, and while the device is held in reset after
THERMAL_CRITICAL (R405); a dark module holds no line low (R406). -/
def Hw.drivesThermN (s : Hw) : Bool :=
  s.lit && (s.is R.THM_STATUS_TRIP_ANY || (s.mgt.phase == .reset && s.mgt.rst.hot))

/-- SRC_KIND and SRC_UNIT of a unit. -/
def thermSource : ThermUnit → Nat × Nat
  | .ct d => (6, d.val)
  | .zone m => (1, m.val)
  | .lk k => (2, k.val)
  | .td k => (3, k.val)
  | .hx => (4, 0)
  | .mg => (5, 0)

/-- The trip of a unit shown as holding or not; a CT die then shows its level. -/
def Hw.setTrip (s : Hw) (u : ThermUnit) (on : Bool) : Hw :=
  let b := if on then 1 else 0
  match u with
  | .ct d => s.set R.THM_CT_LEVEL d.val (if on then 3 else (s.therm u).level)
  | .zone m => s.set R.THM_ZONE_TRIP m.val b
  | .lk k => s.set R.THM_DIE_TRIP k.val b
  | .td k => s.set R.THM_DIE_TRIP (4 + k.val) b
  | .hx => s.set R.THM_DIE_TRIP 6 b
  | .mg => s.set R.THM_DIE_TRIP 7 b

/-- The trip counter of a unit advanced. -/
def Hw.countTrip (s : Hw) : ThermUnit → Hw
  | .ct d => s.inc R.THM_CT_COUNT_TRIPS d.val
  | .zone m => s.inc R.THM_ZONE_TRIPS m.val
  | .lk k => s.inc R.THM_DIE_TRIPS k.val
  | .td k => s.inc R.THM_DIE_TRIPS (4 + k.val)
  | .hx => s.inc R.THM_DIE_TRIPS 6
  | .mg => s.inc R.THM_DIE_TRIPS 7

/-- THERMAL_TRIP (R332). -/
def execThermalTrip (u : ThermUnit) (s : State) : Host.Outcome State Fault Refusal :=
  s.onHw fun h =>
    if !h.lit || h.tripped u then h
    else
      let (k, n) := thermSource u
      let h := (h.setTherm u { h.therm u with cool := 0, trip := h.clk.now }).setTrip u true
      let h := (h.showTrip.countTrip u).set R.THM_TRIP_FRAME_FRAME 0 h.clk.frame
      ((h.log E.THERMAL_TRIP { kind := k, unit := n }).msi 0 5).limits

/-- TRIP_RELEASE (R333): a CT die or zone has had its 100 samples; the other units, whose samples no command shows, are given 10 ms. -/
def execTripRelease (u : ThermUnit) (s : State) : Host.Outcome State Fault Refusal :=
  s.onHw fun h =>
    let sampled := match u with
      | .ct _ => true
      | .zone _ => true
      | _ => false
    if !h.lit || !h.tripped u || (sampled && decide ((h.therm u).cool < 100)) then h
    else
      let h := if sampled then h else h.reach ((h.therm u).trip + 1000000)
      ((h.setTrip u false).showTrip).limits

/-- THERMAL_CRITICAL (R334). -/
def execThermalCritical (u : ThermUnit) (s : State) : Host.Outcome State Fault Refusal :=
  s.run fun r => r.deviceFatal E.THERMAL_CRITICAL { kind := (thermSource u).1, unit := (thermSource u).2 } 4

/-- CRITICAL_COOLDOWN: every sensor reads below 80 °C, and the release time of R320 runs from here. -/
def execCriticalCooldown (s : State) : Host.Outcome State Fault Refusal :=
  s.onHw fun h =>
    if h.mgt.phase = .reset ∧ h.mgt.rst.hot = true then { h with mgt.rst := { h.mgt.rst with clear := some h.clk.now, hot := false } } else h

end Sys2Proof.Machine
end

