-- ==== Sys2Proof/Machine/Firm.lean ====
section
/-! DEFINITION. Firmware banks: what verifies (R369), what is tested together (R370), the boot of the sheepdog (R371), the trial and
the anti-rollback counter (R377, R378), and the boot of the device (R320, R372). -/

namespace Sys2Proof.Machine

/-! ## Packages (R367 to R370) -/

/-- The image of a kind in a package, where there is exactly one. -/
def FwImage.ofKind (p : FwPackage) (k : Nat) : Option FwImage := match p.images.filter fun x => fld x.manifest 4 1 == k with
  | [x] => some x
  | _ => none

/-- The manifest of a kind; empty where the package lacks the image. -/
def fwManifest (p : FwPackage) (k : Nat) : Bytes := ((FwImage.ofKind p k).map (·.manifest)).getD []

/-- SVN and VERSION of a manifest (Table 14.4). -/
def mfSvn (m : Bytes) : Nat := fld m 6 2
def mfVersion (m : Bytes) : Nat := fld m 8 4

/-- The most bytes of an image of a kind (R367). -/
def fwMax (k : Nat) : Nat := if k = 1 ∨ k = 3 then 0x800000 else 0x1000000

/-- The bytes of a package. -/
def fwSize (p : FwPackage) : Nat := 4096 + (p.images.map fun x => 512 + x.image.length).sum + p.addendum.length

/-- Whether the key of a vendor slot, as stored beside the bank header, may verify anything. -/
def Hw.vendorKey (s : Hw) (p : FwPackage) (slot : Nat) : Option Bytes :=
  let k := (p.vkeys[slot]?).getD []
  if slot < 4 ∧ !(bit (s.get R.SEC_KEY_STATUS_VKEY_REVOKED) slot) ∧ shake256 k 32 = Config.vendorDigest slot then some k else none

/-- Whether a manifest and its image verify (R369). -/
def Hw.imageOk (s : Hw) (p : FwPackage) (k : Nat) : Bool := match FwImage.ofKind p k with
  | none => false
  | some x =>
    let m := x.manifest
    match s.vendorKey p (fld m 5 1) with
    | none => false
    | some key =>
      m.length == 512 && fld m 0 4 == 0x4E414D4B && zeroAt m 0x130 24 && zeroAt m 0x1BA 70 && decide (mfSvn m ≤ 63) &&
        fld m 0xC 4 == x.image.length && decide (x.image.length ≤ fwMax k) && Config.ed448Verify false key (slice m 0 0x148) (slice m 0x148 114) &&
        shake256 x.image 64 == slice m 0x10 64 && decide (s.get R.SEC_ARC_ARC ≤ mfSvn m)

/-- Step 3 of Table 14.5. -/
def Hw.bankVerifies (s : Hw) (p : FwPackage) : Bool := [1, 2, 3, 4].all fun k => s.imageOk p k

/-- Whether an image is tested on the hardware (R370). -/
def Hw.testedHere (s : Hw) (p : FwPackage) (k : Nat) : Bool := bit (fld (fwManifest p k) 0x50 32) (s.get R.HIF_MODULE_ID_STEPPING)

/-- Whether a manifest of kind `a` lists a version of kind `b` under PEERS: 16 versions for each other kind, 0 unused. -/
def listsPeer (m : Bytes) (a b v : Nat) : Bool :=
  v != 0 && (List.range 16).any fun i => fld m (0x70 + 64 * (if b < a then b - 1 else b - 2) + 4 * i) 4 == v

/-- The pairs of an addendum that is valid (R370); one that is not makes no pair tested. -/
def Hw.addendumPairs (s : Hw) (p : FwPackage) : List (Nat × Nat × Nat × Nat) :=
  let a := p.addendum
  let n := fld a 4 2
  let e := fun i => 8 + 12 * i
  let signed := (List.range 4).any fun slot => match s.vendorKey p slot with
    | none => false
    | some key => Config.ed448Verify false key (slice a 0 (e n)) (slice a (e n) 114)
  if fld a 0 4 = 0x4441434B ∧ n ≤ 64 ∧ zeroAt a 6 2 ∧ a.length = e n + 114 ∧ (List.range n).all (fun i => zeroAt a (e i + 2) 2) ∧ signed then
    (List.range n).map fun i => (fld a (e i) 1, fld a (e i + 1) 1, fld a (e i + 4) 4, fld a (e i + 8) 4)
  else []

/-- Whether the pair of kinds `a` and `b` is tested. -/
def Hw.pairTested (s : Hw) (p : FwPackage) (a b : Nat) : Bool :=
  let (ma, mb) := (fwManifest p a, fwManifest p b)
  let (va, vb) := (mfVersion ma, mfVersion mb)
  listsPeer ma a b vb || listsPeer mb b a va || (s.addendumPairs p).any fun q => q == (a, b, va, vb) || q == (b, a, vb, va)

/-- Steps 4 to 6 of Table 14.5: the reason of Table 14.6 at which a bank fails, 0 where it passes. -/
def Hw.compatReason (s : Hw) (p : FwPackage) : Nat :=
  if !s.testedHere p 1 then 0x11
  else if !([2, 3, 4].all fun k => s.testedHere p k) then 0x02
  else if !([(1, 2), (1, 3), (1, 4), (2, 3), (2, 4), (3, 4)].all fun q => s.pairTested p q.1 q.2) then 0x03
  else 0

/-! ## The boot of the sheepdog (R371) -/

/-- Whether the boot ROM serves in place of the firmware (R373). -/
def Hw.rom (s : Hw) : Bool := s.lit && s.get R.SEC_BOOT_STATUS_STATE == 2 && s.get R.SDG_STATUS_STATE == 0

/-- The bank that the sheepdog booted. -/
def Hw.bootedBank (s : Hw) : Option FwPackage := if s.mgt.sdgUp then Tbl.find? (s.get R.SEC_BOOT_STATUS_BANK) s.mgt.banks else none

/-- Whether debug opens at this boot: the token kept names the module, is signed by a vendor key, and its boot count is not past;
whether it still holds at the count named is open (R383). -/
def Hw.debugOpens (s : Hw) (p : FwPackage) : Bool := match s.mgt.token with
  | none => false
  | some t =>
    let n := s.get R.SDG_BOOT_COUNT_BOOT
    t.body.length == 64 && t.bind == (shake256 Config.identityKey 32).take 16 &&
      (decide (n < t.expiry) || (n == t.expiry && Config.pick 42 n t.expiry % 2 == 1)) &&
      match s.vendorKey p t.slot.val with
      | none => false
      | some key => Config.ed448Verify false key t.body t.sig

/-- The version and SVN registers of one kind follow a manifest. -/
def Hw.showImage (s : Hw) (k : Nat) (m : Bytes) : Hw :=
  let s := s.set R.SEC_IMG_VER_VERSION (k - 1) (mfVersion m)
  s.set (if k = 1 then R.SEC_IMG_SVN_SDG else if k = 2 then R.SEC_IMG_SVN_SEQ else if k = 3 then R.SEC_IMG_SVN_LNK else R.SEC_IMG_SVN_HUB) 0 (mfSvn m)

/-- What the boot ROM finds: the booted bank, whether another than the selected one was booted, STATE and REASON. -/
def Hw.romBoot (s : Hw) (sel : Nat) : Option Nat × Bool × Nat × Nat :=
  let ok := fun b : Nat => match Tbl.find? b s.mgt.banks with
    | some p => s.bankVerifies p
    | none => false
  let other := 1 - sel
  let fuse := s.get R.HIF_MODULE_ID_VARIANT = s.get R.HIF_MODULE_ID_LOFT_TIB ∧ 1 ≤ s.get R.HIF_MODULE_ID_VARIANT ∧ s.get R.HIF_MODULE_ID_VARIANT ≤ 2
  let bank := if ok sel then some sel else if ok other then some other else none
  match bank.bind fun b => Tbl.find? b s.mgt.banks with
  | none => (none, true, 2, 0x10)
  | some p =>
    let why := s.compatReason p
    let (st, reason) := if why = 0x11 then (2, 0x11) else if !fuse then (1, 0x01) else if why = 0 then (0, 0) else (1, why)
    (bank, !(ok sel), st, reason)

/-- SHEEPDOG_BOOT (Table 14.5): the straps give the address (R364); the RAM log ring starts empty, and the records that waited in the
die buffers are taken (R342, R344). -/
def execSheepdogBoot (addr : Fin 4) (s : State) : Host.Outcome State Fault Refusal :=
  s.onHw fun h =>
    if !h.lit || h.mgt.sdgUp || h.rom then h
    else
      let pend := h.is R.SEC_FW_PENDING_PENDING
      let sel := if pend then h.get R.SEC_FW_PENDING_BANK else h.mgt.active
      let wasReset := h.get R.SDG_STATUS_STATE == 2
      let (bank, fell, st, reason) := h.romBoot sel
      let up := st != 2
      let try_ := pend && bank == some sel
      let h := h.inc R.SDG_BOOT_COUNT_BOOT
      let h := if fell || (!pend && h.mgt.spoilt) then h.set R.SEC_BOOT_STATUS_FALLBACK 0 1 else h
      let h := ((h.set R.SEC_BOOT_STATUS_STATE 0 st).set R.SEC_BOOT_STATUS_REASON 0 reason).set R.SEC_BOOT_STATUS_BANK 0 (bank.getD 0)
      let h := (h.set R.SEC_FW_PENDING_PENDING 0 0).set R.SEC_FW_PENDING_TRY 0 (if try_ then 1 else 0)
      let h := { h with mgt := { h.mgt with sdgUp := up, trial := if try_ then some h.clk.now else none, spoilt := false, bootAt := h.clk.now,
                                            log := { h.mgt.log with ring := [], last := [] } } }
      let h := h.set R.ERR_LOG_MIN_OLDEST 0 0
      let p : FwPackage := (bank.bind fun b => Tbl.find? b h.mgt.banks).getD ⟨[], [], []⟩
      let h := h.showImage 1 (fwManifest p 1)
      let h := h.set R.SEC_ARC_COMMIT_TARGET 0 ([2, 3, 4].foldl (fun m k => min m (mfSvn (fwManifest p k))) (mfSvn (fwManifest p 1)))
      let h := h.set R.SEC_BOOT_STATUS_DEBUG 0 (if up && h.debugOpens p then 1 else 0)
      let h := (h.set R.SDG_STATUS_STATE 0 (if up then 1 else 0)).set R.SDG_MGMT_SMB_ADDR 0 (0x58 + addr.val)
      let h := if wasReset then h.set R.ERR_STATUS_SDG_RESET 0 1 else h
      if up then h.drainBuffers else h

/-- FW_TRIAL_CONFIRM (R377): 60 s NORMAL, with no sheepdog reset and no class 3 record. -/
def execFwTrialConfirm (s : State) : Host.Outcome State Fault Refusal :=
  s.onHw fun h => match h.mgt.sdgUp && !h.mgt.spoilt && h.get R.SEC_BOOT_STATUS_STATE == 0, h.mgt.trial with
    | true, some t =>
      let h := h.reach (t + 60 * second)
      ({ h with mgt := { h.mgt with trial := none, active := h.get R.SEC_BOOT_STATUS_BANK } }).set R.SEC_FW_PENDING_TRY 0 0
    | _, _ => h

/-! ## Anti-rollback (R378) -/

/-- A write of SEC_ARC_COMMIT with GO = 1 and a key. -/
def Hw.arcCommit (s : Hw) (key : Nat) : Hw :=
  if key = 0x4B41 ∧ s.mgt.sdgUp ∧ s.get R.SEC_BOOT_STATUS_STATE = 0 ∧ !s.is R.SEC_FW_PENDING_TRY then
    if s.get R.SEC_ARC_ARC < s.get R.SEC_ARC_COMMIT_TARGET then { s with mgt := { s.mgt with arcTo := some (s.get R.SEC_ARC_COMMIT_TARGET) } } else s
  else s.set R.SEC_ARC_REJECT 0 1

/-- ARC_COMMIT. -/
def execArcCommit (key : BitVec 16) (s : State) : Host.Outcome State Fault Refusal := s.byHostHw fun h => h.arcCommit key.toNat

/-- ARC_FUSE_BURN: one more fuse of the thermometer. -/
def execArcFuseBurn (s : State) : Host.Outcome State Fault Refusal :=
  s.onHw fun h => match h.mgt.arcTo with
    | none => h
    | some t =>
      let h := if h.get R.SEC_ARC_ARC < t then h.inc R.SEC_ARC_ARC else h
      if h.get R.SEC_ARC_ARC < t then h else { h with mgt := { h.mgt with arcTo := none } }

/-! ## Power-on, release and device boot (R315, R320, R338, R404) -/

/-- SUPPLY_ON: the input reaches 36.0 V; which other levels it has passed is not known yet. -/
def execSupplyOn (s : State) : Host.Outcome State Fault Refusal :=
  s.onHw fun h => if h.mgt.phase = .dark then
      { h with mgt := { h.mgt with phase := .reset, pwr := { charged := none, in52 := none, in48 := none, in65 := some h.clk.now },
                                   rst := { h.mgt.rst with start := h.clk.now, clear := some h.clk.now, hot := false, sag := false } } }
    else h

/-- INRUSH_DONE (R404). -/
def execInrushDone (s : State) : Host.Outcome State Fault Refusal :=
  s.onHw fun h => if h.lit ∧ h.mgt.pwr.charged = none then h.modPwr fun p => { p with charged := some h.clk.now } else h

/-- Registers that flash and fuses hold through a loss of power: boot count, pending and trial banks, ARC, revocations, key store, the
record number, dump slots, and the causes of the last resets (R338, R319, R358). -/
def flashFlds : List Fld :=
  [R.SDG_BOOT_COUNT_BOOT, R.SEC_FW_PENDING_PENDING, R.SEC_FW_PENDING_BANK, R.SEC_ARC_ARC, R.SEC_KEY_STATUS_VALID, R.SEC_KEY_STATUS_VKEY_REVOKED,
   R.SEC_KEY_COUNTER_COUNTER, R.ERR_LOG_SEQ_NEWEST, R.ERR_STATUS_DUMP_NEW, R.ERR_STATUS_LAST_DEV_RESET, R.ERR_DUMP_STATUS_VALID,
   R.ERR_DUMP_STATUS_SHORT_VALID, R.PWR_STATUS_LAST_SUPPLY_RESET, R.THM_STATUS_LAST_RESET_CRIT, R.HIF_MODULE_ID_STEPPING,
   R.HIF_MODULE_ID_LOFT_TIB, R.HIF_MODULE_ID_VARIANT, R.HIF_MODULE_ID_MODEL]

/-- SUPPLY_LOSS (R338): nothing is left but flash and fuses; the bank that a transfer was writing is empty (R375). -/
def execSupplyLoss (s : State) : Host.Outcome State Fault Refusal :=
  s.run fun r =>
    if !r.hw.lit then r
    else (r.post (.zero 0 (2 ^ 48))).on fun s =>
      let m := s.mgt
      let banks := match m.update with
        | some u => if u.busy then Tbl.erase u.slot m.banks else m.banks
        | none => m.banks
      let s := s.resetFields fun i => flashFlds.any fun f => f.id == i
      { s with latch := [], dev := {}, clk := { now := s.clk.now },
               mgt := { phase := .dark, dumps := m.dumps, shorts := m.shorts, keys := m.keys, banks := banks, passed := m.passed, active := m.active,
                        token := m.token, spoilt := m.spoilt, log := { flash := m.log.flash }, rst := { cause := m.rst.cause } } }

/-- DEVICE_RELEASE (R320): the input has stayed within 48.0 to 65.0 V for 10 ms since the capacitance was charged and the cause had
cleared. -/
def execDeviceRelease (s : State) : Host.Outcome State Fault Refusal :=
  s.onHw fun h =>
    let p := h.mgt.pwr
    match h.mgt.phase, p.charged, p.in48, p.in65, h.mgt.rst.clear with
    | .reset, some a, some b, some c, some d =>
      let h := h.reach (max (max a b) (max c d) + 1000000)
      { h with mgt := { h.mgt with phase := .boot } }
    | _, _, _, _, _ => h

/-- DEVICE_BOOT_COMPLETE (R45, R320, R372): the sheepdog has loaded the die images, which all hash to their IMG_DIGEST or not; frame 0
starts. In limited service and recovery no die image is started. Every stall begins its zero-fill (R172). -/
def execDeviceBootComplete (ok : Bool) (s : State) : Host.Outcome State Fault Refusal :=
  s.onHw fun h =>
    if h.mgt.phase ≠ .boot ∨ !(h.mgt.sdgUp || h.rom) then h
    else
      let h := if h.get R.SEC_BOOT_STATUS_STATE = 0 ∧ !ok then (h.set R.SEC_BOOT_STATUS_STATE 0 1).set R.SEC_BOOT_STATUS_REASON 0 0x04 else h
      let m := fun k => match h.get R.SEC_BOOT_STATUS_STATE, h.bootedBank with
        | 0, some p => fwManifest p k
        | _, _ => []
      let h := ((h.showImage 2 (m 2)).showImage 3 (m 3)).showImage 4 (m 4)
      let h := { h with mgt := { h.mgt with phase := .run } }
      let h := h.each (List.range 192) fun n h => h.set R.SPD_STATUS_ZEROING n 1
      let h := h.startFrame 0 h.clk.now
      if h.is R.PWR_STATUS_SAG_WARN then (h.setTarget fAssured).limits
      else if h.mgt.pwr.in52.isNone then h.enterSag 0 else h.clocked

/-- CXL_LINK_TRAINED (R400): a port whose PERST_N is deasserted comes up with its lanes and its rate (1: 32 GT/s, 2: 64 GT/s). -/
def execCxlLinkTrained (port : Fin 2) (lanes : Fin 17) (rate : Fin 3) (s : State) : Host.Outcome State Fault Refusal :=
  s.onHw fun h =>
    let two := h.is R.HIF_PORT_BIFUR
    let fits := lanes.val = 2 ∨ lanes.val = 4 ∨ lanes.val = 8 ∨ (lanes.val = 16 ∧ !two)
    if h.mgt.phase = .run ∧ h.dev.ports.contains port.val ∧ (port.val = 0 ∨ two) ∧ fits ∧ rate.val ≠ 0 then
      if port.val = 0 then ((h.set R.HIF_PORT_P0_UP 0 1).set R.HIF_PORT_P0_WIDTH 0 lanes.val).set R.HIF_PORT_P0_RATE 0 rate.val
      else ((h.set R.HIF_PORT_P1_UP 0 1).set R.HIF_PORT_P1_WIDTH 0 lanes.val).set R.HIF_PORT_P1_RATE 0 rate.val
    else h

end Sys2Proof.Machine
end

