-- ==== Sys2Proof/Machine/Sdg.lean ====
section
/-! DEFINITION. What the sheepdog serves (14_management_security.md): the CXL mailbox (R399) and updates (R374 to R376), the management
pair (R364 to R366, R415), the key store (R380), SPDM (R381, R382), debug tokens (R383) and IDE keys (R385). -/

namespace Sys2Proof.Machine

/-! How the model numbers the outcome of a request (log 39). -/

namespace Ans
def ok : Nat := 0
def started : Nat := 1
def unsupported : Nat := 2
def busy : Nat := 3
def invalidSlot : Nat := 4
def corrupt : Nat := 5
def invalidImage : Nat := 6
def refused : Nat := 7
def notReady : Nat := 8
def invalid : Nat := 9
def denied : Nat := 10
end Ans

/-- Mgt changed. -/
def Hw.modMgt (s : Hw) (f : Mgt → Mgt) : Hw := { s with mgt := f s.mgt }

/-! ## The primary mailbox (R399) -/

/-- An answer of the mailbox, which raises PF vector 7. -/
def Hw.mbAnswer (s : Hw) (op st : Nat) (body : Bytes) : Hw := (s.emit (.msg 0 op st body)).msi 0 7

/-- A mailbox command that arrives: it needs the link and the sheepdog; the boot ROM serves the firmware commands alone (R373). One
written while a background operation runs completes with Busy, unless `always`. -/
def State.mailbox (s : State) (op : Nat) (romToo always : Bool) (f : Hw → Hw) : Host.Outcome State Fault Refusal :=
  s.byHostHw fun h =>
    if !(h.mgt.sdgUp || (romToo && h.rom)) then h
    else
      let back := match h.mgt.update with
        | some u => u.busy && !u.pldm
        | none => false
      if back && !always then h.mbAnswer op Ans.busy [] else f h

/-- GET_FW_INFO: two slots, the active one and the pending one, 0 where none is pending. -/
def execGetFwInfo (s : State) : Host.Outcome State Fault Refusal :=
  s.mailbox 0x0200 true true fun h =>
    let pending := if h.is R.SEC_FW_PENDING_PENDING then h.get R.SEC_FW_PENDING_BANK + 1 else 0
    h.mbAnswer 0x0200 Ans.ok (leBytes 1 2 ++ leBytes 1 (h.get R.SEC_BOOT_STATUS_BANK + 1) ++ leBytes 1 pending)

/-- GET_TIMESTAMP. -/
def execGetTimestamp (s : State) : Host.Outcome State Fault Refusal :=
  s.mailbox 0x0300 false true fun h => h.mbAnswer 0x0300 Ans.ok (leBytes 8 h.timestamp)

/-- SET_TIMESTAMP. -/
def execSetTimestamp (t : BitVec 64) (s : State) : Host.Outcome State Fault Refusal :=
  s.mailbox 0x0301 false false fun h => (h.modMgt fun m => { m with stamp := (t.toNat, h.clk.now) }).mbAnswer 0x0301 Ans.ok []

/-- GET_SUPPORTED_LOGS: one log, the Command Effects Log. -/
def execGetSupportedLogs (s : State) : Host.Outcome State Fault Refusal :=
  s.mailbox 0x0400 false false fun h => h.mbAnswer 0x0400 Ans.ok (leBytes 2 1)

/-- The opcodes of Table 15.5. -/
def mailboxOps : List Nat := [0x0200, 0x0201, 0x0202, 0x0300, 0x0301, 0x0400, 0x0401]

/-- GET_LOG: an entry for each supported command, its opcode with effects that the spec does not state (log 39). -/
def execGetLog (s : State) : Host.Outcome State Fault Refusal :=
  s.mailbox 0x0401 false false fun h =>
    h.mbAnswer 0x0401 Ans.ok (mailboxOps.flatMap fun op => leBytes 2 op ++ leBytes 2 (Config.pick 43 op 0))

/-! ## Updates (R374 to R376) -/

/-- Whether another update holds the path: the other path's, or a transfer still running. -/
def Hw.pathBusy (s : Hw) (pldm : Bool) : Bool := match s.mgt.update with
  | some u => u.busy || u.pldm != pldm
  | none => false

/-- Whether a package may be taken: all four images, 64 MiB at most (R374). -/
def fwWhole (p : FwPackage) : Bool := ([1, 2, 3, 4].all fun k => (FwImage.ofKind p k).isSome) && decide (fwSize p ≤ 0x4000000)

/-- A transfer into a bank begins: until its header is written the bank is empty (R367). -/
def Hw.transfer (s : Hw) (pldm : Bool) (bank : Nat) (p : FwPackage) : Hw :=
  s.modMgt fun m => { m with banks := Tbl.erase bank m.banks, passed := m.passed.filter (· ≠ bank), update := some ⟨pldm, bank, p, true, s.clk.now⟩ }

/-- TRANSFER_FW: slot 1 is bank A, slot 2 bank B; the running slot is an invalid one. -/
def execTransferFw (slot : Fin 256) (p : FwPackage) (s : State) : Host.Outcome State Fault Refusal :=
  s.mailbox 0x0201 true false fun h =>
    let bank := slot.val - 1
    if h.pathBusy false then h.mbAnswer 0x0201 Ans.busy []
    else if slot.val = 0 ∨ 2 < slot.val ∨ (bank = h.get R.SEC_BOOT_STATUS_BANK ∧ h.mgt.sdgUp) then h.mbAnswer 0x0201 Ans.invalidSlot []
    else if !(fwWhole p) then h.mbAnswer 0x0201 Ans.refused []
    else (h.transfer false bank p).mbAnswer 0x0201 Ans.started []

/-- TRANSFER_FW_DONE (R376): the last byte is in flash; the new bank passes steps 3 to 6 of Table 14.5, or is left empty. -/
def execTransferFwDone (s : State) : Host.Outcome State Fault Refusal :=
  s.onHw fun h => match h.mgt.update with
    | none => h
    | some u =>
      if !u.busy then h
      else
        let st := if !(h.bankVerifies u.pkg) then Ans.corrupt else if h.compatReason u.pkg ≠ 0 then Ans.invalidImage else Ans.ok
        let h := if st = Ans.ok then
            h.modMgt fun m => { m with banks := Tbl.insert u.slot u.pkg m.banks, passed := u.slot :: m.passed,
                                       update := some { u with busy := false, seen := h.clk.now } }
          else h.modMgt fun m => { m with update := none }
        if u.pldm then h.emit (.msg 1 0x18 st []) else h.mbAnswer 0x0201 st []

/-- A bank made pending, in place of an earlier one; the update has ended. -/
def Hw.activate (s : Hw) (bank : Nat) : Hw :=
  ((s.set R.SEC_FW_PENDING_PENDING 0 1).set R.SEC_FW_PENDING_BANK 0 bank).modMgt fun m => { m with update := none }

/-- ACTIVATE_FW: offline only, of a bank that has passed its check. -/
def execActivateFw (slot : Fin 256) (online : Bool) (s : State) : Host.Outcome State Fault Refusal :=
  s.mailbox 0x0202 true false fun h =>
    if h.pathBusy false then h.mbAnswer 0x0202 Ans.busy []
    else if online then h.mbAnswer 0x0202 Ans.unsupported []
    else if slot.val = 0 ∨ !(h.mgt.passed.contains (slot.val - 1)) then h.mbAnswer 0x0202 Ans.invalidSlot []
    else (h.activate (slot.val - 1)).mbAnswer 0x0202 Ans.ok []

/-- UPDATE_IDLE_TIMEOUT (R375). -/
def execUpdateIdleTimeout (s : State) : Host.Outcome State Fault Refusal :=
  s.onHw fun h => match h.mgt.update with
    | none => h
    | some u => if u.busy then h else (h.reach (u.seen + 60 * second)).modMgt fun m => { m with update := none }

/-! ## The management pair (R364 to R366) -/

/-- The number SDG_MGMT.MODE gives a bus. -/
def busMode : Bus → Nat
  | .smbus => 1
  | .i3c => 2

/-- A valid transaction of the management pair: the first one after a boot selects the mode, which then holds. -/
def Hw.pairHears (s : Hw) (b : Bus) : Bool := s.get R.SDG_MGMT_MODE == 0 || s.get R.SDG_MGMT_MODE == busMode b

/-- An MCTP message that arrives at the sheepdog, or at the boot ROM where it serves the protocol (R373). -/
def Hw.mctp (s : Hw) (b : Bus) (romToo : Bool) (f : Hw → Hw) : Hw :=
  if (s.mgt.sdgUp || (romToo && s.rom)) && s.pairHears b then f ((s.set R.SDG_MGMT_MODE 0 (busMode b)).inc R.SDG_OOB_COUNTS_MCTP_RX) else s

/-- An answer over the management pair. -/
def Hw.pairAnswer (s : Hw) (op st : Nat) (body : Bytes) : Hw := s.emit (.msg 1 op st body)

/-- REQUEST_UPDATE: the sheepdog fetches the components of a package into the bank that is not running. -/
def execRequestUpdate (b : Bus) (p : FwPackage) (s : State) : Host.Outcome State Fault Refusal :=
  s.onHw fun h => h.mctp b true fun h =>
    if h.pathBusy true then h.pairAnswer 0x10 Ans.busy []
    else if !(fwWhole p) then h.pairAnswer 0x10 Ans.refused []
    else (h.transfer true (if h.mgt.sdgUp then 1 - h.get R.SEC_BOOT_STATUS_BANK else 1 - h.mgt.active) p).pairAnswer 0x10 Ans.ok []

/-- ACTIVATE_FIRMWARE: the bank of the update, once it has passed its check. -/
def execActivateFirmware (b : Bus) (s : State) : Host.Outcome State Fault Refusal :=
  s.onHw fun h => h.mctp b true fun h => match h.mgt.update with
    | none => h.pairAnswer 0x1A Ans.notReady []
    | some u =>
      if !u.pldm then h.pairAnswer 0x1A Ans.busy []
      else if u.busy ∨ !(h.mgt.passed.contains u.slot) then h.pairAnswer 0x1A Ans.notReady []
      else (h.activate u.slot).pairAnswer 0x1A Ans.ok []

/-- SET_EVENT_RECEIVER (R366). -/
def execSetEventReceiver (b : Bus) (on : Bool) (s : State) : Host.Outcome State Fault Refusal :=
  s.onHw fun h => h.mctp b false fun h => (h.modMgt fun m => { m with events := on }).pairAnswer 0x04 Ans.ok []

/-- EFFECTER_WRITE (R365): effecter 1 is PWR_CAP.CAP_W; there is no other. -/
def execEffecterWrite (b : Bus) (id : Nat) (w : Nat) (s : State) : Host.Outcome State Fault Refusal :=
  s.onHw fun h => h.mctp b false fun h => if id = 1 then (h.setCap w).pairAnswer 0x31 Ans.ok [] else h.pairAnswer 0x31 Ans.invalid []

/-- The value of a sensor of Table 14.2; none for a number without a sensor. -/
def Hw.sensor (s : Hw) (id : Nat) : Option Nat :=
  if 1 ≤ id ∧ id ≤ 24 then some (s.get R.THM_CT_TEMP_C (id - 1))
  else if 25 ≤ id ∧ id ≤ 32 then some (s.get R.MHB_TEMP_ZONE_C (id - 25))
  else if 33 ≤ id ∧ id ≤ 48 then some (s.get (if id % 2 = 1 then R.MHB_TEMP_STACK0_C else R.MHB_TEMP_STACK1_C) ((id - 33) / 2))
  else if 49 ≤ id ∧ id ≤ 56 then some (s.get R.THM_DIE_TEMP_C (id - 49))
  else if id = 57 then some (s.get R.PWR_VIN_VIN)
  else if id = 58 then some (s.get R.PWR_IIN_IIN)
  else if id = 59 then some (s.get R.PWR_PIN_P_MEAS)
  else if id = 60 then some (s.get R.SDG_COOLANT_INLET_C)
  else if id = 61 then some (s.get R.SDG_COOLANT_OUTLET_C)
  else if id = 62 then some (s.get R.PWR_STATUS_ACLK_MHZ)
  else none

/-- SENSOR_READ: a temperature that no sampling command shows (sensors 49 to 56, 60 and 61) is taken at the read, as `now` (log 3). -/
def execSensorRead (b : Bus) (id : Nat) (now : Fin 256) (s : State) : Host.Outcome State Fault Refusal :=
  s.onHw fun h => h.mctp b false fun h =>
    let h := if 49 ≤ id ∧ id ≤ 56 then h.set R.THM_DIE_TEMP_C (id - 49) now.val else if id = 60 then h.set R.SDG_COOLANT_INLET_C 0 now.val
      else if id = 61 then h.set R.SDG_COOLANT_OUTLET_C 0 now.val else h
    match h.sensor id with
    | some v => h.pairAnswer 0x11 Ans.ok (leBytes 4 v)
    | none => h.pairAnswer 0x11 Ans.invalid []

/-- The threshold range a coolant temperature lies in (Table 16.5): 0 below the lower warning, 1 within, 2 warning, 3 critical. -/
def coolantRange (outlet : Bool) (t : Nat) : Nat :=
  if outlet then (if 68 < t then 3 else if 62 < t then 2 else 1)
  else if 50 < t then 3 else if 45 < t then 2 else if t < 17 then 0 else 1

/-- COOLANT_THRESHOLD (R415): a sensor event at a crossing, once events are enabled; no record. -/
def execCoolantThreshold (outlet : Bool) (t : Fin 256) (s : State) : Host.Outcome State Fault Refusal :=
  s.onHw fun h =>
    if !h.mgt.sdgUp then h
    else
      let f := if outlet then R.SDG_COOLANT_OUTLET_C else R.SDG_COOLANT_INLET_C
      let (old, new) := (coolantRange outlet (h.get f), coolantRange outlet t.val)
      let h := h.set f 0 t.val
      if h.mgt.events && old != new then h.pairAnswer 0x0A Ans.ok (leBytes 2 (if outlet then 61 else 60) ++ leBytes 1 old ++ leBytes 1 new) else h

/-- FRU_READ: ordering code, serial number, stepping, loft capacity. -/
def execFruRead (b : Bus) (s : State) : Host.Outcome State Fault Refusal :=
  s.onHw fun h => h.mctp b false fun h => h.pairAnswer 0x02 Ans.ok
    (leBytes 1 (h.get R.HIF_MODULE_ID_VARIANT) ++ leBytes 1 (h.get R.HIF_MODULE_ID_STEPPING) ++ leBytes 1 (h.get R.HIF_MODULE_ID_LOFT_TIB) ++ Config.serialNumber)

/-- PLDM_FILE_READ (Table 14.1): the flash log is its records, the oldest first. -/
def execPldmFileRead (b : Bus) (file : MgtFile) (off len : Nat) (s : State) : Host.Outcome State Fault Refusal :=
  s.onHw fun h => h.mctp b false fun h =>
    let dump := fun d : Option Dump => d.map fun d => d.slice off len
    let body : Option Bytes := match file with
      | .log => some (slice (h.mgt.log.flash.reverse.flatMap fun x => x.1.bytes) off len)
      | .full i => dump (h.dumpOf i.val)
      | .short i => dump (h.dumpOf (2 + i.val))
      | .manifest k => h.bootedBank.map fun p => slice (fwManifest p (k.val + 1)) off len
      | .certs => some (slice Config.certChain off len)
    match body with
    | some bs => h.pairAnswer 0x20 Ans.ok bs
    | none => h.pairAnswer 0x20 Ans.invalid []

/-- MCTP_EID_ASSIGN. -/
def execMctpEidAssign (b : Bus) (eid : BitVec 8) (s : State) : Host.Outcome State Fault Refusal :=
  s.onHw fun h => h.mctp b true fun h => ((h.set R.SDG_MGMT_EID 0 eid.toNat).set R.SDG_STATUS_EID_VALID 0 1).pairAnswer 0x01 Ans.ok []

/-- DYNAMIC_ADDRESS_ASSIGN: an I3C transaction. -/
def execDynamicAddressAssign (addr : BitVec 7) (s : State) : Host.Outcome State Fault Refusal :=
  s.onHw fun h =>
    if (h.mgt.sdgUp || h.rom) && h.pairHears .i3c then (h.set R.SDG_MGMT_MODE 0 2).set R.SDG_MGMT_I3C_DA 0 addr.toNat else h

/-- DEBUG_TOKEN (R383): kept for the check at the next boot. -/
def execDebugToken (b : Bus) (t : DebugTok) (s : State) : Host.Outcome State Fault Refusal :=
  s.onHw fun h => h.mctp b false fun h => h.modMgt fun m => { m with token := some t }

/-! ## The key store (R380) -/

/-- A write of SEC_KEY_CTRL with APPLY = 1; one during another record is discarded. -/
def Hw.keyApply (s : Hw) : Hw :=
  if !s.mgt.sdgUp || s.mgt.keyRec.isSome then s
  else (s.modMgt fun m => { m with keyRec := some (s.get R.SEC_KEYREC_ADDR_ADDR) }).set R.SEC_KEY_CTRL_APPLY 0 1

/-- KEY_RECORD_APPLY. -/
def execKeyRecordApply (s : State) : Host.Outcome State Fault Refusal := s.byHostHw fun h => h.keyApply

/-- The first check that a record fails, after FETCH; 0 where it is accepted. -/
def Hw.keyRecordCode (s : Hw) (b : Bytes) : Nat :=
  let (slot, op) := (fld b 4 1, fld b 5 1)
  let signed := !(zeroAt b 0x60 114)
  let k0 := Tbl.get [] 0 s.mgt.keys
  let st := s.get R.TRS_STATUS_STATE
  if fld b 0 4 ≠ 0x59454B4B ∨ 3 < slot ∨ 1 < op ∨ !(zeroAt b 6 2) ∨ !(zeroAt b 0xC 4) ∨ !(zeroAt b 0x59 7) ∨ (op = 1 ∧ !(zeroAt b 0x20 57)) then 0x02
  else if slice b 0x10 16 ≠ (shake256 Config.identityKey 32).take 16 then 0x05
  else if fld b 8 4 ≤ s.get R.SEC_KEY_COUNTER_COUNTER then 0x04
  else if !signed && !(op == 0 && slot == 0 && s.mgt.keys.isEmpty) then 0x06
  else if signed && !(k0 != [] && Config.ed448Verify false k0 (slice b 0 0x60) (slice b 0x60 114)) then 0x03
  else if 1 ≤ st ∧ st ≤ 3 then 0x07
  else 0

/-- The key store after an accepted record. -/
def keysAfter (b : Bytes) (t : Tbl Bytes) : Tbl Bytes :=
  if fld b 5 1 = 0 then Tbl.insert (fld b 4 1) (slice b 0x20 57) t else if fld b 4 1 = 0 then [] else Tbl.erase (fld b 4 1) t

/-- KEY_RECORD_DONE: the record's fetch has ended; it is applied, or refused with its code. -/
def execKeyRecordDone (res : Completion) (s : State) : Host.Outcome State Fault Refusal :=
  s.run fun r => match r.hw.mgt.keyRec with
    | none => r
    | some a =>
      let b := r.readHost a 210
      r.on fun s =>
        let inWin := s.dmaOk 0 a 210 false
        let s := if a % 8 ≠ 0 then s else if inWin then s.cplErr res else s.dmaReject 0 a false
        let code := if a % 8 ≠ 0 ∨ !inWin ∨ res ≠ .ok then 0x01 else s.keyRecordCode b
        let s := (s.modMgt fun m => { m with keyRec := none }).set R.SEC_KEY_CTRL_APPLY 0 0
        let s := s.set R.SEC_KEY_CTRL_ERR 0 code
        let s := if code ≠ 0 then s.set R.SEC_KEY_CTRL_FAIL 0 1
          else
            let s := s.modMgt fun m => { m with keys := keysAfter b m.keys }
            let s := s.set R.SEC_KEY_STATUS_VALID 0 ((s.mgt.keys.map fun kv : Nat × Bytes => 2 ^ kv.1).sum)
            (s.set R.SEC_KEY_COUNTER_COUNTER 0 (fld b 8 4)).set R.SEC_KEY_CTRL_DONE 0 1
        s.msi 0 8

/-! ## SPDM (R381, R382) -/

/-- A transport's key and the channel its answers leave by. -/
def spdmKey : SpdmPort → Nat
  | .mctp _ => 0
  | .doe => 1

/-- A request at the responder over a transport: over MCTP it is a message of the management pair, over DOE it needs the link. -/
def Hw.spdm (s : Hw) (t : SpdmPort) (romToo : Bool) (f : Hw → Hw) : Hw := match t with
  | .mctp b => s.mctp b romToo f
  | .doe => if s.hostUp && (s.mgt.sdgUp || (romToo && s.rom)) then f s else s

/-- An answer of the responder. -/
def Hw.spdmAnswer (s : Hw) (t : SpdmPort) (op st : Nat) (body : Bytes) : Hw := s.emit (.msg (1 + spdmKey t) op st body)

/-- The responder's state on a transport. -/
def Hw.spdmSt (s : Hw) (t : SpdmPort) : Spdm := Tbl.get {} (spdmKey t) s.mgt.spdm

/-- The responder's state on a transport changed. -/
def Hw.setSpdm (s : Hw) (t : SpdmPort) (x : Spdm) : Hw := s.modMgt fun m => { m with spdm := Tbl.set {} (spdmKey t) x m.spdm }

/-- A request that needs the steps up to `stage`; before them it is unexpected. -/
def Hw.spdmAt (s : Hw) (t : SpdmPort) (op stage : Nat) (f : Hw → Hw) : Hw :=
  s.spdm t false fun s => if (s.spdmSt t).stage < stage then s.spdmAnswer t op Ans.notReady [] else f s

/-- A signature of the key engine with the identity key: a free value; while debug is open the engine refuses (R383). -/
def Hw.signed (s : Hw) (t : SpdmPort) (op : Nat) (body : Bytes) : Hw :=
  if s.is R.SEC_BOOT_STATUS_DEBUG then s.spdmAnswer t op Ans.denied []
  else
    let (v, s) := s.draw
    s.spdmAnswer t op Ans.ok (body ++ leBytes 114 v)

/-- GET_VERSION: version 1.3; negotiation begins anew. -/
def execGetVersion (t : SpdmPort) (s : State) : Host.Outcome State Fault Refusal :=
  s.onHw fun h => h.spdm t true fun h => (h.setSpdm t { h.spdmSt t with stage := 1 }).spdmAnswer t 0x84 Ans.ok (leBytes 1 0x13)

/-- GET_CAPABILITIES: whether certificates, challenges, signed measurements and, on DOE, sessions are served. -/
def execGetCapabilities (t : SpdmPort) (s : State) : Host.Outcome State Fault Refusal :=
  s.onHw fun h => h.spdmAt t 0xE1 1 fun h => (h.setSpdm t { h.spdmSt t with stage := 2 }).spdmAnswer t 0xE1 Ans.ok (leBytes 1 (if spdmKey t = 1 then 0xF else 0x7))

/-- NEGOTIATE_ALGORITHMS: the requester offers Ed448 with SHA3-512, or the request is refused. -/
def execNegotiateAlgorithms (t : SpdmPort) (offered : Bool) (s : State) : Host.Outcome State Fault Refusal :=
  s.onHw fun h => h.spdmAt t 0xE3 2 fun h =>
    if offered then (h.setSpdm t { h.spdmSt t with stage := 3 }).spdmAnswer t 0xE3 Ans.ok [] else h.spdmAnswer t 0xE3 Ans.invalid []

/-- GET_DIGESTS: the SHA3-512 digest of slot 0's chain. -/
def execGetDigests (t : SpdmPort) (s : State) : Host.Outcome State Fault Refusal :=
  s.onHw fun h => h.spdmAt t 0x81 3 fun h => h.spdmAnswer t 0x81 Ans.ok (sha3_512 Config.certChain)

/-- GET_CERTIFICATE: slot 0; slots 1 to 7 are not provisioned (R379). -/
def execGetCertificate (t : SpdmPort) (slot : Fin 8) (off len : Nat) (s : State) : Host.Outcome State Fault Refusal :=
  s.onHw fun h => h.spdmAt t 0x82 3 fun h =>
    if slot.val = 0 then h.spdmAnswer t 0x82 Ans.ok (slice Config.certChain off len) else h.spdmAnswer t 0x82 Ans.invalid []

/-- CHALLENGE. -/
def execChallenge (t : SpdmPort) (slot : Fin 8) (s : State) : Host.Outcome State Fault Refusal :=
  s.onHw fun h => h.spdmAt t 0x83 3 fun h =>
    if slot.val = 0 then h.signed t 0x83 (sha3_512 Config.certChain) else h.spdmAnswer t 0x83 Ans.invalid []

/-- A measurement of Table 14.8. -/
def Hw.measurement (s : Hw) (i : Nat) : Bytes :=
  let p : FwPackage := s.bootedBank.getD ⟨[], [], []⟩
  if i = 1 then Config.romDigest
  else if i ≤ 5 then shake256 (fwManifest p (i - 1) ++ slice (fwManifest p (i - 1)) 0x10 64) 64
  else if i = 6 then (if p.addendum = [] then zeros 64 else shake256 p.addendum 64)
  else if i = 7 then Config.fuseDigest (s.get R.HIF_MODULE_ID_STEPPING) (s.get R.HIF_MODULE_ID_VARIANT) (s.get R.SEC_ARC_ARC)
    (s.get R.SEC_KEY_STATUS_VKEY_REVOKED) (s.get R.SEC_BOOT_STATUS_DEBUG)
  else if i = 8 then ((s.dev.truss.map (·.digest)).getD (zeros 64))
  else Config.keyStoreDigest ([0, 1, 2, 3].map fun k => Tbl.get [] k s.mgt.keys) (s.get R.SEC_KEY_COUNTER_COUNTER)

/-- GET_MEASUREMENTS (R382): how many there are (index 0), one of them, or all (index 0xFF), signed or not. -/
def execGetMeasurements (t : SpdmPort) (i : Fin 256) (sig : Bool) (s : State) : Host.Outcome State Fault Refusal :=
  s.onHw fun h => h.spdmAt t 0xE0 3 fun h =>
    let body : Option Bytes := if i.val = 0 then some (leBytes 1 9) else if i.val ≤ 9 then some (h.measurement i.val)
      else if i.val = 0xFF then some ([1, 2, 3, 4, 5, 6, 7, 8, 9].flatMap h.measurement) else none
    match body with
    | none => h.spdmAnswer t 0xE0 Ans.invalid []
    | some b => if sig then h.signed t 0xE0 b else h.spdmAnswer t 0xE0 Ans.ok b

/-- KEY_EXCHANGE, on DOE alone: its answer carries a signature. -/
def execKeyExchange (s : State) : Host.Outcome State Fault Refusal :=
  s.onHw fun h => h.spdmAt .doe 0xE4 3 fun h =>
    if h.is R.SEC_BOOT_STATUS_DEBUG then h.spdmAnswer .doe 0xE4 Ans.denied []
    else (h.setSpdm .doe { h.spdmSt .doe with session := 1 }).signed .doe 0xE4 []

/-- FINISH. -/
def execFinish (s : State) : Host.Outcome State Fault Refusal :=
  s.onHw fun h => h.spdmAt .doe 0xE5 3 fun h =>
    if (h.spdmSt .doe).session = 1 then (h.setSpdm .doe { h.spdmSt .doe with session := 2 }).spdmAnswer .doe 0xE5 Ans.ok []
    else h.spdmAnswer .doe 0xE5 Ans.notReady []

/-- END_SESSION. -/
def execEndSession (s : State) : Host.Outcome State Fault Refusal :=
  s.onHw fun h => h.spdmAt .doe 0xEC 3 fun h =>
    if (h.spdmSt .doe).session = 2 then (h.setSpdm .doe { h.spdmSt .doe with session := 0 }).spdmAnswer .doe 0xEC Ans.ok []
    else h.spdmAnswer .doe 0xEC Ans.notReady []

/-- CXL_IDE_KM (R385): in a session on DOE, the key of a port's stream is programmed, taken into use or out of use. -/
def execCxlIdeKm (port stream : Fin 2) (op : IdeOp) (s : State) : Host.Outcome State Fault Refusal :=
  s.onHw fun h => h.spdm .doe false fun h =>
    let k := 2 * port.val + stream.val
    if (h.spdmSt .doe).session ≠ 2 ∨ (port.val = 1 ∧ !h.is R.HIF_PORT_BIFUR) then h.spdmAnswer .doe 0x00 Ans.notReady []
    else match op, Tbl.find? k h.dev.ide with
      | .prog key, _ => ({ h with dev.ide := Tbl.insert k ⟨key, false⟩ h.dev.ide }).spdmAnswer .doe 0x00 Ans.ok []
      | .start, some x => ({ h with dev.ide := Tbl.insert k { x with act := true } h.dev.ide }).spdmAnswer .doe 0x00 Ans.ok []
      | .stop, some x => ({ h with dev.ide := Tbl.insert k { x with act := false } h.dev.ide }).spdmAnswer .doe 0x00 Ans.ok []
      | _, none => h.spdmAnswer .doe 0x00 Ans.notReady []

end Sys2Proof.Machine
end

