-- ==== Sys2Proof/Machine/HostIf.lean ====
section
/-! DEFINITION. The host interface (15_host_interface.md): register reads and writes (R6, R7, R396, R397), host DMA windows, MSI-X, the
trough as HDM (R389, R395), and what happens to functions and ports (R387, R390, R351, R352). -/

namespace Sys2Proof.Machine

/-! ## Functions and ports (R387 to R390, R352) -/

/-- Whether a port's link is up. -/
def Hw.portUp (s : Hw) (port : Nat) : Bool := s.mgt.phase == .run && s.is (if port = 0 then R.HIF_PORT_P0_UP else R.HIF_PORT_P1_UP)

/-- The port a function belongs to (Table 15.2). -/
def Hw.portOfFn (s : Hw) (f : Nat) : Nat := if s.is R.HIF_PORT_BIFUR && decide (32 ≤ f) then 1 else 0

/-- The functions of a port. -/
def Hw.fnsOf (s : Hw) (port : Nat) : List Nat := (List.range 64).filter fun f => s.portOfFn f == port

/-- Whether SR-IOV VF Enable has VF `f` in service: VFs are counted from the port's First VF Offset. -/
def Hw.vfOn (s : Hw) (f : Nat) : Bool :=
  let port := s.portOfFn f
  let first := if port = 0 then 1 else 32
  decide (first ≤ f) && decide (f < first + Tbl.get 0 port s.dev.vfs)

/-- A function disabled: its host DMA windows are cleared, its MSI-X is as after reset, none of its vectors is raised, its tenants
drain and are answered by count (R351, R352, R393, R398). -/
def Run.fnDisable (r : Run) (f : Nat) : Run :=
  let r := r.on fun s => { s with dev := { s.dev with dmaWin := s.dev.dmaWin.filter (fun kv => kv.1 / 8 != f), winDly := s.dev.winDly.filter (·.fn != f),
                                                      msix := s.dev.msix.filter (fun kv => kv.1 / 4096 != f), msixEn := s.dev.msixEn.filter (· ≠ f) } }
  (r.disableFn f true).on fun s => { s with dev.fnOff := f :: s.dev.fnOff.filter (· ≠ f) }

/-- A function enabled again: the windows of its enabled tenants (R42) are reset as R231 states. -/
def Run.fnEnable (r : Run) (f : Nat) : Run :=
  if r.hw.dev.fnOff.contains f then
    let ts := ((r.hw.dev.truss.map (·.tenants)).getD []).filter fun t => t.enabled && t.function == f
    (r.each ts fun t r => r.clearWindow t).on fun s => { s with dev.fnOff := s.dev.fnOff.filter (· ≠ f) }
  else r

/-- Every function of a port disabled. -/
def Run.portDisable (r : Run) (port : Nat) : Run :=
  (r.each (r.hw.fnsOf port) fun f r => r.fnDisable f).on fun s => { s with dev.vfs := Tbl.erase port s.dev.vfs }

/-- A port's link down. -/
def Hw.portDown (s : Hw) (port : Nat) : Hw :=
  if port = 0 then ((s.set R.HIF_PORT_P0_UP 0 0).set R.HIF_PORT_P0_WIDTH 0 0).set R.HIF_PORT_P0_RATE 0 0
  else ((s.set R.HIF_PORT_P1_UP 0 0).set R.HIF_PORT_P1_WIDTH 0 0).set R.HIF_PORT_P1_RATE 0 0

/-- PERST_DEASSERT: on port 0 the strap HOST_BIFUR is sampled (R387, R407). -/
def execPerstDeassert (port : Fin 2) (bifur : Bool) (s : State) : Host.Outcome State Fault Refusal :=
  s.onHw fun h =>
    if !h.lit || h.dev.ports.contains port.val then h
    else
      let h := { h with dev.ports := port.val :: h.dev.ports }
      if port.val = 0 then h.set R.HIF_PORT_BIFUR 0 (if bifur then 1 else 0) else h

/-- PERST_ASSERT (R390): on port 0 a device reset; on port 1 of two, its functions are disabled; of one, PERST_N[1] is ignored. -/
def execPerstAssert (port : Fin 2) (s : State) : Host.Outcome State Fault Refusal :=
  s.run fun r =>
    if !(r.hw.dev.ports.contains port.val) then r
    else
      let r := r.on fun s => { s with dev.ports := s.dev.ports.filter (· ≠ port.val) }
      if port.val = 0 then r.deviceReset 7
      else if r.hw.is R.HIF_PORT_BIFUR then (r.portDisable 1).on fun s => s.portDown 1 else r

/-- FLR (R390): of the PF a device reset, of the carrier function a disable of port 1, of a VF its disable. -/
def execFlr (f : HostFn) (s : State) : Host.Outcome State Fault Refusal :=
  s.run fun r => match f with
    | .pf => if r.hw.portUp 0 then r.deviceReset 7 else r
    | .cf => if r.hw.portUp 1 && r.hw.is R.HIF_PORT_BIFUR then r.portDisable 1 else r
    | .vf f => if r.hw.portUp (r.hw.portOfFn f.val) && r.hw.vfOn f.val then r.fnDisable f.val else r

/-- CXL_RESET of a port (R390). -/
def execCxlReset (port : Fin 2) (s : State) : Host.Outcome State Fault Refusal :=
  s.run fun r =>
    if !(r.hw.portUp port.val) then r else if port.val = 0 then r.deviceReset 7 else if r.hw.is R.HIF_PORT_BIFUR then r.portDisable 1 else r

/-- CXL_LINK_DOWN_TIMEOUT: a port's link has been down for more than 1 ms. -/
def execCxlLinkDownTimeout (port : Fin 2) (s : State) : Host.Outcome State Fault Refusal :=
  s.run fun r => if r.hw.portUp port.val then (r.portDisable port.val).on fun s => s.portDown port.val else r

/-- VF_ENABLE: NumVFs of a port's VFs come into service (R352); at most as many as the port has (Table 15.2). -/
def execVfEnable (port : Fin 2) (num : Fin 64) (s : State) : Host.Outcome State Fault Refusal :=
  s.run fun r =>
    if !(r.hw.portUp port.val) then r
    else
      let two := r.hw.is R.HIF_PORT_BIFUR
      let n := min num.val (if port.val = 1 then 32 else if two then 31 else 63)
      let r := r.on fun s => { s with dev.vfs := Tbl.set 0 port.val n s.dev.vfs }
      r.each ((List.range n).map ((if port.val = 0 then 1 else 32) + ·)) fun f r => r.fnEnable f

/-- VF_DISABLE: the VFs of a port are disabled. -/
def execVfDisable (port : Fin 2) (s : State) : Host.Outcome State Fault Refusal :=
  s.run fun r =>
    if !(r.hw.portUp port.val) then r
    else
      let r := r.each ((r.hw.fnsOf port.val).filter fun f => r.hw.vfOn f) fun f r => r.fnDisable f
      r.on fun s => { s with dev.vfs := Tbl.erase port.val s.dev.vfs }

/-- D3HOT: the PF entering D3hot disables every function (Table 15.1). -/
def execD3hot (s : State) : Host.Outcome State Fault Refusal := s.byHost fun r => (r.portDisable 0).portDisable 1

/-! ## Host DMA windows (R392, R393) -/

/-- The BASE and LIMIT register values of window `w` of function `f`: the last ones written. -/
def Hw.winRegs (s : Hw) (f w : Nat) : Nat × Nat := match (s.dev.winDly.filter fun d => d.fn == f && d.win == w).getLast? with
  | some d => (d.base, d.limit)
  | none => Tbl.get (0, 0) (f * 8 + w) s.dev.dmaWin

/-- The two registers of a window written: checks begun from 1 µs later on use them; writes already in force are kept as such. -/
def Hw.setWin (s : Hw) (f w base limit : Nat) : Hw :=
  let old := s.effWin f w
  let later := s.dev.winDly.filter fun d => !(d.fn == f && d.win == w && decide (d.due ≤ s.clk.now))
  { s with dev := { s.dev with dmaWin := Tbl.set (0, 0) (f * 8 + w) old s.dev.dmaWin, winDly := later ++ [⟨f, w, base, limit, s.clk.now + 100⟩] } }

/-- The bits that a window's registers hold: EN, RD, WR and the page of BASE, the page of LIMIT. -/
def baseMask : Nat := 2 ^ 64 - 4096 + 7
def limitMask : Nat := 2 ^ 64 - 4096

/-- DMA_WINDOW_WRITE: an 8 B write of one register of a window. -/
def execDmaWindowWrite (f : FnId) (w : Fin 8) (limit : Bool) (value : BitVec 64) (s : State) : Host.Outcome State Fault Refusal :=
  s.byHostHw fun h =>
    let (b, l) := h.winRegs f.val w.val
    if limit then h.setWin f.val w.val b (value.toNat &&& limitMask) else h.setWin f.val w.val (value.toNat &&& baseMask) l

/-! ## MSI-X (R398) -/

/-- How many vectors a function has. -/
def vectors (f : Nat) : Nat := if f = 0 then 2048 else 32

/-- A pending message of a vector sent, where nothing masks it. -/
def Hw.msixFlush (s : Hw) (f v : Nat) : Hw :=
  let e := s.msixEntry f v
  if e.pending && !e.masked && s.dev.msixEn.contains f && !(s.dev.fnOff.contains f) then
    (s.modMsix f v fun e => { e with pending := false }).emit (.msi f v e.addr e.data)
  else s

/-- MSIX_UNMASK. -/
def execMsixUnmask (f : FnId) (v : Fin 2048) (s : State) : Host.Outcome State Fault Refusal :=
  s.onHw fun h =>
    if h.portUp (h.portOfFn f.val) && (f.val == 0 || h.vfOn f.val) && decide (v.val < vectors f.val) then
      (h.modMsix f.val v.val fun e => { e with masked := false }).msixFlush f.val v.val
    else h

/-! ## What registers show -/

/-- Whether an engine of stall `n` runs a command of an opcode, and whether a hub engine runs one for some pen. -/
def Hw.stlBusy (s : Hw) (n : Nat) (k : EngKind) (op : Nat) : Nat := if (s.eng (engKey n k 0)).run.any fun q => fld q.cmd 0 1 == op then 1 else 0
def Hw.hubBusy (s : Hw) (m : Nat) (k : EngKind) : Nat := if (List.range 16).any fun p => (s.eng (engKey m k p)).run.isSome then 1 else 0

/-- The slot SPD_TAG_SEL selects. -/
def Hw.tagged (s : Hw) (n : Nat) : SlotSt := Tbl.get {} (s.get R.SPD_TAG_SEL_SLOT n) (s.stl n).slots

/-- The unavailable-list entry that ERR_RF_SEL selects. -/
def Hw.rfEntry (s : Hw) : Option Unavail := (Tbl.get [] (s.get R.ERR_RF_SEL_HUB) s.dev.unav)[s.get R.ERR_RF_SEL_ENTRY]?

/-- Whether tenant `t` is shown in the view of function `f`: the PF's shows all, a VF's its own enabled ones. -/
def Hw.viewShows (s : Hw) (f t : Nat) : Bool := f == 0 || match s.tenant t with
  | some x => x.function == f && x.enabled
  | none => false

/-- What the fields show that follow other state, in the view of function `f` (Tables 15.6, 15.7); every other field shows what the
register store holds. -/
def Hw.view (s : Hw) (fn : Nat) (f : Fld) (i : Nat) : Nat :=
  let b := fun (c : Bool) => if c then 1 else 0
  if f = R.FSQ_TICK_ELAPSED_US then (if s.clk.running then s.elapsedUs else 0)
  else if f = R.STL_STATUS_TDA_BUSY then s.stlBusy i .tda 0x21
  else if f = R.STL_STATUS_LUT_BUSY then s.stlBusy i .lut 0x22
  else if f = R.SPD_STATUS_DMA_BUSY then s.stlBusy i .dma 0x12
  else if f = R.SMP_STATUS_BUSY then s.stlBusy i .sampler 0x61
  else if f = R.CDE_STATUS_BUSY then s.hubBusy i .cde
  else if f = R.MHB_SCF_STATUS_BUSY then s.hubBusy i .scarf
  else if f = R.SPD_TAG_VIEW_GEN then (s.tagged i).gen
  else if f = R.SPD_TAG_VIEW_FULL then b (s.tagged i).full
  else if f = R.SPD_TAG_VIEW_PNEXT then b (s.tagged i).pnext
  else if f = R.SPD_TAG_VIEW_READS_LEFT then (s.tagged i).reads
  else if f = R.LNK_RT_DATA_ENTRY then Tbl.get 0 (s.get R.LNK_RT_ADDR_DEV) s.dev.shadow
  else if f = R.ERR_LOG_WIN_RECORD then ((s.mgt.log.ring.find? (·.seq == s.get R.ERR_LOG_SEL_SEL)).map fun r => leNat r.bytes).getD 0
  else if f = R.ERR_RF_VIEW_HDR then (s.rfEntry.map (·.hdr)).getD 0
  else if f = R.ERR_RF_VIEW_STATE then (s.rfEntry.map (·.state)).getD 0
  else if f = R.ERR_RF_BLOCK_BLOCK then (s.rfEntry.map (·.block)).getD 0
  else if f = R.ERR_RF_BLOCK_FRAMES then (s.rfEntry.map fun u => min (s.clk.frame - u.listed) 255).getD 0
  else if f = R.SDG_UPTIME_S then (if s.mgt.sdgUp then (s.clk.now - s.mgt.bootAt) / second else 0)
  else if f = R.HIF_WIN_BASE_EN then bits (s.winRegs (i / 8) (i % 8)).1 0 1
  else if f = R.HIF_WIN_BASE_RD then bits (s.winRegs (i / 8) (i % 8)).1 1 1
  else if f = R.HIF_WIN_BASE_WR then bits (s.winRegs (i / 8) (i % 8)).1 2 1
  else if f = R.HIF_WIN_BASE_BASE then (s.winRegs (i / 8) (i % 8)).1 / 4096
  else if f = R.HIF_WIN_LIMIT_LIMIT then (s.winRegs (i / 8) (i % 8)).2 / 4096
  else if f = R.FN_ID_FUNCTION then fn
  else if f = R.FN_ID_DISABLING then s.get R.ERR_FN_STATUS_DISABLING fn
  else if f = R.FN_LOST_LOST then s.get R.ERR_FN_STATUS_LOST fn
  else if f = R.FN_TENANTS_TENANTS then (((List.range 64).filter fun t => s.viewShows fn t).map (2 ^ ·)).sum
  else if f = R.FN_WIN_WINDOW then (s.winRegs fn i).1 + 2 ^ 64 * (s.winRegs fn i).2
  else if R.tbl15_7.contains f then
    if !s.viewShows fn i then 0
    else if f = R.TV_BUCKET_LEVEL then (s.ten i).bucket
    else if f = R.TV_ENERGY_UJ then s.get R.PWR_TEN_ENERGY_UJ i
    else if f = R.TV_CRIB_BASE_BASE then (if (s.win i).latched then (s.win i).cribBase else 0)
    else if f = R.TV_CRIB_LEN_LEN then (if (s.win i).latched then (s.win i).cribLen else 0)
    else if f = R.TV_CHARGED_TOKENS then (s.ten i).charged
    else s.get f i
  else s.get f i

/-- Whether instance `i` of a field is a register of an absent pen, which reads 0 (R52; PEN_, FSQ_, GEN_, KVM_, ZLT_, YOK_, ERR_,
PWR_PEN_ENERGY). -/
def Hw.penGone (s : Hw) (f : Fld) (i : Nat) : Bool :=
  f.n1 == 16 && decide (f.n2 < 16) && !(R.tbl2_13.contains f && f.acc != .RWT) && !(s.present (i / f.n2))

/-- Whether an address of PF BAR0 responds: in recovery HIF_MODULE_ID and SEC_BOOT_STATUS alone; in limited service the blocks of the
dies that were not started do not (R396, R373). -/
def Hw.responds (s : Hw) (a : Nat) : Bool :=
  let st := s.get R.SEC_BOOT_STATUS_STATE
  if st = 2 then a == 0 || a == 0x18000
  else if st = 1 then !((decide (0x12000 ≤ a) && decide (a < 0x14000)) || (decide (0x19000 ≤ a) && decide (a < 0x100000)))
  else true

/-- The instance of a field that the 32-bit word at address `a` shows, with the word's bit offset in the register. -/
def Fld.wordAt (f : Fld) (a : Nat) : Option (Nat × Nat) :=
  if a < f.addr then none
  else
    let i1 := if f.s1 = 0 then 0 else min ((a - f.addr) / f.s1) (f.n1 - 1)
    let r := a - f.addr - i1 * f.s1
    let i2 := if f.s2 = 0 then 0 else min (r / f.s2) (f.n2 - 1)
    let o := 8 * (r - i2 * f.s2)
    if o < f.lo + f.width ∧ f.lo < o + 32 then some (i1 * f.n2 + i2, o) else none

/-- The fields in the word at `a`: field, instance, the word's bit offset. -/
def fieldsAt (a : Nat) : List (Fld × Nat × Nat) := R.all.filterMap fun f => (f.wordAt a).map fun x => (f, x)

/-- The word at `a` as function `fn` sees it. -/
def Hw.word (s : Hw) (fn a : Nat) : Nat :=
  if !s.responds a then 0
  else ((fieldsAt a).map fun x =>
    let v := if s.penGone x.1 x.2.1 then 0 else s.view fn x.1 x.2.1
    ((v <<< x.1.lo) >>> x.2.2) % 2 ^ 32).sum

/-- What a read of the word at `a` finds changed first, because no command shows it: corrected FEC codewords and malformed MCTP messages,
which are free values (log 41). -/
def Hw.refresh (s : Hw) (a : Nat) : Hw :=
  s.each (fieldsAt a) fun x s =>
    if x.1 = R.LNK_FEC_CORR_CORR ∨ x.1 = R.SDG_OOB_COUNTS_MCTP_BAD then let (v, s) := s.draw; s.inc x.1 x.2.1 v
    else s

/-- The RC fields in the word at `a` cleared; a running minimum to its all-ones value (R7). -/
def Hw.clearRc (s : Hw) (a : Nat) : Hw :=
  if !s.responds a then s
  else s.each (fieldsAt a) fun x s => if x.1.acc = .RC then s.set x.1 x.2.1 (if x.1 = R.PWR_SAG_MIN_VIN then 0xFFFF else 0) else s

/-- Whether the word at `a` is the high word of a 64-bit register; a wider one is read word by word. -/
def highWord (a : Nat) : Bool := (fieldsAt a).any fun x => x.2.2 == 32 && decide (x.1.lo + x.1.width ≤ 64)

/-- A 4 B read: a low word latches its high word, and a high word answers what was latched (R396). -/
def Hw.read4 (s : Hw) (fn a : Nat) : Nat × Hw :=
  let k := fn * 2 ^ 32 + a
  let s := s.refresh a
  if highWord a then
    match Tbl.find? k s.latch with
    | some v => (v, { s with latch := Tbl.erase k s.latch })
    | none => (s.word fn a, s)
  else if highWord (a + 4) then
    let s := s.refresh (a + 4)
    (s.word fn a, (({ s with latch := Tbl.insert (k + 4) (s.word fn (a + 4)) s.latch }).clearRc a).clearRc (a + 4))
  else (s.word fn a, s.clearRc a)

/-- An 8 B read, atomic for a 64-bit register. -/
def Hw.read8 (s : Hw) (fn a : Nat) : Nat × Hw :=
  let s := (s.refresh a).refresh (a + 4)
  (s.word fn a + 2 ^ 32 * s.word fn (a + 4), (s.clearRc a).clearRc (a + 4))

/-- An MSI-X word: address low and high, data, mask; the pending bits lie at 0x8000, for a VF at 0x800. -/
def Hw.msixWord (s : Hw) (f a : Nat) : Nat :=
  let pba := if f = 0 then 0x8000 else 0x800
  if a < 16 * vectors f then
    let e := s.msixEntry f (a / 16)
    if a % 16 = 0 then e.addr % 2 ^ 32 else if a % 16 = 4 then e.addr / 2 ^ 32 else if a % 16 = 8 then e.data else if e.masked then 1 else 0
  else if pba ≤ a ∧ a < pba + vectors f / 8 then
    (((List.range 32).filter fun i => (s.msixEntry f ((a - pba) * 8 + i)).pending).map (2 ^ ·)).sum
  else 0

/-- Whether a function's registers are served: its port is up and, for a VF, VF Enable has it in service. -/
def Hw.fnServed (s : Hw) (f : Nat) : Bool := s.portUp (s.portOfFn f) && (f == 0 || s.vfOn f)

/-- Whether registers accept an access: 4 B or 8 B, aligned (R396). -/
def accessOk (a size : Nat) : Bool := (size == 4 || size == 8) && a % size == 0

/-- An access to a register space: what it reads, and the state after. One that registers do not accept reads 0; one to a function not
served has no answer. -/
def Hw.regRead (s : Hw) (sp : Space) (a size : Nat) : Option (Nat × Hw) :=
  let bar := fun (fn a : Nat) => if !(accessOk a size) then (0, s) else if size = 8 then s.read8 fn a else s.read4 fn a
  match sp with
  | .bar0 => if s.hostUp then some (bar 0 a) else none
  | .cf => if s.portUp 1 && s.is R.HIF_PORT_BIFUR then some (if a = 0 ∧ accessOk a size = true then s.word 0 0 else 0, s) else none
  | .vf f => if s.fnServed f.val && f.val != 0 then some (if a < 0x40000 then bar f.val (0x100000 + a) else (0, s)) else none
  | .bar2 f => if s.fnServed f.val then
      some (if !(accessOk a size) then 0 else s.msixWord f.val a + (if size = 8 then 2 ^ 32 * s.msixWord f.val (a + 4) else 0), s) else none
  | .msixCtl f => if s.fnServed f.val then some (if s.dev.msixEn.contains f.val then 1 else 0, s) else none

/-- A register read answered. -/
def Hw.readOut (s : Hw) (sp : Space) (a size : Nat) : Hw := match s.regRead sp a size with
  | some (v, s) => s.emit (.reg sp a v)
  | none => s

/-- RC_FIELD_READ (R7): a read of any size, RC fields or not. -/
def execRcFieldRead (sp : Space) (a size : Nat) (s : State) : Host.Outcome State Fault Refusal := s.onHw fun h => h.readOut sp a size

/-- LOW_WORD_READ (R396): a read of 4 B. -/
def execLowWordRead (sp : Space) (a : Nat) (s : State) : Host.Outcome State Fault Refusal := s.onHw fun h => h.readOut sp a 4

/-! ## Register writes (R6, R396) -/

/-- Fields that a write acts on by a rule of their own, and never simply stores. -/
def actingFlds : List Fld :=
  [R.TRS_CTRL_START, R.TRS_CTRL_QUIESCE, R.TRS_CTRL_ABORT, R.FSQ_ROTA_CTRL_APPLY, R.FSQ_ROTA_LO_ENTRY0_7, R.FSQ_ROTA_HI_ENTRY8_15, R.FSQ_PLAN_CMD_START,
   R.FSQ_PLAN_CMD_ABORT, R.MHB_RET_ENTRY_PAGE, R.MHB_RET_ENTRY_VALID, R.MHB_LOFT_RET_ENTRY_GRANULE, R.MHB_LOFT_RET_ENTRY_VALID, R.MHB_SCRUB_CTRL_PERIOD_H,
   R.KVM_CTRL_APPLY, R.LNK_CTRL_RETRAIN, R.LNK_CTRL_SER_EXP, R.LNK_RT_CTRL_COMMIT, R.LNK_RT_DATA_ENTRY, R.PEG_GCFG_ENABLE, R.PEG_GCFG_RESET,
   R.PEG_GCFG_PEN, R.PEG_GCFG_LOCAL_N, R.PEG_GCFG_CHILD_COUNT, R.PEG_GPARENT_PARENT_DEV, R.PEG_GTAG_GROUP_TAG, R.PEG_GTO_PEER_TO_US, R.YOK_CTRL_DEMOTE,
   R.PWR_CAP_CAP_W, R.PWR_SAG_ILIM_ILIM_A, R.ERR_DEV_CTRL_RESET, R.ERR_DEV_CTRL_NO_DUMP, R.ERR_DEV_CTRL_KEY, R.ERR_DUMP_CTRL_COPY, R.ERR_PEN_CTRL_FENCE,
   R.ERR_PEN_CTRL_RESUME, R.SEC_ARC_COMMIT_GO, R.SEC_KEY_CTRL_APPLY, R.HIF_WIN_BASE_EN, R.HIF_WIN_BASE_RD, R.HIF_WIN_BASE_WR, R.HIF_WIN_BASE_BASE,
   R.HIF_WIN_LIMIT_LIMIT]

/-- The bits of a field that a word write at bit offset `o` reaches: the field's new raw value with those bits from the word. -/
def laid (f : Fld) (o v old : Nat) : Nat :=
  let lo := max f.lo o
  let hi := min (f.lo + f.width) (o + 32)
  setBits old (lo - f.lo) (hi - lo) (bits v (lo - o) (hi - lo))

/-- A word stored as the access codes state: RW takes it, W1C clears where it is 1, the others discard it. -/
def Hw.storeWord (s : Hw) (a v : Nat) : Hw :=
  s.each (fieldsAt a) fun x s =>
    let (f, i, o) := x
    if actingFlds.contains f || (s.penGone f i && decide (0x12000 ≤ a) && decide (a < 0x14000)) then s
    else match f.acc with
      | .RW => s.set f i (laid f o v (s.get f i))
      | .W1C => let w := laid f o v 0; s.set f i (s.get f i - (s.get f i &&& w))
      | _ => s

/-- What a word written to an acting register does. -/
def Run.actWord (r : Run) (a v : Nat) : Run :=
  let pen := (a - 0x12100) / 0x100
  let inPen := decide (0x12100 ≤ a) && decide (a < 0x13100) && r.hw.present pen
  let off := (a - 0x12100) % 0x100
  let on := fun (c : Bool) (f : Hw → Hw) (r : Run) => if c then r.on f else r
  if a = 0x10000 then
    on (bit v 0) (·.trsStart) (on (bit v 2) (·.trsAbort) (r.on fun s => s.trsQuiesce (bit v 1)))
  else if inPen && off == 0x04 then on (bit v 4) (·.rotaApply pen) r
  else if inPen && off == 0x08 then r.on fun s => s.set R.FSQ_ROTA_LO_ENTRY0_7 pen (v &&& 0x77777777)
  else if inPen && off == 0x0C then r.on fun s => s.set R.FSQ_ROTA_HI_ENTRY8_15 pen (v &&& 0x77777777)
  else if inPen && off == 0x2C then on (bit v 3) (·.planStart pen) (on (bit v 4) (·.planAbort pen) r)
  else if 0x90000 ≤ a ∧ a < 0xA0000 then r.on fun s => s.retirePage ((a - 0x90000) / 0x1000) ((a - 0x90000) % 0x1000 / 4) v
  else if 0xA0000 ≤ a ∧ a < 0xA4000 then r.on fun s => s.retireLoft ((a - 0xA0000) / 4) v
  else if 0x80000 ≤ a ∧ a < 0x82000 ∧ (a - 0x80000) % 0x400 = 0x3C then
    r.on fun s => s.set R.MHB_SCRUB_CTRL_PERIOD_H ((a - 0x80000) / 0x400) (let p := bits v 0 8; if 1 ≤ p ∧ p ≤ 168 then p else 0x18)
  else if 0x1E000 ≤ a ∧ a < 0x1F000 ∧ (a - 0x1E000) % 0x100 = 0x20 then on (bit v 0) (·.kvmApply ((a - 0x1E000) / 0x100)) r
  else if 0x19000 ≤ a ∧ a < 0x19480 ∧ (a - 0x19000) % 0x40 = 4 then
    let l := (a - 0x19000) / 0x40
    on (bit v 0) (·.linkRetrain l) (r.on fun s => s.set R.LNK_CTRL_SER_EXP l (let e := bits v 1 3; if 3 ≤ e then e else 4))
  else if a = 0x19804 then on (bit v 0) (·.set R.LNK_RT_CTRL_COMMIT 0 1) r
  else if a = 0x1980C then r.on fun s => { s with dev.shadow := Tbl.set 0 (s.get R.LNK_RT_ADDR_DEV) (bits v 0 16) s.dev.shadow }
  else if 0x1B000 ≤ a ∧ a < 0x1C000 ∧ (a - 0x1B000) % 0x40 < 0x10 then r.on fun s => s.pegConfig ((a - 0x1B000) / 0x40) ((a - 0x1B000) % 0x40 / 4) v
  else if a = 0x1C00C then r.each ((setBitsOf 16 v).filter fun p => r.hw.present p) fun p r => r.demote p
  else if a = 0x15004 then r.on fun s => s.setCap (bits v 0 12)
  else if a = 0x15008 then r.on fun s => s.set R.PWR_SAG_ILIM_ILIM_A 0 (let i := bits v 0 8; if 50 ≤ i ∧ i ≤ 64 then i else 0x3A)
  else if 0x14100 ≤ a ∧ a < 0x14300 ∧ (a - 0x14100) % 0x20 = 4 then
    let p := (a - 0x14100) / 0x20
    on (bit v 2) (·.penResume p) (on (bit v 0) (·.hostFence p) r)
  else if a = 0x14088 then
    if bit v 0 then (if bits v 16 16 = 0x4B52 then r.hostReset (bit v 1) else r)
    else r.on fun s => (s.set R.ERR_DEV_CTRL_NO_DUMP 0 (bits v 1 1)).set R.ERR_DEV_CTRL_KEY 0 (bits v 16 16)
  else if a = 0x140D0 then on (bit v 3) (·.dumpCopy) r
  else if a = 0x1800C then on (bit v 0) (·.arcCommit (bits v 16 16)) r
  else if a = 0x18038 then on (bit v 0) (·.keyApply) r
  else r

/-- A write to a window's registers, whole or one word of one of them. -/
def Hw.winWrite (s : Hw) (a v : Nat) (wide : Bool) : Hw :=
  let f := (a - 0x1000) / 0x80
  let w := (a - 0x1000) % 0x80 / 0x10
  let o := (a - 0x1000) % 0x10
  let (b, l) := s.winRegs f w
  let new := fun old => if wide then v % 2 ^ 64 else setBits old (8 * (o % 8)) 32 v
  if o < 8 then s.setWin f w (new b &&& baseMask) l else s.setWin f w b (new l &&& limitMask)

/-- A write to PF BAR0. -/
def Run.barWrite (r : Run) (a v size : Nat) : Run :=
  if !(accessOk a size) ∨ !(r.hw.responds a) then r
  else if 0x1000 ≤ a ∧ a < 0x3000 then r.on fun s => s.winWrite a v (size == 8)
  else
    let lo := v % 2 ^ 32
    let hi := v / 2 ^ 32 % 2 ^ 32
    let r := r.on fun s => s.storeWord a lo
    if size = 8 then ((r.on fun s => s.storeWord (a + 4) hi).actWord a lo).actWord (a + 4) hi else r.actWord a lo

/-- A word written to a function's MSI-X table; a mask cleared sends what is pending. -/
def Hw.msixWrite (s : Hw) (f a v : Nat) : Hw :=
  if a < 16 * vectors f then
    let n := a / 16
    if a % 16 = 0 then s.modMsix f n fun e => { e with addr := setBits e.addr 0 32 v }
    else if a % 16 = 4 then s.modMsix f n fun e => { e with addr := setBits e.addr 32 32 v }
    else if a % 16 = 8 then s.modMsix f n fun e => { e with data := v }
    else (s.modMsix f n fun e => { e with masked := bit v 0 }).msixFlush f n
  else s

/-- A function's MSI-X enabled or disabled; what is pending and unmasked is sent. The PF's bring-up, which starts here, enables the PF
(R390, Table 15.9). -/
def Run.msixEnable (r : Run) (f : Nat) (on : Bool) : Run :=
  let r := r.on fun s => { s with dev.msixEn := if on then f :: s.dev.msixEn.filter (· ≠ f) else s.dev.msixEn.filter (· ≠ f) }
  let r := if on && f == 0 then r.fnEnable 0 else r
  r.on fun s => s.each ((s.dev.msix.filter fun kv => kv.1 / 4096 == f).map (·.1 % 4096)) fun v s => s.msixFlush f v

/-- REGISTER_WRITE (R6): a write that registers do not accept is discarded; one to a register whose command has a row of its own does what
that row says. -/
def execRegisterWrite (sp : Space) (a size value : Nat) (s : State) : Host.Outcome State Fault Refusal :=
  s.run fun r => match sp with
    | .bar0 => if r.hw.hostUp then r.barWrite a value size else r
    | .cf => r
    | .vf _ => r
    | .bar2 f =>
      if r.hw.fnServed f.val ∧ accessOk a size = true then
        r.on fun s =>
          let s := s.msixWrite f.val a (value % 2 ^ 32)
          if size = 8 then s.msixWrite f.val (a + 4) (value / 2 ^ 32 % 2 ^ 32) else s
      else r
    | .msixCtl f => if r.hw.fnServed f.val then r.msixEnable f.val (bit value 0) else r

/-! ## The trough as HDM (R389, R395) and snoops -/

/-- Whether a port may reach an extent of the trough: in ×8 mode, only the windows of enabled tenants (R42) whose FUNCTION is the
port's. -/
def Hw.hdmReach (s : Hw) (port a n : Nat) : Bool :=
  !s.is R.HIF_PORT_BIFUR || ((s.dev.truss.map (·.tenants)).getD []).any fun t => t.enabled && s.portOfFn t.function == port && within a n t.window (t.size * 0x10000)

/-- HDM_WRITE: a host write within one line of the trough; one with poison poisons the line, one of the whole line clears it. -/
def execHdmWrite (port : Fin 2) (off : Nat) (bytes : Bytes) (poison : Bool) (ups : List Upset) (s : State) : Host.Outcome State Fault Refusal :=
  s.run fun r =>
    if !(r.hw.portUp port.val) || decide (troughSize < off + bytes.length) || decide (64 < off % 64 + bytes.length) then r
    else if !(r.hw.hdmReach port.val (troughBase + off) bytes.length) then r.on fun s => s.inc R.HIF_HDM_DENY_COUNT
    else (r.on fun s => s.upset ups).store (troughBase + off) bytes (if poison then 1 else 0)

/-- HDM_READ: a host read within one line; filtered, it returns zeros. -/
def execHdmRead (port : Fin 2) (off len : Nat) (ups : List Upset) (s : State) : Host.Outcome State Fault Refusal :=
  s.run fun r =>
    if !(r.hw.portUp port.val) || decide (troughSize < off + len) || decide (64 < off % 64 + len) then r
    else if !(r.hw.hdmReach port.val (troughBase + off) len) then r.on fun s => (s.inc R.HIF_HDM_DENY_COUNT).emit (.hdm (zeros len) false)
    else
      let r := (r.on fun s => s.upset ups).sense (troughBase + off) len
      r.on fun s => s.emit (.hdm (r.read (troughBase + off) len) (bit (r.marks (troughBase + off) len) 0))

/-- HOST_SNOOP: the device holds no line (Table 15.1). -/
def execHostSnoop (port : Fin 2) (addr : Nat) (s : State) : Host.Outcome State Fault Refusal :=
  s.onHw fun h => if h.portUp port.val then h.emit (.snoop addr) else h

end Sys2Proof.Machine
end

