-- ==== Sys2Proof/Machine/Sampler.lean ====
section
/-! DEFINITION. The sampler slice (Section 11 of 09_serving.md): SAMPLE. -/

namespace Sys2Proof.Machine

/-- The fields of a SAMPLE command (Table 9.11). -/
structure Smp where
  pos   : Nat
  gen   : Nat
  v     : Nat
  cReg  : Nat
  lReg  : Nat
  sReg  : Nat
  mReg  : Nat
  oReg  : Nat
  lOff  : Nat
  sOff  : Nat
  mOff  : Nat
  oOff  : Nat
  cOff  : Nat
  bound : Nat
  slotL : Nat
  slotM : Nat
  slotO : Nat
deriving DecidableEq, Repr

/-- The fields read from the command's 64 bytes. -/
def Smp.of (b : Bytes) : Smp :=
  { pos := fld b 1 1, gen := fld b 2 1, cReg := fld b 3 1, v := fld b 4 4, lReg := fld b 8 1, sReg := fld b 9 1, mReg := fld b 0xA 1,
    oReg := fld b 0xB 1, lOff := fld b 0xC 4, sOff := fld b 0x10 4, mOff := fld b 0x14 4, oOff := fld b 0x18 4, cOff := fld b 0x1C 4,
    bound := fld b 0x20 4, slotL := fld b 0x24 2, slotM := fld b 0x26 2, slotO := fld b 0x28 2 }

/-- Whether a command is malformed (R264). -/
def Smp.bad (f : Smp) (b : Bytes) : Bool :=
  b.length != 64 || decide (31 < f.pos) || decide (7 < f.gen) || decide (f.v = 0) || decide (262144 < f.v) || decide (7 < f.cReg) ||
  decide (7 < f.lReg) || decide (7 < f.sReg) || decide (7 < f.mReg) || decide (7 < f.oReg) || f.lOff % 64 != 0 || f.mOff % 64 != 0 ||
  f.oOff % 16 != 0 || f.cOff % 64 != 0 || decide (52000 < f.bound) || decide (f.bound < 80 + 6 * cdiv f.v 64) || !(zeroAt b 0x2A 22)

def Smp.logits (f : Smp) : Ext := ⟨f.lReg, f.lOff, 2 * f.v⟩
def Smp.entry (f : Smp) : Ext := ⟨f.sReg, f.sOff + 64 * f.pos, 64⟩
def Smp.mask (f : Smp) : Ext := ⟨f.mReg, f.mOff, 16⟩
def Smp.ctx (f : Smp) : Ext := ⟨f.cReg, f.cOff, 64⟩
def Smp.out (f : Smp) : Ext := ⟨f.oReg, f.oOff, 16⟩

/-- A mask in force: none; a list with its bitmap; an automaton with its table, its states and the state it is in (R262). -/
inductive Mask where
  | none
  | list (bitmap : Nat)
  | dfa (base off states state : Nat)
  | bad (code : Nat)
deriving DecidableEq, Repr

/-- The mask a step-table entry names (R262, R264). A KIND that is neither of the two is taken as a bad MASK_ID (log 22). -/
def Run.maskOf (r : Run) (c : Cx) (f : Smp) (id state : Nat) : Mask :=
  if id = 0xFFFF then .none
  else
    let base := r.hw.extAddr c.n c.eng c.tk f.mask
    if r.readNat base 4 ≠ 0x4B534D4B then .bad 2
    else if r.readNat (base + 8) 4 ≠ f.v then .bad 3
    else if r.readNat (base + 4) 2 ≤ id then .bad 1
    else
      let e := base + 16 + 16 * id
      let off := r.readNat (e + 4) 4
      let kind := r.readNat e 1
      if kind = 1 then .list (r.readNat (base + off) (cdiv f.v 8))
      else if kind = 2 then (if r.readNat (e + 8) 4 ≤ state then .bad 4 else .dfa base off (r.readNat (e + 8) 4) state)
      else .bad 1

/-- The tokens a mask allows, rising (R263, step 2). -/
def Run.allowed (r : Run) (m : Mask) (v : Nat) : List Nat := match m with
  | .none => List.range v
  | .list b => setBitsOf v b
  | .dfa base off _ st => setBitsOf v (r.readNat (base + r.readNat (base + off + 16 * st) 4) (cdiv v 8))
  | .bad _ => []

/-- A binary search of transitions for a token; `fuel` bounds its steps. -/
def Run.findTrans (r : Run) (tr tok : Nat) : Nat → Nat → Nat → Option Nat
  | 0, _, _ => none
  | fuel + 1, lo, hi =>
    if hi ≤ lo then none
    else
      let mid := (lo + hi) / 2
      let t := r.readNat (tr + 8 * mid) 4
      if t = tok then some (r.readNat (tr + 8 * mid + 4) 2)
      else if t < tok then findTrans r tr tok fuel (mid + 1) hi
      else findTrans r tr tok fuel lo mid

/-- The next automaton state after a token, and whether it accepts (R262). -/
def Run.nextState (r : Run) (base off st tok : Nat) : Nat × Bool :=
  let e := base + off + 16 * st
  let n := r.readNat (e + 8) 2
  let nx := (r.findTrans (base + r.readNat (e + 4) 4) tok 17 0 n).getD (r.readNat (e + 0xC) 2)
  (nx, bit (r.readNat (base + off + 16 * nx + 0xA) 1) 0)

/-- A key that orders LNS numbers by value. -/
def Lns.key (a : Lns) : Int := if a.isZero then 0 else if a.neg then -(a.l - lnsMin) else a.l - lnsMin

/-- The first of the greatest by key; ties go to the earlier. -/
def firstMax (xs : List (Nat × Lns)) : Option (Nat × Lns) :=
  xs.foldl (fun (b : Option (Nat × Lns)) x => match b with
    | none => some x
    | some y => if y.2.key < x.2.key then some x else some y) none

/-- The list in descending order of value, ties to the lower token; `fuel` bounds its length. -/
def descend : Nat → List (Nat × Lns) → List (Nat × Lns)
  | 0, _ => []
  | fuel + 1, xs => match firstMax xs with
    | none => []
    | some b => b :: descend fuel (xs.filter (·.1 != b.1))

/-- Running sums of a list of probabilities. -/
def cumulate : Lns → List (Nat × Lns) → List (Nat × Lns)
  | _, [] => []
  | acc, (t, p) :: xs => let s := (acc.add p).1; (t, s) :: cumulate s xs

/-- The tokens a draw chooses among, in descending probability, with their cumulative probabilities (R263, steps 4 to 7;
log 25). -/
def drawTable (topK temp topP : Nat) (xs : List (Nat × Lns)) : List (Nat × Lns) :=
  let t := Lns.of16 temp
  let ys := xs.map fun x => (x.1, if x.2.isZero then x.2 else (Lns.fit x.2.neg (x.2.l - t.l)).1)
  let ys := if topK = 0 then ys else
    let kept := (descend topK ys).map (·.1)
    ys.filter fun y => kept.contains y.1
  let ps := (ys.map (·.1)).zip (softmaxRow ⟨false, 0⟩ ys.length (ys.map (·.2))).1
  let cum := cumulate Lns.zero (descend ps.length ps)
  let p := Lns.of16 topP
  if p.l < 0 then
    let k := (cum.takeWhile fun x => decide (x.2.key < p.key)).length + 1
    let kept := cum.take k
    match kept.getLast? with
    | none => kept
    | some tot => kept.map fun x => (x.1, (Lns.fit false (x.2.l - tot.2.l)).1)
  else cum

/-- The token a drawn block selects: the first whose cumulative probability is at least u; the last where rounding leaves
none (log 25). -/
def pickToken (u : Nat) (cum : List (Nat × Lns)) : Option Nat :=
  match cum.find? fun x => decide (u * 2 ^ 32 ≤ (if x.2.isZero then 0 else pow2fix x.2.l)) with
  | some x => some x.1
  | none => cum.getLast?.map (·.1)

/-- What SAMPLE does for its position. -/
inductive SmpCase where
  | off
  | bad (code : Nat)
  | empty (state : Nat)
  | greedy (tok : Nat) (m : Mask)
  | draw (cum : List (Nat × Lns)) (m : Mask)
deriving DecidableEq, Repr

/-- The case of a SAMPLE (R263, R264). -/
def Run.smpCase (r : Run) (c : Cx) (f : Smp) : SmpCase :=
  let e := r.ext c f.entry
  if !(bit (fld e 3 1) 1) then .off
  else
    let st := fld (r.ext c f.ctx) 0x24 4
    match r.maskOf c f (fld e 0xC 2) st with
    | .bad k => .bad k
    | m =>
      let ok := r.allowed m f.v
      let base := r.hw.extAddr c.n c.eng c.tk f.logits
      let xs := ok.map fun t => (t, Lns.of16 (r.readNat (base + 2 * t) 2))
      match firstMax xs with
      | none => .empty (match m with | .dfa _ _ _ s => s | _ => 0)
      | some b => if fld e 0x10 2 = 0x4000 then .greedy b.1 m else .draw (drawTable (fld e 0xE 2) (fld e 0x10 2) (fld e 0x12 2) xs) m

/-- The output record (R263). -/
def smpRecord (tok state flags : Nat) : Bytes := leBytes 4 tok ++ leBytes 4 state ++ leBytes 1 flags ++ zeros 7

/-- A token chosen: the record, and with an automaton the next state in the resident record, which becomes dirty. -/
def Run.smpToken (r : Run) (c : Cx) (f : Smp) (tok : Nat) (k : Mask) (m : Nat) : Run :=
  match k with
  | .dfa base off _ st =>
    let (nx, acc) := r.nextState base off st tok
    let a := r.hw.extAddr c.n c.eng c.tk f.ctx
    let r := r.hdrSet c.p a [(0x24, leBytes 4 nx), (0x0D, leBytes 1 (r.readNat (a + 0x0D) 1 ||| 1))]
    let r := r.putExt c f.oReg f.oOff (smpRecord tok nx (if acc then 2 else 0)) m
    r.on fun s => if acc then s.incStl R.SMP_EMPTY_ACCEPT c.n else s
  | _ => r.putExt c f.oReg f.oOff (smpRecord tok 0 0) m

/-- The work of SAMPLE. -/
def Run.smpBody (c : Cx) (f : Smp) (k : SmpCase) (m : Nat) (r : Run) : Run × Nat :=
  match k with
  | .off => (r.putExt c f.oReg f.oOff (smpRecord 0xFFFFFFFF 0 0) m, m)
  | .bad code =>
    ((r.putExt c f.oReg f.oOff (smpRecord 0xFFFFFFFF 0 4) (m ||| 1)).on fun s =>
      (((s.incStl R.SMP_BAD_BAD c.n).set R.SMP_LAST_ERR_CODE c.n code).set R.SMP_LAST_ERR_TASK c.n (c.task % 2 ^ 24)).logCx c E.SMP_BAD 0 0xFFFF code,
     m ||| 1)
  | .empty st => ((r.putExt c f.oReg f.oOff (smpRecord 0xFFFFFFFF st 1) m).on fun s => s.incStl R.SMP_EMPTY_COUNT c.n, m)
  | .greedy tok k => ((r.smpToken c f tok k m).on fun s => s.incStl R.SMP_GREEDY_COUNT c.n, m)
  | .draw cum k =>
    let (bs, s, bad) := r.hw.drawBlocks c f.gen 1
    let r := { r with hw := s.incStl R.SMP_SAMPLES_COUNT c.n }
    (r.smpToken c f ((pickToken (((bs[0]?).getD 0) % 2 ^ 32) cum).getD 0xFFFFFFFF) k (m ||| bad), m ||| bad)

/-- SAMPLE (R263): a draw from a generator that does not serve the sampler is not executed (R141). -/
def execSample (n : StallId) (i : Issue) (cmd : Bytes) (s : State) : Host.Outcome State Fault Refusal :=
  s.runStall n.val 5 i fun c r =>
      let f := Smp.of cmd
      if f.bad cmd then r.malformed c 0x61 (Hw.smpMalformed c) [f.out] [f.slotO]
      else
        let k := r.smpCase c f
        let draws := match k with
          | .draw _ _ => true
          | _ => false
        if draws && !(r.hw.genOk c.n f.gen c.eng) then r.genUnbound c f.gen [f.out] [f.slotO]
        else r.command c [f.logits, f.entry, f.mask, f.ctx] [f.out] [f.slotL, f.slotM] [f.slotO] (Run.smpBody c f k)

end Sys2Proof.Machine
end

