-- ==== Sys2Proof/Machine/Ternary.lean ====
section
/-! DEFINITION. The ternary dense array, the table path and trit-plane recombination: TDA_MAC, LUT_ACC and TRIT_COMBINE
(04_ternary_arithmetic.md). -/

namespace Sys2Proof.Machine

/-- A malformed command of these engines counted (Table 4.9). -/
def Hw.tdaMalformed (c : Cx) (s : Hw) : Hw := (s.incStl R.STL_FAULT_CMD_MALFORMED c.n).lastErr c 3

/-- An ownership fault of these engines counted. -/
def Hw.tdaOwner (c : Cx) (s : Hw) : Hw := (s.incStl R.STL_FAULT_ACC_OWNER c.n).lastErr c 4

/-! ## TDA_MAC (Table 4.2) -/

/-- The fields of a TDA_MAC command. -/
structure TdaMac where
  op    : Nat
  bank  : Nat
  bsc   : Bool
  osp   : Bool
  sgn   : Bool
  t     : Nat
  wid   : Nat
  rows  : Nat
  bexp  : Nat
  fmt   : Nat
  wReg  : Nat
  aReg  : Nat
  oReg  : Nat
  xReg  : Nat
  wOff  : Nat
  aOff  : Nat
  aStr  : Nat
  xOff  : Nat
  ospOff : Nat
  oOff  : Nat
  oStr  : Nat
  bound : Nat
  slotW : Nat
  slotA : Nat
  slotO : Nat
deriving DecidableEq, Repr

/-- The fields read from the command's 64 bytes. -/
def TdaMac.of (b : Bytes) : TdaMac :=
  let ctl := fld b 1 1
  { op := ctl % 4, bank := bits ctl 2 2, bsc := bit ctl 4, osp := bit ctl 5, sgn := bit ctl 6, t := fld b 2 1 + 1, wid := fld b 3 1,
    rows := fld b 4 2, bexp := fld b 6 1, fmt := fld b 7 1, wReg := fld b 8 1, aReg := fld b 9 1, oReg := fld b 0xA 1,
    xReg := fld b 0xB 1, wOff := fld b 0xC 4, aOff := fld b 0x10 4, aStr := fld b 0x14 4, xOff := fld b 0x18 4,
    ospOff := fld b 0x1C 4, oOff := fld b 0x20 4, oStr := fld b 0x24 4, bound := fld b 0x28 4, slotW := fld b 0x2C 2,
    slotA := fld b 0x2E 2, slotO := fld b 0x30 2 }

/-- The terms L, J and W of Table 4.4. -/
def TdaMac.load (f : TdaMac) : Nat := cdiv (cdiv f.rows 5) 4
def TdaMac.join (f : TdaMac) : Nat := f.t + 6 + (if f.osp then 2 * f.t else 0)
def TdaMac.out (f : TdaMac) : Nat := if f.op = 2 ∨ f.op = 3 then f.t else 0

/-- C_max (R101). -/
def TdaMac.cMax (f : TdaMac) : Nat := 8 + f.load + f.t * f.wid + f.join + f.out

/-- Whether ACC_OP writes the bank out. -/
def writesOut (op : Nat) : Bool := op == 2 || op == 3

/-- The output rows that a malformed command of an accumulator bank names: those of a write-out, and those of one that names an
output slot where it may not (R96). -/
def named (op slotO : Nat) (rows : List Ext) : List Ext := if writesOut op || decide (slotO < 4096) then rows else []

/-- Whether a command is malformed (R96, R87, R128 to R130). -/
def TdaMac.bad (f : TdaMac) (s : Hw) (n : Nat) (b : Bytes) : Bool :=
  b.length != 64 || bit (fld b 1 1) 7 || decide (64 < f.t) || decide (f.wid = 0) || decide (16 < f.wid) || decide (f.rows = 0) ||
  decide (2048 < f.rows) || decide (7 < f.wReg) || decide (7 < f.aReg) || decide (7 < f.oReg) || decide (7 < f.xReg) ||
  f.wOff % 64 != 0 || f.aOff % 64 != 0 || f.aStr % 64 != 0 || decide (f.aStr < valBytes f.rows f.wid) || f.oOff % 64 != 0 ||
  f.oStr % 64 != 0 || !(zeroAt b 0x32 14) || (!(writesOut f.op) && f.slotO != 0xFFFF) || (f.bsc && f.wid != 4 && f.wid != 8) ||
  s.fmtBad n f.fmt f.oOff f.oStr 256 || decide (52000 < f.bound) || decide (f.bound < f.cMax)

/-- The extents a TDA_MAC reads and writes. -/
def TdaMac.wExt (f : TdaMac) : Ext := ⟨f.wReg, f.wOff, 256 * cdiv f.rows 5⟩
def TdaMac.aExts (f : TdaMac) : List Ext := rowExts f.aReg f.aOff f.aStr f.t (valBytes f.rows f.wid)
def TdaMac.xExts (f : TdaMac) : List Ext := if f.bsc then rowExts f.xReg f.xOff 64 f.t (cdiv f.rows 32) else []
def TdaMac.ospExts (f : TdaMac) : List Ext := if f.osp then rowExts f.xReg f.ospOff 256 f.t 256 else []
def TdaMac.rowsOut (f : TdaMac) (s : Hw) (n : Nat) : List Ext := s.outExts n f.fmt f.oReg f.oOff f.oStr f.t 256
def TdaMac.outs (f : TdaMac) (s : Hw) (n : Nat) : List Ext := if writesOut f.op then f.rowsOut s n else []
def TdaMac.outSlots (f : TdaMac) : List Nat := if writesOut f.op then [f.slotO] else []

/-- Block shifts of every block of every token (R87) and how many were clamped: one row of exponent bytes a token. -/
def shiftsOf (base : Nat) (rows : List Bytes) : List (List Nat) × Nat :=
  let r := rows.map fun bs => bs.map fun b => blockShiftOf b.toNat base
  (r.map fun xs => xs.map (·.1), (r.map fun xs => (xs.filter (·.2)).length).sum)

/-- The shift of block `j` of token `t`, 0 where there is none. -/
def shiftAt (sh : List (List Nat)) (t j : Nat) : Nat := (((sh[t]?).getD [])[j]?).getD 0

/-- The planes from `hi` down to `lo`. -/
def planesDown (bitsW k : Nat) : List Nat := (List.range k).map fun i => bitsW - 1 - i

/-- What the operands of an array pass give beside the accumulators: clamped shifts, outlier slots ignored and saturated,
corrupt weight bytes; counted, and with the range alarm of tensor `t` (R87, R93, R133, R136). -/
def Hw.passEvents (s : Hw) (c : Cx) (tensor sat clamps ospBad ospSat : Nat) : Hw :=
  let s := (s.incStl R.STL_SAT_TDA_SAT c.n sat).incStl R.STL_SAT2_BEXP_CLAMP c.n clamps
  let s := (s.incStl R.STL_OSP_BAD c.n ospBad).lnsEvents c.n tensor ⟨ospSat, 0⟩
  if sat + clamps = 0 then s else s.alarm c.n tensor

/-- The prefetched tile used or discarded as command `cmd` starts (R100); answers whether it was used. -/
def Hw.takePrefetch (s : Hw) (c : Cx) (cmd : Bytes) (slotW : Nat) : Hw × Bool :=
  match (s.stl c.n).pre with
  | none => (s, false)
  | some p =>
    if p.frame = c.frame ∧ p.task = c.task ∧ p.cmd = cmd ∧ p.slot = slotW ∧ p.gen = (s.slot c.n slotW).gen then
      (((s.modStl c.n fun t => { t with pre := none }).set R.STL_STATUS_PREFETCH_VALID c.n 0).incStl R.STL_PREFETCH_HIT c.n, true)
    else (s.dropPrefetch c, false)

/-- The tile of the command that would start next prefetched at the first compute cycle of the running one, where it is a TDA_MAC
whose weight slot is FULL (R100). -/
def Hw.startPrefetch (s : Hw) (n : Nat) : Hw :=
  if !(s.prefetchEn n) then s
  else match s.nextCmd (engKey n .tda 0) with
    | none => s
    | some q =>
      let f := TdaMac.of q.cmd
      if fld q.cmd 0 1 = 0x21 ∧ f.slotW < 4096 ∧ (s.slot n f.slotW).full then
        (s.modStl n fun t => { t with pre := some ⟨q.frame, q.task, q.cmd, f.slotW, (s.slot n f.slotW).gen⟩ }).set
          R.STL_STATUS_PREFETCH_VALID n 1
      else s

/-- The accumulation of a TDA_MAC (R89): its operands carry poison `m`. -/
def Run.tdaBody (c : Cx) (f : TdaMac) (pre : Bool) (m : Nat) (r : Run) : Run × Nat :=
  let (ws, bad) := tileRows (r.ext c f.wExt) f.rows
  let (sh, clamps) := shiftsOf f.bexp (f.xExts.map (r.ext c))
  let skip := r.hw.skipEn c
  let bank := r.hw.openBank c f.bank f.op
  let r := r.on fun s => (s.setBank c.n f.bank bank).startPrefetch c.n
  let p := macPass 256 f.wid (f.sgn || f.bsc) skip (r.actRows c f.aExts) ws (shiftAt sh) (planesDown f.wid f.wid)
  let osp := f.ospExts.map fun x => ospRow 256 f.rows (fun h => (ws[h]?).getD []) (r.ext c x)
  let sums := if f.osp then List.zipWith (fun a b => addVec a b.1) p.sums osp else p.sums
  let (rows, sat) := bank.addRows sums
  let m := m ||| (if bad = [] then 0 else 1)
  let base := r.hw.extAddr c.n c.eng c.tk f.wExt
  let runs := p.runs ++ List.replicate (32 - p.runs.length) (if skip then 0 else f.t * f.wid)
  let most := runs.foldl max 0
  let r := r.on fun s =>
    let s := (s.passEvents c (s.tensorOf c.n f.fmt) (p.sat + sat) clamps (osp.map (·.2.1)).sum (osp.map (·.2.2)).sum).quintetBad c base bad
    let s := (s.incStl R.STL_TDA_SLOTS_RUN_RUN c.n runs.sum).incStl R.STL_TDA_SLOTS_SKIP_SKIP c.n (32 * f.t * f.wid - runs.sum)
    let s := s.incStl R.STL_TDA_GATED_GATED c.n (runs.map fun k => most - k).sum
    (s.incStl R.STL_TDA_CMDS_CMDS c.n).incStl R.STL_TDA_CYCLES_CYCLES c.n (8 + (if pre then 0 else f.load) + most + f.join + f.out)
  r.closeBank c f.bank f.op bank rows 256 f.fmt f.oReg f.oOff f.oStr m

/-- A TDA_MAC in its place. -/
def Run.tdaMac (r : Run) (c : Cx) (cmd : Bytes) : Run :=
  let f := TdaMac.of cmd
  let outs := f.outs r.hw c.n
  let (s, pre) := r.hw.takePrefetch c cmd f.slotW
  let started := { r with hw := s }
  if f.bad r.hw c.n cmd then started.malformed c 0x21 (Hw.tdaMalformed c) (named f.op f.slotO (f.rowsOut r.hw c.n)) [f.slotO]
  else match r.hw.bankGate c f.bank f.op with
    | .wait => r
    | .fault => started.ownerFault c f.bank (Hw.tdaOwner c) outs f.outSlots
    | .go =>
      match if writesOut f.op then (r.hw.fmtGen c.n f.fmt).filter (fun g => !(r.hw.genOk c.n g c.eng)) else none with
      | some g => started.genUnbound c g outs f.outSlots
      | none =>
        started.command c (f.wExt :: (f.aExts ++ f.xExts ++ f.ospExts)) outs [f.slotW, f.slotA] f.outSlots (Run.tdaBody c f pre)

/-- TDA_MAC (R89): a stall in no pen or being zero-filled starts no command. -/
def execTdaMac (n : StallId) (i : Issue) (cmd : Bytes) (s : State) : Host.Outcome State Fault Refusal :=
  s.runStall n.val 0 i fun c r => r.tdaMac c cmd

/-! ## LUT_ACC (Table 4.6) -/

/-- The fields of a LUT_ACC command. -/
structure LutAcc where
  op    : Nat
  bank  : Nat
  width : Nat
  sgn   : Bool
  t     : Nat
  wid   : Nat
  k     : Nat
  n     : Nat
  tReg  : Nat
  aReg  : Nat
  oReg  : Nat
  fmt   : Nat
  tOff  : Nat
  aOff  : Nat
  aStr  : Nat
  oOff  : Nat
  oStr  : Nat
  bound : Nat
  slotT : Nat
  slotA : Nat
  slotO : Nat
deriving DecidableEq, Repr

/-- The fields read from the command's 64 bytes. -/
def LutAcc.of (b : Bytes) : LutAcc :=
  let ctl := fld b 1 1
  { op := ctl % 4, bank := 4 + bits ctl 2 1, width := bits ctl 3 2, sgn := bit ctl 5, t := fld b 2 1 + 1, wid := fld b 3 1,
    k := fld b 4 2, n := fld b 6 2, tReg := fld b 8 1, aReg := fld b 9 1, oReg := fld b 0xA 1, fmt := fld b 0xB 1,
    tOff := fld b 0xC 4, aOff := fld b 0x10 4, aStr := fld b 0x14 4, oOff := fld b 0x18 4, oStr := fld b 0x1C 4,
    bound := fld b 0x20 4, slotT := fld b 0x24 2, slotA := fld b 0x26 2, slotO := fld b 0x28 2 }

/-- Columns and groups of a pass (Table 4.5). -/
def LutAcc.cols (f : LutAcc) : Nat := 64 * 2 ^ f.width
def LutAcc.groups (f : LutAcc) : Nat := 64 / 2 ^ f.width
def LutAcc.passes (f : LutAcc) : Nat := cdiv f.k (4 * f.groups)

/-- C_max (R106). -/
def LutAcc.cMax (f : LutAcc) : Nat := 10 + 64 + f.passes * max (f.t * f.wid) 64 + cdiv (f.t * f.n) 256

/-- Whether a command is malformed (R106). -/
def LutAcc.bad (f : LutAcc) (s : Hw) (n : Nat) (b : Bytes) : Bool :=
  b.length != 64 || decide (63 < fld b 1 1) || decide (2 < f.width) || decide (64 < f.t) || decide (f.wid = 0) || decide (16 < f.wid) ||
  decide (f.k < 4) || decide (16384 < f.k) || f.k % 4 != 0 || decide (f.n = 0) || decide (f.cols < f.n) ||
  decide (7 < f.tReg) || decide (7 < f.aReg) || decide (7 < f.oReg) || f.tOff % 64 != 0 || f.aOff % 64 != 0 || f.aStr % 64 != 0 ||
  decide (f.aStr < valBytes f.k f.wid) || f.oOff % 64 != 0 || f.oStr % 64 != 0 || !(zeroAt b 0x2A 22) ||
  (!(writesOut f.op) && f.slotO != 0xFFFF) || s.fmtBad n f.fmt f.oOff f.oStr f.n || decide (52000 < f.bound) || decide (f.bound < f.cMax)

def LutAcc.tExt (f : LutAcc) : Ext := ⟨f.tReg, f.tOff, 8 * f.passes * f.groups * f.n⟩
def LutAcc.aExts (f : LutAcc) : List Ext := rowExts f.aReg f.aOff f.aStr f.t (valBytes f.k f.wid)
def LutAcc.rowsOut (f : LutAcc) (s : Hw) (n : Nat) : List Ext := s.outExts n f.fmt f.oReg f.oOff f.oStr f.t f.n
def LutAcc.outs (f : LutAcc) (s : Hw) (n : Nat) : List Ext := if writesOut f.op then f.rowsOut s n else []
def LutAcc.outSlots (f : LutAcc) : List Nat := if writesOut f.op then [f.slotO] else []

/-- Entry `i` of a table word (R102). -/
def lutEntry (w i : Nat) : Int := signed 4 (bits w (4 * i) 4)

/-- Whether a table word is valid (R103). -/
def lutValid (w : Nat) : Bool :=
  let e := fun i => lutEntry w i
  let one := fun i => e i == -1 || e i == 0 || e i == 1
  e 0 == 0 && one 1 && one 2 && one 4 && one 8 &&
  (List.range 16).all fun i => e i == ((List.range 4).map fun j => if bit i j then e (2 ^ j) else 0).sum

/-- The four plane bits of inputs from `k` on; inputs at or beyond `kMax` are 0 (R104). -/
def planeNibble (bitsW p a kMax k : Nat) : Nat :=
  (List.range 4).foldl (fun m j => if k + j < kMax ∧ bit a (bitsW * (k + j) + p) then m + 2 ^ j else m) 0

/-- One token of a LUT_ACC: passes, then planes from the highest, over the token's columns; answers the row and its
saturations (R105). `words` holds one row of words for each pass and group. -/
def lutToken (f : LutAcc) (words : List (List Nat)) (a : Nat) (row : List Int) : List Int × Nat :=
  ((List.range f.passes).flatMap fun x => (planesDown f.wid f.wid).map fun p => (x, p)).foldl
    (fun (acc : List Int × Nat) xp =>
      let d := (List.range f.groups).foldl (fun v q =>
        let i := planeNibble f.wid xp.2 a f.k (4 * (xp.1 * f.groups + q))
        addVec v (((words[xp.1 * f.groups + q]?).getD []).map fun w => lutEntry w i)) (List.replicate f.n 0)
      let d := d.map (· * (2 : Int) ^ xp.2)
      let d := if f.sgn && xp.2 + 1 == f.wid then d.map (- ·) else d
      let (v, n) := satVec acc.1 d
      (v, acc.2 + n)) (row, 0)

/-- The accumulation of a LUT_ACC (R105). -/
def Run.lutBody (c : Cx) (f : LutAcc) (m : Nat) (r : Run) : Run × Nat :=
  let raw := (chunks 8 (f.passes * f.groups * f.n) (r.ext c f.tExt)).map leNat
  let bad := (List.range raw.length).filter fun i => !(lutValid ((raw[i]?).getD 0))
  let words := chunks f.n (f.passes * f.groups) (raw.map fun w => if lutValid w then w else 0)
  let bank := r.hw.openBank c f.bank f.op
  let toks := ((r.actRows c f.aExts).zip (List.range f.t)).map fun a =>
    let old := bank.row a.2
    let (v, n) := lutToken f words a.1 (old.take f.n)
    (v ++ old.drop f.n, n)
  let sat := (toks.map (·.2)).sum
  let base := r.hw.extAddr c.n c.eng c.tk f.tExt
  let r := r.on fun s =>
    let s := s.each bad fun i s => ((s.incStl R.STL_BAD_LUT_BAD c.n).logCx c E.LUT_BAD (base + 8 * i) 0xFFFF 0).lastErr c 2
    let s := s.incStl R.STL_SAT_LUT_SAT c.n sat
    let s := if sat = 0 then s else s.alarm c.n (s.tensorOf c.n f.fmt)
    (s.incStl R.STL_LUT_CMDS_CMDS c.n).incStl R.STL_LUT_CYCLES_CYCLES c.n f.cMax
  r.closeBank c f.bank f.op bank (toks.map (·.1)) f.n f.fmt f.oReg f.oOff f.oStr (m ||| (if bad = [] then 0 else 1))

/-- A LUT_ACC in its place. -/
def Run.lutAcc (r : Run) (c : Cx) (cmd : Bytes) : Run :=
  let f := LutAcc.of cmd
  let outs := f.outs r.hw c.n
  if f.bad r.hw c.n cmd then r.malformed c 0x22 (Hw.tdaMalformed c) (named f.op f.slotO (f.rowsOut r.hw c.n)) [f.slotO]
  else match r.hw.bankGate c f.bank f.op with
    | .wait => r
    | .fault => r.ownerFault c f.bank (Hw.tdaOwner c) outs f.outSlots
    | .go =>
      match if writesOut f.op then (r.hw.fmtGen c.n f.fmt).filter (fun g => !(r.hw.genOk c.n g c.eng)) else none with
      | some g => r.genUnbound c g outs f.outSlots
      | none => r.command c (f.tExt :: f.aExts) outs [f.slotT, f.slotA] f.outSlots (Run.lutBody c f)

/-- LUT_ACC (R105). -/
def execLutAcc (n : StallId) (i : Issue) (cmd : Bytes) (s : State) : Host.Outcome State Fault Refusal :=
  s.runStall n.val 1 i fun c r => r.lutAcc c cmd

/-! ## TRIT_COMBINE (R109) -/

/-- The worst-case length. -/
def combineMax (f : TritCombine) : Nat := 8 + f.planes * cdiv ((f.tM1 + 1) * f.n) 256

/-- Whether a command is malformed (R109). It has no field table: the output rows are aligned as every command's, and IN_OFF,
IN_STRIDE and PLANE_STRIDE may be any (DESIGN CHOICE, log 64). -/
def combineBad (f : TritCombine) (s : Hw) (n : Nat) : Bool :=
  decide (f.planes = 0) || decide (6 < f.planes) || decide (63 < f.tM1) || decide (f.n = 0) || decide (4096 < f.n) ||
  decide (7 < f.inRegion) || decide (7 < f.oRegion) || f.oOff % 64 != 0 || f.oStride % 64 != 0 ||
  s.fmtBad n f.outFmt f.oOff f.oStride f.n || decide (52000 < f.boundCyc) || decide (f.boundCyc < combineMax f)

/-- Recombination in Horner form, highest plane first; the rest of the planes follow downwards. -/
def combineRow : List Int → List (List Int) → List Int × Nat
  | acc, [] => (acc, 0)
  | acc, y :: ys =>
    let (v, n) := satVec (acc.map (3 * ·)) y
    let (w, k) := combineRow v ys
    (w, n + k)

/-- The 32-bit integers of a row of bytes. -/
def int32s (k : Nat) (bs : Bytes) : List Int := (chunks 4 k bs).map fun b => signed 32 (leNat b)

/-- The recombination of TRIT_COMBINE. -/
def Run.combineBody (c : Cx) (f : TritCombine) (m : Nat) (r : Run) : Run × Nat :=
  let rows := (List.range (f.tM1 + 1)).map fun t =>
    let y := fun j => int32s f.n (r.ext c ⟨f.inRegion, f.inOff + j * f.planeStride + t * f.inStride, 4 * f.n⟩)
    combineRow (y (f.planes - 1)) (((List.range (f.planes - 1)).reverse).map y)
  let sat := (rows.map (·.2)).sum
  let r := r.on fun s =>
    let s := s.incStl R.STL_SAT2_COMBINE_SAT c.n sat
    if sat = 0 then s else s.alarm c.n (s.tensorOf c.n f.outFmt)
  r.putRows c f.outFmt f.oRegion f.oOff f.oStride (rows.map fun x => x.1.map Val.int) m

/-- TRIT_COMBINE (R109). -/
def execTritCombine (n : StallId) (i : Issue) (f : TritCombine) (s : State) : Host.Outcome State Fault Refusal :=
  s.runStall n.val 4 i fun c r =>
      let outs := r.hw.outExts c.n f.outFmt f.oRegion f.oOff f.oStride (f.tM1 + 1) f.n
      let ins := (List.range f.planes).flatMap fun j => rowExts f.inRegion (f.inOff + j * f.planeStride) f.inStride (f.tM1 + 1) (4 * f.n)
      if combineBad f r.hw c.n then r.malformed c 0x41 (Hw.tdaMalformed c) outs [f.slotOut]
      else match (r.hw.fmtGen c.n f.outFmt).filter (fun g => !(r.hw.genOk c.n g c.eng)) with
        | some g => r.genUnbound c g outs [f.slotOut]
        | none => r.command c ins outs [f.slotIn] [f.slotOut] (Run.combineBody c f)

end Sys2Proof.Machine
end

