-- ==== Sys2Proof/Machine/Sparse.lean ====
section
/-! DEFINITION. Sparsity and conditional computation (06_sparsity.md): TSE_MAC, ROUTE_TOPK, ANP_SELECT and ANP_CHECK. -/

namespace Sys2Proof.Machine

/-- A malformed command, and an ownership fault, of this chapter counted (Table 6.10). -/
def Hw.spxMalformed (c : Cx) (s : Hw) : Hw := s.incStl R.STL_SPX_FAULT_MALFORMED c.n
def Hw.spxOwner (c : Cx) (s : Hw) : Hw := s.incStl R.STL_SPX_FAULT_ACC_OWNER c.n

/-- Dropped blocks or indices: each counted, the first of a command logged (R153). -/
def Hw.sparseOor (s : Hw) (c : Cx) (k row block : Nat) : Hw :=
  if k = 0 then s else (s.incStl R.STL_SPARSE_OOR c.n k).logCx c E.SPARSE_OOR 0 0xFFFF (row + 2 ^ 16 * block)

/-! ## TSE_MAC (Table 6.2) -/

/-- The fields of a TSE_MAC command. -/
structure TseMac where
  op    : Nat
  bank  : Nat
  bsc   : Bool
  osp   : Bool
  sgn   : Bool
  t     : Nat
  wid   : Nat
  nnz   : Nat
  bexp  : Nat
  fmt   : Nat
  sReg  : Nat
  aReg  : Nat
  oReg  : Nat
  xReg  : Nat
  sOff  : Nat
  aOff  : Nat
  aStr  : Nat
  xOff  : Nat
  ospOff : Nat
  oOff  : Nat
  oStr  : Nat
  bound : Nat
  slotS : Nat
  slotA : Nat
  slotO : Nat
  k     : Nat
  n     : Nat
  xSeg  : Nat
deriving DecidableEq, Repr

/-- The fields read from the command's 64 bytes. -/
def TseMac.of (b : Bytes) : TseMac :=
  let ctl := fld b 1 1
  { op := ctl % 4, bank := 6 + bits ctl 2 1, bsc := bit ctl 3, osp := bit ctl 4, sgn := bit ctl 5, t := fld b 2 1 + 1, wid := fld b 3 1,
    nnz := fld b 4 2, bexp := fld b 6 1, fmt := fld b 7 1, sReg := fld b 8 1, aReg := fld b 9 1, oReg := fld b 0xA 1,
    xReg := fld b 0xB 1, sOff := fld b 0xC 4, aOff := fld b 0x10 4, aStr := fld b 0x14 4, xOff := fld b 0x18 4,
    ospOff := fld b 0x1C 4, oOff := fld b 0x20 4, oStr := fld b 0x24 4, bound := fld b 0x28 4, slotS := fld b 0x2C 2,
    slotA := fld b 0x2E 2, slotO := fld b 0x30 2, k := fld b 0x32 2, n := fld b 0x34 2, xSeg := fld b 0x36 4 }

/-- C_max (R149). -/
def TseMac.cMax (f : TseMac) : Nat :=
  10 + cdiv (10 * f.n + 2) 1024 + cdiv f.nnz 64 * cdiv (f.t * f.wid) 16 + (f.t + 6 + (if f.osp then 4 * f.t else 0)) +
    (if writesOut f.op then f.t else 0)

/-- Whether a command is malformed (R149). -/
def TseMac.bad (f : TseMac) (s : Hw) (n : Nat) (b : Bytes) : Bool :=
  b.length != 64 || decide (63 < fld b 1 1) || decide (64 < f.t) || decide (f.wid = 0) || decide (16 < f.wid) || decide (f.k = 0) ||
  decide (4096 < f.k) || decide (f.n = 0) || decide (256 < f.n) || decide (f.n * cdiv f.k 64 < f.nnz) || decide (7 < f.sReg) ||
  decide (7 < f.aReg) || decide (7 < f.oReg) || decide (7 < f.xReg) || f.sOff % 64 != 0 || f.aOff % 64 != 0 || f.aStr % 64 != 0 ||
  decide (f.aStr < valBytes f.k f.wid) || f.oOff % 64 != 0 || f.oStr % 64 != 0 || !(zeroAt b 0x3A 6) ||
  (!(writesOut f.op) && f.slotO != 0xFFFF) || (f.bsc && f.wid != 4 && f.wid != 8) ||
  (decide (2048 < f.k) && (f.bsc || f.osp) && (f.xSeg == 0 || f.xSeg % 64 != 0)) ||
  s.fmtBad n f.fmt f.oOff f.oStr f.n || decide (52000 < f.bound) || decide (f.bound < f.cMax)

/-- The widths of the input segments (R148). -/
def TseMac.segs (f : TseMac) : List Nat := if f.k ≤ 2048 then [f.k] else [2048, f.k - 2048]

def TseMac.hdr (f : TseMac) : Ext := ⟨f.sReg, f.sOff, 64⟩
def TseMac.aExts (f : TseMac) : List Ext := rowExts f.aReg f.aOff f.aStr f.t (valBytes f.k f.wid)
def TseMac.xExt (f : TseMac) (t g w : Nat) : Ext := ⟨f.xReg, f.xOff + g * f.xSeg + 64 * t, cdiv w 32⟩
def TseMac.ospExt (f : TseMac) (t g : Nat) : Ext := ⟨f.xReg, f.ospOff + g * f.xSeg + 256 * t, 256⟩
def TseMac.sideExts (f : TseMac) : List Ext :=
  (List.range f.t).flatMap fun t => (f.segs.zip (List.range 2)).flatMap fun w =>
    (if f.bsc then [f.xExt t w.2 w.1] else []) ++ (if f.osp then [f.ospExt t w.2] else [])
def TseMac.rowsOut (f : TseMac) (s : Hw) (n : Nat) : List Ext := s.outExts n f.fmt f.oReg f.oOff f.oStr f.t f.n
def TseMac.outs (f : TseMac) (s : Hw) (n : Nat) : List Ext := if writesOut f.op then f.rowsOut s n else []
def TseMac.outSlots (f : TseMac) : List Nat := if writesOut f.op then [f.slotO] else []

/-- The parts of a sparse tile, where its header is good: offsets and stored-block count (R151). `lim` is the region's
LIMIT. -/
def TseMac.tile (f : TseMac) (lim : Nat) (h : Bytes) : Option (Nat × Nat × Nat × Nat) :=
  let bmp := fld h 0xC 4
  let idx := fld h 0x10 4
  let blk := fld h 0x14 4
  let nnz := fld h 8 4
  if fld h 0 4 = 0x5442424B ∧ fld h 4 2 = f.k ∧ fld h 6 2 = f.n ∧ f.sOff + bmp + 8 * f.n ≤ lim ∧ f.sOff + idx + 2 * (f.n + 1) ≤ lim ∧
      f.sOff + blk + 16 * nnz ≤ lim then
    some (bmp, idx, blk, nnz)
  else none

/-- What the walk of a tile row gives (R152): the stored blocks matched with their bits, and the block index of each one
dropped; a surplus stored block goes by the index in its tag. `tag` reads a stored block's tag. -/
def walkRow (k r bitmap start stop : Nat) (tag : Nat → Nat) : List (Nat × Nat) × List Nat :=
  let bs := setBitsOf 64 bitmap
  let m := (bs.zip (List.range bs.length)).map fun x =>
    let i := start + x.2
    if stop ≤ i then (none, some x.1)
    else if cdiv k 64 ≤ x.1 then (none, some x.1)
    else if tag i ≠ x.1 + 64 * (r % 4) then (none, some x.1)
    else (some (x.1, i), none)
  (m.filterMap (·.1), m.filterMap (·.2) ++ (List.range ((stop - start) - bs.length)).map fun j => tag (start + bs.length + j) % 64)

/-- The 64 trits of a stored block, and the offsets of its corrupt bytes (R145). -/
def blockTrits (b : Bytes) : List Int × List Nat :=
  let qs := (b.take 13).map fun x => quintet x.toNat
  ((qs.flatMap fun q => q.getD [0, 0, 0, 0, 0]).take 64, (List.range 13).filter fun i => ((qs[i]?).getD (some [])).isNone)

/-- The column of weights of a tile row from its stored blocks. -/
def colWeights (k : Nat) (bl : List (Nat × List Int)) : List Int :=
  ((List.range (cdiv k 64)).flatMap fun b => match bl.find? (·.1 == b) with
    | some x => x.2
    | none => List.replicate 64 0).take k

/-- The accumulation of a TSE_MAC (R146 to R148, R152). -/
def Run.tseBody (c : Cx) (f : TseMac) (m : Nat) (r : Run) : Run × Nat :=
  let ad := fun off len => r.ext c ⟨f.sReg, f.sOff + off, len⟩
  let lim := (r.hw.region c.n c.eng c.tk f.sReg).2
  let tile := f.tile lim (r.ext c f.hdr)
  let base := r.hw.extAddr c.n c.eng c.tk f.hdr
  let (rows, blkOff, m) := match tile with
    | none => (([] : List (Nat × List (Nat × Nat) × List Nat)), 0, m ||| 1)
    | some (bmp, idx, blk, nnz) =>
      let ix := fun i => leNat (ad (idx + 2 * i) 2)
      ((List.range f.n).map fun i =>
        let w := walkRow f.k i (leNat (ad (bmp + 8 * i) 8)) (ix i) (min (ix (i + 1)) (min nnz f.nnz))
          (fun j => leNat (ad (blk + 16 * j + 13) 1))
        (i, w.1, w.2), blk, m)
  let dec := rows.map fun x => x.2.1.map fun bi => (bi.1, bi.2, blockTrits (ad (blkOff + 16 * bi.2) 16))
  let bad := dec.flatMap fun bl => bl.flatMap fun b => b.2.2.2.map (blkOff + 16 * b.2.1 + ·)
  let cols := (List.range f.n).map fun i => colWeights f.k (((dec[i]?).getD []).map fun b => (b.1, b.2.2.1))
  let ws := transpose f.k cols
  let sh := (List.range f.t).map fun t =>
    if f.bsc then (f.segs.zip (List.range 2)).flatMap fun w => r.ext c (f.xExt t w.2 w.1) else []
  let (sh, clamps) := shiftsOf f.bexp sh
  let acts := r.actRows c f.aExts
  let skip := r.hw.skipEn c
  let p := macPass f.n f.wid (f.sgn || f.bsc) skip acts ws (shiftAt sh) (planesDown f.wid f.wid)
  let osp := (List.range f.t).map fun t => if f.osp then (f.segs.zip (List.range 2)).map (fun w =>
      ospRow f.n w.1 (fun h => (ws[2048 * w.2 + h]?).getD []) (r.ext c (f.ospExt t w.2))) else []
  let sums := List.zipWith (fun a os => os.foldl (fun a o => addVec a o.1) a) p.sums osp
  let bank := r.hw.openBank c f.bank f.op
  let (out, sat) := bank.addRows sums
  let used := dec.flatMap fun bl => bl.map (·.1)
  let skips := if skip then (used.map fun b => (acts.map fun a =>
      ((List.range f.wid).filter fun pl => planeZero f.wid pl a (64 * b) (min 64 (f.k - 64 * b))).length).sum).sum else 0
  let drops := rows.flatMap fun x => x.2.2.map fun b => (x.1, b)
  let r := r.on fun s =>
    let s := if tile.isNone then (s.incStl R.STL_SPARSE_HDR c.n).logCx c E.SPARSE_HDR base 0xFFFF 0 else s
    let s := s.sparseOor c drops.length ((drops.head?.map (·.1)).getD 0) ((drops.head?.map (·.2)).getD 0)
    let s := s.passEvents c (s.tensorOf c.n f.fmt) (p.sat + sat) clamps
      (osp.map fun os => (os.map (·.2.1)).sum).sum (osp.map fun os => (os.map (·.2.2)).sum).sum
    let s := s.quintetBad c base bad
    let s := (s.incStl R.STL_TSE_PAIRS_SKIP_SKIP c.n skips).incStl R.STL_TSE_PAIRS_RUN_RUN c.n (used.length * f.t * f.wid - skips)
    (s.incStl R.STL_TSE_CMDS_CMDS c.n).incStl R.STL_TSE_BLOCKS_BLOCKS c.n used.length
  r.closeBank c f.bank f.op bank out f.n f.fmt f.oReg f.oOff f.oStr (m ||| (if bad = [] then 0 else 1))

/-- The parts of a tile that its header places: bitmap, index and stored blocks, as operands (R177, R178). None where the header
is bad (R151) or lies out of bound itself. -/
def Run.tileExts (r : Run) (c : Cx) (f : TseMac) : List Ext :=
  if !(r.hw.extFault c [f.hdr]).none? then []
  else match f.tile (r.hw.region c.n c.eng c.tk f.sReg).2 (r.ext c f.hdr) with
    | none => []
    | some (bmp, idx, blk, nnz) => [⟨f.sReg, f.sOff + bmp, 8 * f.n⟩, ⟨f.sReg, f.sOff + idx, 2 * (f.n + 1)⟩, ⟨f.sReg, f.sOff + blk, 16 * nnz⟩]

/-- TSE_MAC (R146). -/
def execTseMac (n : StallId) (i : Issue) (cmd : Bytes) (s : State) : Host.Outcome State Fault Refusal :=
  s.runStall n.val 2 i fun c r =>
      let f := TseMac.of cmd
      let outs := f.outs r.hw c.n
      if f.bad r.hw c.n cmd then r.malformed c 0x23 (Hw.spxMalformed c) (named f.op f.slotO (f.rowsOut r.hw c.n)) [f.slotO]
      else match r.hw.bankGate c f.bank f.op with
        | .wait => r
        | .fault => r.ownerFault c f.bank (Hw.spxOwner c) outs f.outSlots
        | .go =>
          match if writesOut f.op then (r.hw.fmtGen c.n f.fmt).filter (fun g => !(r.hw.genOk c.n g c.eng)) else none with
          | some g => r.genUnbound c g outs f.outSlots
          | none =>
            r.command c (f.hdr :: (r.tileExts c f ++ f.aExts ++ f.sideExts)) outs [f.slotS, f.slotA] f.outSlots (Run.tseBody c f)

/-! ## ROUTE_TOPK (Table 6.4) -/

/-- The fields of a ROUTE_TOPK command. -/
structure RouteTopk where
  kSel  : Nat
  t     : Nat
  norm  : Bool
  e     : Nat
  cap   : Nat
  sReg  : Nat
  lReg  : Nat
  sOff  : Nat
  sStr  : Nat
  lOff  : Nat
  scale : Nat
  bound : Nat
  slotS : Nat
  slotL : Nat
deriving DecidableEq, Repr

/-- The fields read from the command's 64 bytes. -/
def RouteTopk.of (b : Bytes) : RouteTopk :=
  { kSel := fld b 1 1, t := fld b 2 1 + 1, norm := bit (fld b 3 1) 0, e := fld b 4 2, cap := fld b 6 2, sReg := fld b 8 1,
    lReg := fld b 9 1, sOff := fld b 0xC 4, sStr := fld b 0x10 4, lOff := fld b 0x14 4, scale := fld b 0x18 2,
    bound := fld b 0x1C 4, slotS := fld b 0x20 2, slotL := fld b 0x22 2 }

/-- Whether a command is malformed (R156). -/
def RouteTopk.bad (f : RouteTopk) (b : Bytes) : Bool :=
  b.length != 64 || decide (f.kSel = 0) || decide (8 < f.kSel) || decide (64 < f.t) || decide (1 < fld b 3 1) || decide (f.e < f.kSel) ||
  decide (256 < f.e) || decide (f.cap = 0) || decide (64 < f.cap) || decide (7 < f.sReg) || decide (7 < f.lReg) || !(zeroAt b 0xA 2) ||
  f.sOff % 64 != 0 || f.sStr % 64 != 0 || decide (f.sStr < 4 * f.e) || f.lOff % 64 != 0 || !(zeroAt b 0x1A 2) || !(zeroAt b 0x24 28) ||
  decide (52000 < f.bound) || decide (f.bound < 16 + f.t * (cdiv f.e 16 + 2 * f.kSel) + cdiv f.e 8)

/-- An integer as a logarithm in the LNS24 grid; which neighbour is taken is not stated (log 20). -/
def lnsOfInt (x : Int) : Lns :=
  if x = 0 then Lns.zero
  else
    let l := log2fix x.natAbs
    ⟨decide (x < 0), (l : Int) + (if 2 ^ Nat.log2 x.natAbs = x.natAbs then 0 else (Config.pick 7 x 0 % 2 : Nat))⟩

/-- The first `k` experts by score, highest first, ties to the lower index (R154). -/
def topExperts : Nat → List (Nat × Int) → List (Nat × Int)
  | 0, _ => []
  | k + 1, xs =>
    match xs.foldl (fun (b : Option (Nat × Int)) x => match b with
        | none => some x
        | some y => if y.2 < x.2 then some x else some y) none with
    | none => []
    | some b => b :: topExperts k (xs.filter (·.1 != b.1))

/-- The gates of a token's choices (R155). -/
def RouteTopk.gates (f : RouteTopk) (scores : List Int) : List Nat × LnsEv :=
  let scale := Lns.of16 f.scale
  let (gs, e) := if f.norm then softmaxRow scale scores.length (scores.map lnsOfInt)
    else lnsJoin (scores.map fun x => scale.mul (lnsOfInt x)) {}
  let ns := gs.map (Lns.narrow none)
  (ns.map (·.1), ns.foldl (fun e p => e.add p.2) e)

/-- A token's choices placed on the lists of their experts: the choice records, the lists and the drops (R154). -/
def placeChoices (cap t : Nat) (lists : Tbl (List Nat)) : List (Nat × Nat) → Bytes × Tbl (List Nat) × Nat
  | [] => ([], lists, 0)
  | (e, gate) :: cs =>
    let l := Tbl.get [] e lists
    let full := decide (cap ≤ l.length)
    let lists := if full then lists else Tbl.insert e (l ++ [t]) lists
    let (bs, lists, d) := placeChoices cap t lists cs
    (leBytes 1 e ++ leBytes 1 (if full then 0xFF else l.length) ++ leBytes 2 gate ++ bs, lists, d + (if full then 1 else 0))

/-- A choice record that holds no choice (R156): EXPERT = 0xFF, the rest 0 (log 22). -/
def noChoice : Bytes := [0xFF#8, 0#8, 0#8, 0#8]

/-- The work of ROUTE_TOPK (R154 to R156). -/
def Run.routeBody (c : Cx) (f : RouteTopk) (m : Nat) (r : Run) : Run × Nat :=
  let (toks, lists, drops, ev) := (List.range f.t).foldl (fun (a : Bytes × Tbl (List Nat) × Nat × LnsEv) t =>
    let sc := int32s f.e (r.ext c ⟨f.sReg, f.sOff + t * f.sStr, 4 * f.e⟩)
    let ch := topExperts f.kSel ((List.range sc.length).zip sc)
    let (gs, e) := f.gates (ch.map (·.2))
    let (bs, lists, d) := placeChoices f.cap t a.2.1 ((ch.map (·.1)).zip gs)
    (a.1 ++ bs ++ (List.replicate (8 - ch.length) noChoice).flatten, lists, a.2.2.1 + d, a.2.2.2.add e)) ([], [], 0, {})
  let tokT := toks ++ (List.replicate ((64 - f.t) * 8) noChoice).flatten
  let expT := (List.range 256).flatMap fun e =>
    let l := Tbl.get [] e lists
    padTo 128 (leBytes 2 l.length ++ zeros 2 ++ l.flatMap (leBytes 1))
  let r := r.putExt c f.lReg f.lOff (tokT ++ expT) m
  (r.on fun s => (s.incStl R.STL_ROUTE_ROUTE_DROP c.n drops).lnsEvents c.n 63 ev, m)

/-- ROUTE_TOPK (R154). -/
def execRouteTopk (n : StallId) (i : Issue) (cmd : Bytes) (s : State) : Host.Outcome State Fault Refusal :=
  s.runStall n.val 4 i fun c r =>
      let f := RouteTopk.of cmd
      let outs : List Ext := [⟨f.lReg, f.lOff, 34816⟩]
      if f.bad cmd then r.malformed c 0x46 (Hw.spxMalformed c) outs [f.slotL]
      else r.command c (rowExts f.sReg f.sOff f.sStr f.t (4 * f.e)) outs [f.slotS] [f.slotL] (Run.routeBody c f)

/-! ## ANP_SELECT (Table 6.5) -/

/-- The neuron list of a group (Table 6.6). -/
def neuronList (mask active pred caught lost demoted : Nat) (list : List Nat) : Bytes :=
  leBytes 512 mask ++ leBytes 2 active ++ leBytes 2 pred ++ leBytes 2 caught ++ leBytes 2 lost ++ leBytes 2 demoted ++ zeros 54 ++
    padTo 8192 (list.flatMap (leBytes 2))

/-- ANP_SELECT (R158). -/
def execAnpSelect (n : StallId) (i : Issue) (cmd : Bytes) (s : State) : Host.Outcome State Fault Refusal :=
  s.runStall n.val 4 i fun c r =>
      let t := fld cmd 2 1 + 1
      let ng := fld cmd 4 2
      let maxA := fld cmd 6 2
      let sReg := fld cmd 8 1
      let lReg := fld cmd 9 1
      let sOff := fld cmd 0xC 4
      let sStr := fld cmd 0x10 4
      let lOff := fld cmd 0x14 4
      let thr := signed 32 (fld cmd 0x18 4)
      let bound := fld cmd 0x1C 4
      let outs : List Ext := [⟨lReg, lOff, 8768⟩]
      if cmd.length != 64 || !(zeroAt cmd 1 1) || decide (64 < t) || !(zeroAt cmd 3 1) || decide (ng = 0) || decide (4096 < ng) ||
          decide (ng < maxA) || decide (7 < sReg) || decide (7 < lReg) || !(zeroAt cmd 0xA 2) || sOff % 64 != 0 || sStr % 64 != 0 ||
          decide (sStr < 4 * ng) || lOff % 64 != 0 || !(zeroAt cmd 0x24 28) || decide (52000 < bound) ||
          decide (bound < 16 + cdiv (t * ng) 256 + cdiv ng 128) then
        r.malformed c 0x47 (Hw.spxMalformed c) outs [fld cmd 0x22 2]
      else r.command c (rowExts sReg sOff sStr t (4 * ng)) outs [fld cmd 0x20 2] [fld cmd 0x22 2] fun m r =>
        let rows := (List.range t).map fun t => int32s ng (r.ext c ⟨sReg, sOff + t * sStr, 4 * ng⟩)
        let act := (List.range ng).filter fun j => rows.any fun x => decide (thr ≤ (x[j]?).getD 0)
        let list := act.take maxA
        let dem := act.length - list.length
        let r := r.putExt c lReg lOff (neuronList (list.foldl (fun m j => m ||| 2 ^ j) 0) list.length list.length 0 0 dem list) m
        (r.on fun s => s.incStl R.STL_ANP_MISC_DEMOTED c.n dem, m)

/-! ## ANP_CHECK (Table 6.7) -/

/-- The fields of an ANP_CHECK command. -/
structure AnpCheck where
  bank  : Nat
  sgn   : Bool
  bsc   : Bool
  osp   : Bool
  t     : Nat
  wid   : Nat
  k     : Nat
  ng    : Nat
  wReg  : Nat
  aReg  : Nat
  xReg  : Nat
  lReg  : Nat
  oReg  : Nat
  bexp  : Nat
  pred  : Nat
  wOff  : Nat
  aOff  : Nat
  aStr  : Nat
  xOff  : Nat
  ospOff : Nat
  xSeg  : Nat
  lOff  : Nat
  oOff  : Nat
  oStr  : Nat
  thr   : Int
  guard : Nat
  bound : Nat
  slotW : Nat
  slotA : Nat
  slotL : Nat
  slotO : Nat
deriving DecidableEq, Repr

/-- The fields read from the command's 128 bytes. -/
def AnpCheck.of (b : Bytes) : AnpCheck :=
  let ctl := fld b 1 1
  { bank := ctl % 4, sgn := bit ctl 2, bsc := bit ctl 3, osp := bit ctl 4, t := fld b 2 1 + 1, wid := fld b 3 1, k := fld b 4 2,
    ng := fld b 6 2, wReg := fld b 8 1, aReg := fld b 9 1, xReg := fld b 0xA 1, lReg := fld b 0xB 1, oReg := fld b 0xC 1,
    bexp := fld b 0xD 1, pred := fld b 0xE 1, wOff := fld b 0x10 4, aOff := fld b 0x14 4, aStr := fld b 0x18 4, xOff := fld b 0x1C 4,
    ospOff := fld b 0x20 4, xSeg := fld b 0x24 4, lOff := fld b 0x28 4, oOff := fld b 0x2C 4, oStr := fld b 0x30 4,
    thr := signed 32 (fld b 0x34 4), guard := fld b 0x38 4, bound := fld b 0x3C 4, slotW := fld b 0x40 2, slotA := fld b 0x42 2,
    slotL := fld b 0x44 2, slotO := fld b 0x46 2 }

/-- Column tiles, row tiles and estimate planes (R159, R160). -/
def AnpCheck.ct (f : AnpCheck) : Nat := cdiv f.ng 256
def AnpCheck.rt (f : AnpCheck) : Nat := cdiv f.k 2048
def AnpCheck.pl (f : AnpCheck) : Nat := min 2 f.wid
def AnpCheck.rows (f : AnpCheck) (i : Nat) : Nat := min 2048 (f.k - 2048 * i)

/-- C_max (R162). -/
def AnpCheck.cMax (f : AnpCheck) : Nat :=
  let j := f.t + 6 + (if f.osp then 2 * f.t else 0)
  12 + f.ct * (f.rt * (103 + f.pl * f.t) + j + 2) + f.rt * (f.ct * 103 + f.t * f.wid) + j + cdiv f.t 4

/-- Whether a command is malformed (R162). -/
def AnpCheck.bad (f : AnpCheck) (b : Bytes) : Bool :=
  b.length != 128 || decide (31 < fld b 1 1) || decide (64 < f.t) || decide (f.wid = 0) || decide (16 < f.wid) || decide (f.k = 0) ||
  decide (8192 < f.k) || decide (f.ng = 0) || decide (4096 < f.ng) || decide (7 < f.wReg) || decide (7 < f.aReg) || decide (7 < f.xReg) ||
  decide (7 < f.lReg) || decide (7 < f.oReg) || decide (63 < f.pred) || !(zeroAt b 0xF 1) || f.wOff % 64 != 0 || f.aOff % 64 != 0 ||
  f.aStr % 64 != 0 || decide (f.aStr < valBytes f.k f.wid) || f.xSeg % 64 != 0 || f.lOff % 64 != 0 || f.oStr % 64 != 0 ||
  decide (2 ^ 31 ≤ f.guard) || !(zeroAt b 0x48 56) || (f.bsc && f.wid != 4 && f.wid != 8) || decide (52000 < f.bound) ||
  decide (f.bound < f.cMax)

def AnpCheck.wExt (f : AnpCheck) (j i : Nat) : Ext := ⟨f.wReg, f.wOff + (j * f.rt + i) * 104960, 256 * cdiv (f.rows i) 5⟩
def AnpCheck.aExts (f : AnpCheck) : List Ext := rowExts f.aReg f.aOff f.aStr f.t (valBytes f.k f.wid)
def AnpCheck.xExts (f : AnpCheck) (i : Nat) : List Ext := if f.bsc then rowExts f.xReg (f.xOff + i * f.xSeg) 64 f.t (cdiv (f.rows i) 32) else []
def AnpCheck.ospExts (f : AnpCheck) (i : Nat) : List Ext := if f.osp then rowExts f.xReg (f.ospOff + i * f.xSeg) 256 f.t 256 else []
def AnpCheck.list (f : AnpCheck) : Ext := ⟨f.lReg, f.lOff, 8768⟩
def AnpCheck.ins (f : AnpCheck) : List Ext :=
  f.list :: (f.aExts ++ ((List.range f.ct).flatMap fun j => (List.range f.rt).map fun i => f.wExt j i) ++
    (List.range f.rt).flatMap fun i => f.xExts i ++ f.ospExts i)

/-- The catch-up columns an ANP_CHECK may write: 64 from the end of the list on (R163), and the list. -/
def AnpCheck.outs (f : AnpCheck) (p0 : Nat) : List Ext := f.list :: rowExts f.oReg (f.oOff + 4 * p0) f.oStr f.t 256

/-- A pass of row tile `i` over weight rows of `cols` columns: its sums with the outlier contributions, and its events. -/
def Run.anpPass (r : Run) (c : Cx) (f : AnpCheck) (i cols : Nat) (ws : List (List Int)) (planes : List Nat) :
    List (List Int) × Nat × Nat × Nat × Nat :=
  let (sh, clamps) := shiftsOf f.bexp ((f.xExts i).map (r.ext c))
  let acts := (r.actRows c f.aExts).map fun a => a >>> (2048 * i * f.wid)
  let p := macPass cols f.wid (f.sgn || f.bsc) (r.hw.skipEn c) acts ws (shiftAt sh) planes
  let osp := (f.ospExts i).map fun x => ospRow cols (f.rows i) (fun h => (ws[h]?).getD []) (r.ext c x)
  (if f.osp then List.zipWith (fun a b => addVec a b.1) p.sums osp else p.sums, p.sat, clamps, (osp.map (·.2.1)).sum, (osp.map (·.2.2)).sum)

/-- Passes over row tiles 0 on chained in one bank: the accumulators, and the events counted as they come. `tile i` gives the
weight rows of row tile `i`. -/
def Run.anpChain (r : Run) (c : Cx) (f : AnpCheck) (cols : Nat) (tile : Nat → List (List Int)) (planes : List Nat) : Run × List (List Int) :=
  (List.range f.rt).foldl (fun (a : Run × List (List Int)) i =>
    let (sums, sat, clamps, ob, os) := a.1.anpPass c f i cols (tile i) planes
    let add := List.zipWith satVec a.2 sums
    (a.1.on fun s => s.passEvents c 63 (sat + (add.map (·.2)).sum) clamps ob os, add.map (·.1)))
    (r, List.replicate f.t (List.replicate cols 0))

/-- The poison that the operands of one token give its catch-up outputs: activations, block exponents, outlier slots (R162). -/
def Run.anpTokenMark (r : Run) (c : Cx) (f : AnpCheck) (t : Nat) : Nat :=
  r.extMarks c ((f.aExts[t]?).toList ++ (List.range f.rt).flatMap fun i => ((f.xExts i)[t]?).toList ++ ((f.ospExts i)[t]?).toList)

/-- The poison that the weight bytes of neuron `n` give its catch-up outputs: those of its column in every group (R162, R82). -/
def Run.anpColMark (r : Run) (c : Cx) (f : AnpCheck) (n : Nat) : Nat :=
  r.extMarks c ((List.range f.rt).flatMap fun i =>
    let w := f.wExt (n / 256) i
    (List.range (w.len / 256)).map fun g => ⟨w.reg, w.off + 256 * g + n % 256, 1⟩)

/-- The work of ANP_CHECK (R160): shadow check, catch-up, list. `m` is the poison its slots give every output; the list takes its
old rows' poison and the SCHED of every operand, a catch-up output that of the operands it is computed from (R162, R171). -/
def Run.anpBody (c : Cx) (f : AnpCheck) (m : Nat) (r : Run) : Run × Nat :=
  let r := r.on fun s => (s.setBank c.n f.bank { owner := some (c.frame, c.task) }).startPrefetch c.n
  let ml := m ||| r.extMarks c [f.list] ||| (if bit (r.extMarks c f.ins) 1 then 3 else 0)
  let lb := r.ext c f.list
  let cnt := fld lb 0x200 2
  let p0 := min cnt f.ng
  let mask := fld lb 0 512
  let tiles := (List.range f.ct).map fun j => (List.range f.rt).map fun i => (f.wExt j i, tileRows (r.ext c (f.wExt j i)) (f.rows i))
  let at2 := fun j i => ((((tiles[j]?).getD [])[i]?).map (·.2)).getD ([], [])
  let (r, misses) := (List.range f.ct).foldl (fun (a : Run × List Nat) j =>
    let (r, acc) := a.1.anpChain c f 256 (fun i => (at2 j i).1) (planesDown f.wid f.pl)
    let ms := (List.range 256).filter fun col =>
      let n := 256 * j + col
      decide (n < f.ng) && !(bit mask n) && acc.any fun row => decide (f.thr < (row[col]?).getD 0 + (f.guard : Int))
    (r, a.2 ++ ms.map (256 * j + ·))) (r, [])
  let caught := misses.take 64
  let lost := misses.length - caught.length
  let wcol := fun i => caught.map fun n => ((at2 (n / 256) i).1).map fun row => (row[n % 256]?).getD 0
  let (r, outs) := r.anpChain c f caught.length (fun i => transpose (f.rows i) (wcol i)) (planesDown f.wid f.wid)
  let corrupt := fun n => (List.range f.rt).any fun i => (at2 (n / 256) i).2.any fun o => o % 256 == n % 256
  let cm := caught.map fun n => ml ||| r.anpColMark c f n ||| (if corrupt n then 1 else 0)
  let tm := (List.range f.t).map (r.anpTokenMark c f)
  let r := r.each (outs.zip ((List.range f.t).zip tm)) fun x r =>
    r.each ((x.1.zip cm).zip (List.range caught.length)) fun y r =>
      r.putExt c f.oReg (f.oOff + x.2.1 * f.oStr + 4 * (p0 + y.2)) (leBytes 4 (unsigned 32 y.1.1)) (y.1.2 ||| x.2.2)
  let mo := ml ||| (if caught = [] then 0 else (cm ++ tm).foldl (· ||| ·) 0)
  let list := (overlay (slice lb 0x240 8192) (2 * p0) (caught.flatMap (leBytes 2))).take 8192
  let nl := leBytes 512 (caught.foldl (fun m n => m ||| 2 ^ n) mask) ++ leBytes 2 (p0 + caught.length) ++ slice lb 0x202 2 ++
    leBytes 2 caught.length ++ leBytes 2 lost ++ slice lb 0x208 56 ++ list
  let r := r.putExt c f.lReg f.lOff nl ml
  (r.on fun s =>
    let s := s.each (tiles.flatMap id) fun x s => s.quintetBad c (s.extAddr c.n c.eng c.tk x.1) x.2.2
    let s := s.sparseOor c (cnt - f.ng) 0 cnt
    let s := (s.incStl R.STL_ANP_MISS_CAUGHT c.n caught.length).incStl R.STL_ANP_MISS_LOST c.n lost
    let s := if lost = 0 then s else s.set R.STL_ANP_FLAG_FLAG c.n (s.get R.STL_ANP_FLAG_FLAG c.n ||| 2 ^ f.pred)
    s.setBank c.n f.bank {}, mo)

/-- ANP_CHECK (R159). -/
def execAnpCheck (n : StallId) (i : Issue) (cmd : Bytes) (s : State) : Host.Outcome State Fault Refusal :=
  s.runStall n.val 0 i fun c r =>
      let f := AnpCheck.of cmd
      let p0 := min (r.readNat (r.hw.extAddr c.n c.eng c.tk f.list + 0x200) 2) f.ng
      let outs := f.outs p0
      if f.bad cmd then (r.on fun s => s.dropPrefetch c).malformed c 0x24 (Hw.spxMalformed c) outs [f.slotL, f.slotO]
      else match r.hw.bankGate c f.bank 3 with
        | .go =>
          (r.on fun s => s.dropPrefetch c).commandOn c f.ins outs [f.slotW, f.slotA, f.slotL] [f.slotL, f.slotO]
            (Run.anpBody c f)
        | _ => r

end Sys2Proof.Machine
end

