-- ==== Sys2Proof/Machine/Dispatch.lean ====
section
/-! DEFINITION. What each command does: one arm per constructor of Instr, each one direct call of its meaning. -/

namespace Sys2Proof.Machine

/-- The effect of command `i` on everything but the queue. -/
def exec (i : Instr) (s : State) : Host.Outcome State Fault Refusal :=
  match i with
  | .frameStart => Sys2Proof.Machine.execFrameStart s
  | .subtick => Sys2Proof.Machine.execSubtick s
  | .pauseExpiry p ctx => Sys2Proof.Machine.execPauseExpiry p ctx s
  | .frameTailDone p frame => Sys2Proof.Machine.execFrameTailDone p frame s
  | .frameOverrun p frame => Sys2Proof.Machine.execFrameOverrun p frame s
  | .commandBoundary e => Sys2Proof.Machine.execCommandBoundary e s
  | .cmdWatchdog e => Sys2Proof.Machine.execCmdWatchdog e s
  | .engineResetDone e => Sys2Proof.Machine.execEngineResetDone e s
  | .stallHang e => Sys2Proof.Machine.execStallHang e s
  | .swapSetDone p places => Sys2Proof.Machine.execSwapSetDone p places s
  | .tdaMac n q cmd => Sys2Proof.Machine.execTdaMac n q cmd s
  | .lutAcc n q cmd => Sys2Proof.Machine.execLutAcc n q cmd s
  | .tritCombine n q f => Sys2Proof.Machine.execTritCombine n q f s
  | .lnuOp n q cmd => Sys2Proof.Machine.execLnuOp n q cmd s
  | .cvdLoad n q f => Sys2Proof.Machine.execCvdLoad n q f s
  | .genBind n q cmd => Sys2Proof.Machine.execGenBind n q cmd s
  | .genUnbind n q gen => Sys2Proof.Machine.execGenUnbind n q gen s
  | .tseMac n q cmd => Sys2Proof.Machine.execTseMac n q cmd s
  | .routeTopk n q cmd => Sys2Proof.Machine.execRouteTopk n q cmd s
  | .anpSelect n q cmd => Sys2Proof.Machine.execAnpSelect n q cmd s
  | .anpCheck n q cmd => Sys2Proof.Machine.execAnpCheck n q cmd s
  | .scarfPack m p q cmd => Sys2Proof.Machine.execScarfPack m p q cmd s
  | .cdeCmd m p q cmd => Sys2Proof.Machine.execCdeCmd m p q cmd s
  | .ternarise n q cmd => Sys2Proof.Machine.execTernarise n q cmd s
  | .waitArrivals n e q cmd => Sys2Proof.Machine.execWaitArrivals n e q cmd s
  | .dmaMove n q cmd => Sys2Proof.Machine.execDmaMove n q cmd s
  | .remoteWriteArrival n off w poison ctr slot => Sys2Proof.Machine.execRemoteWriteArrival n off w poison ctr slot s
  | .zeroFillDone n => Sys2Proof.Machine.execZeroFillDone n s
  | .cribEmit n q cmd => Sys2Proof.Machine.execCribEmit n q cmd s
  | .detachedWaitEnd n d => Sys2Proof.Machine.execDetachedWaitEnd n d s
  | .sample n q cmd => Sys2Proof.Machine.execSample n q cmd s
  | .kvPrefix m p q cmd => Sys2Proof.Machine.execKvPrefix m p q cmd s
  | .kvRq m p q cmd => Sys2Proof.Machine.execKvRq m p q cmd s
  | .kvPrefetchSpan p => Sys2Proof.Machine.execKvPrefetchSpan p s
  | .zltPut n q cmd => Sys2Proof.Machine.execZltPut n q cmd s
  | .pegSync n q cmd => Sys2Proof.Machine.execPegSync n q cmd s
  | .pegArrive l raw udpOk ce => Sys2Proof.Machine.execPegArrive l raw udpOk ce s
  | .pegRelease l raw udpOk ce => Sys2Proof.Machine.execPegRelease l raw udpOk ce s
  | .peerTimeout g => Sys2Proof.Machine.execPeerTimeout g s
  | .pegEnable g => Sys2Proof.Machine.execPegEnable g s
  | .pegReset g => Sys2Proof.Machine.execPegReset g s
  | .pegConfigWrite g reg value => Sys2Proof.Machine.execPegConfigWrite g reg value s
  | .zltDataRx l raw udpOk ce => Sys2Proof.Machine.execZltDataRx l raw udpOk ce s
  | .zltAckRx l raw udpOk ce => Sys2Proof.Machine.execZltAckRx l raw udpOk ce s
  | .zltAckTimer dev tc => Sys2Proof.Machine.execZltAckTimer dev tc s
  | .zltRetransmit dev tc psn => Sys2Proof.Machine.execZltRetransmit dev tc psn s
  | .rateRecovery dev => Sys2Proof.Machine.execRateRecovery dev s
  | .linkCreditRx l tc n => Sys2Proof.Machine.execLinkCreditRx l tc n s
  | .fecUncorrectable l => Sys2Proof.Machine.execFecUncorrectable l s
  | .linkTrained l lanes peerDev peerLink split => Sys2Proof.Machine.execLinkTrained l lanes peerDev peerLink split s
  | .linkTrainTimeout l => Sys2Proof.Machine.execLinkTrainTimeout l s
  | .linkRetry l => Sys2Proof.Machine.execLinkRetry l s
  | .laneFail l lane => Sys2Proof.Machine.execLaneFail l lane s
  | .linkRetrain l => Sys2Proof.Machine.execLinkRetrain l s
  | .linkHang l => Sys2Proof.Machine.execLinkHang l s
  | .routeCommit => Sys2Proof.Machine.execRouteCommit s
  | .hello l raw udpOk ce => Sys2Proof.Machine.execHello l raw udpOk ce s
  | .heartbeatRx l raw udpOk ce => Sys2Proof.Machine.execHeartbeatRx l raw udpOk ce s
  | .direct l raw udpOk ce => Sys2Proof.Machine.execDirect l raw udpOk ce s
  | .journal l raw udpOk ce => Sys2Proof.Machine.execJournal l raw udpOk ce s
  | .commit l raw udpOk ce => Sys2Proof.Machine.execCommit l raw udpOk ce s
  | .commitAck l raw udpOk ce => Sys2Proof.Machine.execCommitAck l raw udpOk ce s
  | .yokeCommitSend p => Sys2Proof.Machine.execYokeCommitSend p s
  | .fetchReq l raw udpOk ce => Sys2Proof.Machine.execFetchReq l raw udpOk ce s
  | .fetchDone l raw udpOk ce => Sys2Proof.Machine.execFetchDone l raw udpOk ce s
  | .fetchNak l raw udpOk ce => Sys2Proof.Machine.execFetchNak l raw udpOk ce s
  | .yokeTakeover p => Sys2Proof.Machine.execYokeTakeover p s
  | .yokeSolo p => Sys2Proof.Machine.execYokeSolo p s
  | .demote p => Sys2Proof.Machine.execDemote p s
  | .trsStart => Sys2Proof.Machine.execTrsStart s
  | .quiesce => Sys2Proof.Machine.execQuiesce s
  | .quiesceClear => Sys2Proof.Machine.execQuiesceClear s
  | .quiesced => Sys2Proof.Machine.execQuiesced s
  | .trsAbort => Sys2Proof.Machine.execTrsAbort s
  | .trussFetchDone res => Sys2Proof.Machine.execTrussFetchDone res s
  | .trussVerifyDone => Sys2Proof.Machine.execTrussVerifyDone s
  | .trussValidateDone => Sys2Proof.Machine.execTrussValidateDone s
  | .trussCommitDone => Sys2Proof.Machine.execTrussCommitDone s
  | .penHeavyCommit => Sys2Proof.Machine.execPenHeavyCommit s
  | .trussScrubDone => Sys2Proof.Machine.execTrussScrubDone s
  | .planStart p slot => Sys2Proof.Machine.execPlanStart p slot s
  | .planAbort p => Sys2Proof.Machine.execPlanAbort p s
  | .planFetchDone p res => Sys2Proof.Machine.execPlanFetchDone p res s
  | .planDigestDone p => Sys2Proof.Machine.execPlanDigestDone p s
  | .planCheckDone p tasks => Sys2Proof.Machine.execPlanCheckDone p tasks s
  | .rotaApply p lenM1 => Sys2Proof.Machine.execRotaApply p lenM1 s
  | .kvmApply p => Sys2Proof.Machine.execKvmApply p s
  | .retirePage stack entry value => Sys2Proof.Machine.execRetirePage stack entry value s
  | .loftRetire entry value => Sys2Proof.Machine.execLoftRetire entry value s
  | .patrolScrub u upsets => Sys2Proof.Machine.execPatrolScrub u upsets s
  | .zoneSample m stack0 stack1 hub => Sys2Proof.Machine.execZoneSample m stack0 stack1 hub s
  | .ctTempSample d t0 t1 t2 t3 => Sys2Proof.Machine.execCtTempSample d t0 t1 t2 t3 s
  | .thermalTrip u => Sys2Proof.Machine.execThermalTrip u s
  | .tripRelease u => Sys2Proof.Machine.execTripRelease u s
  | .thermalCritical u => Sys2Proof.Machine.execThermalCritical u s
  | .criticalCooldown => Sys2Proof.Machine.execCriticalCooldown s
  | .sagWarn ext => Sys2Proof.Machine.execSagWarn ext s
  | .sagWarnRelease => Sys2Proof.Machine.execSagWarnRelease s
  | .sagNSampleEnd low => Sys2Proof.Machine.execSagNSampleEnd low s
  | .sagReset => Sys2Proof.Machine.execSagReset s
  | .ovReset => Sys2Proof.Machine.execOvReset s
  | .powerEstimate parts => Sys2Proof.Machine.execPowerEstimate parts s
  | .powerMeasure vin iin mw => Sys2Proof.Machine.execPowerMeasure vin iin mw s
  | .powerCalibrate => Sys2Proof.Machine.execPowerCalibrate s
  | .powerCapHeld => Sys2Proof.Machine.execPowerCapHeld s
  | .capWrite value => Sys2Proof.Machine.execCapWrite value s
  | .powerClamp => Sys2Proof.Machine.execPowerClamp s
  | .clampRelease => Sys2Proof.Machine.execClampRelease s
  | .powerOvercurrent => Sys2Proof.Machine.execPowerOvercurrent s
  | .droopStretch d cycles => Sys2Proof.Machine.execDroopStretch d cycles s
  | .droopWindow d aclk => Sys2Proof.Machine.execDroopWindow d aclk s
  | .supplyOn => Sys2Proof.Machine.execSupplyOn s
  | .inrushDone => Sys2Proof.Machine.execInrushDone s
  | .supplyLoss => Sys2Proof.Machine.execSupplyLoss s
  | .deviceRelease => Sys2Proof.Machine.execDeviceRelease s
  | .deviceBootComplete ok => Sys2Proof.Machine.execDeviceBootComplete ok s
  | .cxlLinkTrained port lanes rate => Sys2Proof.Machine.execCxlLinkTrained port lanes rate s
  | .dieFatal die => Sys2Proof.Machine.execDieFatal die s
  | .fabricUe die => Sys2Proof.Machine.execFabricUe die s
  | .drainEnd p => Sys2Proof.Machine.execDrainEnd p s
  | .drainTimeout p => Sys2Proof.Machine.execDrainTimeout p s
  | .penResetDone p => Sys2Proof.Machine.execPenResetDone p s
  | .hostFence p => Sys2Proof.Machine.execHostFence p s
  | .penResume p => Sys2Proof.Machine.execPenResume p s
  | .functionDrainEnd f => Sys2Proof.Machine.execFunctionDrainEnd f s
  | .hostReset noDump => Sys2Proof.Machine.execHostReset noDump s
  | .crashCaptureDone => Sys2Proof.Machine.execCrashCaptureDone s
  | .dumpWriteDone => Sys2Proof.Machine.execDumpWriteDone s
  | .dumpCopy => Sys2Proof.Machine.execDumpCopy s
  | .dumpCopyDone => Sys2Proof.Machine.execDumpCopyDone s
  | .refetchGo => Sys2Proof.Machine.execRefetchGo s
  | .hostRefetchDone m entry res => Sys2Proof.Machine.execHostRefetchDone m entry res s
  | .refetchTimeout m entry => Sys2Proof.Machine.execRefetchTimeout m entry s
  | .flashLogWrite => Sys2Proof.Machine.execFlashLogWrite s
  | .platformEventSend room => Sys2Proof.Machine.execPlatformEventSend room s
  | .ceStorm kind unit fec => Sys2Proof.Machine.execCeStorm kind unit fec s
  | .sdgReset => Sys2Proof.Machine.execSdgReset s
  | .sheepdogBoot addr => Sys2Proof.Machine.execSheepdogBoot addr s
  | .fwTrialConfirm => Sys2Proof.Machine.execFwTrialConfirm s
  | .updateIdleTimeout => Sys2Proof.Machine.execUpdateIdleTimeout s
  | .arcCommit key => Sys2Proof.Machine.execArcCommit key s
  | .arcFuseBurn => Sys2Proof.Machine.execArcFuseBurn s
  | .keyRecordApply => Sys2Proof.Machine.execKeyRecordApply s
  | .keyRecordDone res => Sys2Proof.Machine.execKeyRecordDone res s
  | .getFwInfo => Sys2Proof.Machine.execGetFwInfo s
  | .transferFw slot p => Sys2Proof.Machine.execTransferFw slot p s
  | .transferFwDone => Sys2Proof.Machine.execTransferFwDone s
  | .activateFw slot online => Sys2Proof.Machine.execActivateFw slot online s
  | .getTimestamp => Sys2Proof.Machine.execGetTimestamp s
  | .setTimestamp t => Sys2Proof.Machine.execSetTimestamp t s
  | .getSupportedLogs => Sys2Proof.Machine.execGetSupportedLogs s
  | .getLog => Sys2Proof.Machine.execGetLog s
  | .requestUpdate b p => Sys2Proof.Machine.execRequestUpdate b p s
  | .activateFirmware b => Sys2Proof.Machine.execActivateFirmware b s
  | .setEventReceiver b on => Sys2Proof.Machine.execSetEventReceiver b on s
  | .effecterWrite b id w => Sys2Proof.Machine.execEffecterWrite b id w s
  | .sensorRead b id now => Sys2Proof.Machine.execSensorRead b id now s
  | .fruRead b => Sys2Proof.Machine.execFruRead b s
  | .pldmFileRead b file off len => Sys2Proof.Machine.execPldmFileRead b file off len s
  | .mctpEidAssign b eid => Sys2Proof.Machine.execMctpEidAssign b eid s
  | .getVersion t => Sys2Proof.Machine.execGetVersion t s
  | .getCapabilities t => Sys2Proof.Machine.execGetCapabilities t s
  | .negotiateAlgorithms t offered => Sys2Proof.Machine.execNegotiateAlgorithms t offered s
  | .getDigests t => Sys2Proof.Machine.execGetDigests t s
  | .getCertificate t slot off len => Sys2Proof.Machine.execGetCertificate t slot off len s
  | .challenge t slot => Sys2Proof.Machine.execChallenge t slot s
  | .getMeasurements t q sig => Sys2Proof.Machine.execGetMeasurements t q sig s
  | .keyExchange => Sys2Proof.Machine.execKeyExchange s
  | .finish => Sys2Proof.Machine.execFinish s
  | .endSession => Sys2Proof.Machine.execEndSession s
  | .coolantThreshold outlet t => Sys2Proof.Machine.execCoolantThreshold outlet t s
  | .hdmWrite port off bytes poison ups => Sys2Proof.Machine.execHdmWrite port off bytes poison ups s
  | .hdmRead port off len ups => Sys2Proof.Machine.execHdmRead port off len ups s
  | .hostSnoop port addr => Sys2Proof.Machine.execHostSnoop port addr s
  | .hostReadCompletion n d res => Sys2Proof.Machine.execHostReadCompletion n d res s
  | .dmaWindowWrite f w limit value => Sys2Proof.Machine.execDmaWindowWrite f w limit value s
  | .msixUnmask f v => Sys2Proof.Machine.execMsixUnmask f v s
  | .perstDeassert port bifur => Sys2Proof.Machine.execPerstDeassert port bifur s
  | .perstAssert port => Sys2Proof.Machine.execPerstAssert port s
  | .flr f => Sys2Proof.Machine.execFlr f s
  | .cxlReset port => Sys2Proof.Machine.execCxlReset port s
  | .cxlLinkDownTimeout port => Sys2Proof.Machine.execCxlLinkDownTimeout port s
  | .vfEnable port num => Sys2Proof.Machine.execVfEnable port num s
  | .vfDisable port => Sys2Proof.Machine.execVfDisable port s
  | .d3hot => Sys2Proof.Machine.execD3hot s
  | .rcFieldRead sp addr size => Sys2Proof.Machine.execRcFieldRead sp addr size s
  | .lowWordRead sp addr => Sys2Proof.Machine.execLowWordRead sp addr s
  | .registerWrite sp addr size value => Sys2Proof.Machine.execRegisterWrite sp addr size value s
  | .sagNRise => Sys2Proof.Machine.execSagNRise s
  | .inputReleaseLevel l ok => Sys2Proof.Machine.execInputReleaseLevel l ok s
  | .kvSpillSpan p => Sys2Proof.Machine.execKvSpillSpan p s
  | .bulkCopyDone p => Sys2Proof.Machine.execBulkCopyDone p s
  | .debugToken b t => Sys2Proof.Machine.execDebugToken b t s
  | .cxlIdeKm port stream op => Sys2Proof.Machine.execCxlIdeKm port stream op s
  | .dynamicAddressAssign addr => Sys2Proof.Machine.execDynamicAddressAssign addr s

end Sys2Proof.Machine
end

