-- ==== Sys2Proof/Safety.lean ====
section
/-! DEFINITION. What counts as a well-kept state and as a safe run, in the terms the statements use. -/

namespace Sys2Proof.Machine

/-- The memories of a state are in canonical form: addresses strictly rising, no entry equal to what an unlisted one reads as. -/
def State.MemOk (s : State) : Prop := s.mem.wf = true

/-- What the device's memory shows of a state: the byte at a device address, the byte at a host address, and the marks of a
device line. -/
def State.devByte (s : State) (a : Nat) : Byte := Tbl.get 0#8 a s.mem.dev
def State.hostByte (s : State) (a : Nat) : Byte := Tbl.get 0#8 a s.mem.host
def State.lineMark (s : State) (l : Nat) : Nat := Tbl.get 0 l s.mem.mark

/-- Every byte and every mark reads as before. -/
def State.SameMem (s t : State) : Prop :=
  (∀ a, t.devByte a = s.devByte a) ∧ (∀ a, t.hostByte a = s.hostByte a) ∧ ∀ l, t.lineMark l = s.lineMark l

/-- A command answers a next state. -/
def Completes (i : Instr) (s : State) (t : State) : Prop := exec i s = .next t

/-! ## What a command changes -/

/-- Every register but those at the keys `ks` reads as before. -/
def Hw.RegsBut (ks : List Nat) (s t : Hw) : Prop := ∀ d k, k ∉ ks → Tbl.get d k t.regs = Tbl.get d k s.regs

/-- A command that writes no memory: the queue and every byte and mark stay, and so does every register but those at the keys `ks`. -/
def State.Frame (ks : List Nat) (s t : State) : Prop := t.pending = s.pending ∧ t.mem = s.mem ∧ Hw.RegsBut ks s.hw t.hw

/-- The device bytes outside `inside` and every host byte read as before. -/
def State.BytesBut (inside : Nat → Prop) (s t : State) : Prop :=
  (∀ a, ¬inside a → t.devByte a = s.devByte a) ∧ ∀ a, t.hostByte a = s.hostByte a

/-- The registers that show why the present pens are suspended (R75, Table 12.7). -/
def Hw.suspKeys (s : Hw) : List Nat := s.penList.flatMap fun p =>
  [R.FSQ_STATE_SUSPENDED.key p, R.FSQ_STATE_SUSP_SAG.key p, R.FSQ_STATE_SUSP_THERMAL.key p, R.FSQ_STATE_SUSP_OTHER.key p]

/-- The flag that shows a unit's trip, and its trip counter (Table 12.6). -/
def tripFlag : ThermUnit → Fld × Nat
  | .ct d => (R.THM_CT_LEVEL, d.val)
  | .zone m => (R.THM_ZONE_TRIP, m.val)
  | .lk k => (R.THM_DIE_TRIP, k.val)
  | .td k => (R.THM_DIE_TRIP, 4 + k.val)
  | .hx => (R.THM_DIE_TRIP, 6)
  | .mg => (R.THM_DIE_TRIP, 7)
def tripCount : ThermUnit → Fld × Nat
  | .ct d => (R.THM_CT_COUNT_TRIPS, d.val)
  | .zone m => (R.THM_ZONE_TRIPS, m.val)
  | .lk k => (R.THM_DIE_TRIPS, k.val)
  | .td k => (R.THM_DIE_TRIPS, 4 + k.val)
  | .hx => (R.THM_DIE_TRIPS, 6)
  | .mg => (R.THM_DIE_TRIPS, 7)

/-- The registers that a fence of pen `p` may change beside the log's: the pen's fence registers, and those of a truss load and a plan
installation that it ends (R348, R50, R59). -/
def fenceKeys (p : Nat) : List Nat :=
  [R.ERR_PEN_STATE_STATE.key p, R.ERR_PEN_STATE_DOMAIN.key p, R.ERR_PEN_COUNT_FENCES.key p, R.ERR_PEN_LAST_LOG_SEQ.key p,
    R.PEN_STATE_LOAD_PENDING.key p, R.PEN_STATE_REFUSING.key p, R.TRS_STATUS_STATE.key 0, R.TRS_STATUS_FAIL.key 0, R.TRS_STATUS_ERR_CODE.key 0,
    R.TRS_STATUS_ERR_SECTION.key 0, R.TRS_ERR_DETAIL_OFFSET.key 0, R.TRS_FAIL_COUNT_FAILS.key 0, R.FSQ_PLAN_STATUS_STATE.key p,
    R.FSQ_PLAN_STATUS_FAIL.key p, R.FSQ_PLAN_STATUS_ERR_CODE.key p]

/-- Whether the sheepdog hears a message on the management pair, and the hardware that has heard it (R364). -/
def Hw.hearsBus (s : Hw) (b : Bus) : Bool := s.mgt.sdgUp && s.pairHears b
def Hw.heard (s : Hw) (b : Bus) : Hw := (s.set R.SDG_MGMT_MODE 0 (busMode b)).inc R.SDG_OOB_COUNTS_MCTP_RX

/-- The same of an SPDM request on one of the responder's transports (R381). -/
def Hw.hearsSpdm (s : Hw) : SpdmPort → Bool
  | .mctp b => s.hearsBus b
  | .doe => s.hostUp && s.mgt.sdgUp
def Hw.heardSpdm (s : Hw) : SpdmPort → Hw
  | .mctp b => s.heard b
  | .doe => s

/-- The registers that logging a record may change (R340, R342). -/
def logKeys : List Nat :=
  [R.ERR_LOG_SEQ_NEWEST.key 0, R.ERR_LOG_MIN_OLDEST.key 0, R.ERR_COUNTS_NONFATAL.key 0, R.ERR_COUNTS_PENFATAL.key 0,
    R.ERR_STATUS_LOG_OVERFLOW.key 0]

/-- The registers that a change of link `l`'s state may change. -/
def linkKeys (l : Nat) : List Nat := [R.LNK_STATUS_STATE.key l, R.LNK_STATUS_WIDTH.key l, R.LNK_PORT_STATUS_UP.key 0]

/-- The registers that sending waiting packets may change. -/
def txKeys : List Nat := R.ZLT_TX_PKTS_PKTS.key 0 :: (List.range 18).map fun l => R.LNK_TX_BYTES_BYTES.key l

/-- The registers that a packet taken on link `l` and its acknowledgement may change, and those of stall `n` that a write which lands
there may change. -/
def rxKeys (l : Nat) : List Nat :=
  R.LNK_RX_BYTES_BYTES.key l :: R.ZLT_ECN_CE.key 0 :: R.ZLT_RX_PKTS_PKTS.key 0 :: R.ZLT_DENY_EGRESS.key 0 :: txKeys
def landKeys (n : Nat) : List Nat :=
  [R.SPD_SLOT_FAULT_OVERRUN.key n, R.SPD_SLOT_LAST_SLOT.key n, R.SPD_SLOT_LAST_KIND.key n, R.SPD_SLOT_LAST_TASK.key n] ++
    (List.range 64).map fun a => R.SPD_ARR_COUNT.key (n * 64 + a)

/-- What a write into stall `n` from outside it meets at its banks (R174, R175). -/
def metKeys (n : Nat) : List Nat := [R.SPD_DMA_YIELD_YIELDS.key n, R.SPD_SAME_ROW_EVENTS.key n]

/-- The registers of peg group `g` that an arrival and a release may change, and its four configuration registers. -/
def pegKeys (g : Nat) : List Nat :=
  [R.PEG_GSTATUS_STATE.key g, R.PEG_GSTATUS_LAST_REASON.key g, R.PEG_GSTATUS_LOCAL_COUNT.key g, R.PEG_GSTATUS_CHILD_ARRIVED.key g,
    R.PEG_GSTATUS_PACE_LIMITER.key g, R.PEG_GLAST_LAST_DEV.key g, R.PEG_GSEQ_SEQ.key g, R.PEG_GRELEASES_RELEASES.key g, R.PEG_GWAIT_US_WAIT.key g,
    R.PEG_GCOUNTS_PACED.key g]
def pegCfgKeys (g : Nat) : List Nat :=
  [R.PEG_GCFG_ENABLE.key g, R.PEG_GCFG_RESET.key g, R.PEG_GCFG_PEN.key g, R.PEG_GCFG_LOCAL_N.key g, R.PEG_GCFG_CHILD_COUNT.key g,
    R.PEG_GPARENT_PARENT_DEV.key g, R.PEG_GTAG_GROUP_TAG.key g, R.PEG_GTO_PEER_TO_US.key g, R.PEG_GSTATUS_REJECT.key g]

/-- The counts of peg group `g` that a start clears beside them. -/
def pegCountKeys (g : Nat) : List Nat := [R.PEG_GCOUNTS_TIMEOUTS.key g, R.PEG_GERR_STALE.key g, R.PEG_GERR_SEQ_ERR.key g]

/-- The registers of the yoke of pen `p` that a packet taken on link `l` may change. -/
def yokeKeys (l p : Nat) : List Nat :=
  [R.YOK_STATUS_PAIRED.key 0, R.YOK_STATUS_SPLIT.key 0, R.YOK_STATUS_TAG_MISMATCH.key 0, R.YOK_TX_BYTES_BYTES.key 0, R.YOK_RX_BYTES_BYTES.key 0,
    R.YOK_FETCH_SERVED.key 0, R.YOK_FETCH_NAK.key 0, R.YOK_PEN_STATE_STATE.key p, R.YOK_PEN_STATE_ROLE.key p, R.YOK_COMMIT_NO_COMMIT.key p,
    R.YOK_COMMIT_MAX_MAX.key p, R.YOK_COMMIT_MAX_SLOW.key p, R.YOK_COUNTS_RESYNCS.key p, R.YOK_MIRROR_BYTES_BYTES.key p,
    R.YOK_LAST_RX_FRAME.key p] ++ rxKeys l

/-- No journal that a pen receives has its length yet, so that none is acknowledged (R304). -/
def Hw.noneWhole (s : Hw) : Bool := s.penList.all fun q => (s.pen q).yoke.rx.all fun j => j.len.isNone

/-- The free-page counts of the present pens (Table 8.16). -/
def Hw.countKeys (s : Hw) : List Nat :=
  s.penList.flatMap fun p => [R.KVM_FREE_PAGES.key p, R.KVM_USED_PAGES.key p, R.KVM_LOFT_USED_PAGES.key p]

/-! ## Packets that a module takes (R280 to R282) -/

/-- The transport hands packet `p`, received on link `l` as the row `raw`, to the unit it is for: the link is UP, the module has a
DEVICE_ID, the packet is well formed and for this module, in network mode its UDP checksum fits, and its port carries packets of
its type. -/
abbrev Hw.Reads (s : Hw) (l : Nat) (raw : Bytes) (udpOk : Bool) (p : Pkt) : Prop :=
  s.get R.LNK_STATUS_STATE l = 2 ∧ s.devId ≠ 0xFFFF ∧ Pkt.of raw = some p ∧ (s.get R.LNK_STATUS_MODE l = 0 ∨ udpOk = true) ∧ p.dst = s.devId ∧
    s.carries l p = true

/-- The hardware once a packet has been read: the link's watchdog starts anew, its bytes are counted, in herd mode its credits go back, and a congestion mark is
noted for the flow's next ACK. -/
def Hw.seen (s : Hw) (l : Nat) (raw : Bytes) (ce : Bool) (p : Pkt) : Hw :=
  let h := (s.hearLink l).inc R.LNK_RX_BYTES_BYTES l raw.length
  let h := if s.get R.LNK_STATUS_MODE l = 0 then h.emit (.head l (linkHeader 0 0 p.tc (cdiv p.size 64))) else h
  if ce then (h.inc R.ZLT_ECN_CE).modRx (flowKey p.src p.tc) fun f => { f with ece := true } else h

/-- The flow has not received the packet yet, and it lies within the window of 1,024 packets (R282). -/
abbrev Hw.IsNew (s : Hw) (p : Pkt) : Prop :=
  (p.psn + 2 ^ 32 - (s.rxFlow (flowKey p.src p.tc)).next % 2 ^ 32) % 2 ^ 32 < 1024 ∧
    (s.rxFlow (flowKey p.src p.tc)).got.contains p.psn = false

/-- The hardware once a new packet has been taken into its flow. -/
def Hw.taken (s : Hw) (l : Nat) (raw : Bytes) (ce : Bool) (p : Pkt) : Hw :=
  ((s.seen l raw ce p).modRx (flowKey p.src p.tc) fun f => f.note p.psn).inc R.ZLT_RX_PKTS_PKTS

/-! ## Commands of a stall's engines -/

/-- The registers that any command of a stall's engine may change beside those of its engine: what it met at its ports, the faults
of its slots, the bit errors of the rows it reads, and the log's. -/
def cmdKeys (n : Nat) : List Nat := logKeys ++
  [R.SPD_CONFLICT_CYCLES.key n, R.SPD_CONFLICT_LAST_BANK.key n, R.SPD_CONFLICT_LAST_ENGINE.key n, R.SPD_CONFLICT_LAST_TASK.key n,
    R.SPD_DMA_YIELD_YIELDS.key n, R.SPD_SAME_ROW_EVENTS.key n, R.SPD_SLOT_FAULT_UNDERRUN.key n, R.SPD_SLOT_FAULT_OVERRUN.key n,
    R.SPD_SLOT_LAST_SLOT.key n, R.SPD_SLOT_LAST_KIND.key n, R.SPD_SLOT_LAST_TASK.key n, R.SPD_ECC_CE.key n, R.SPD_ECC_UE.key n,
    R.SPD_ECC_ADDR_OFFSET.key n]

/-- The registers of the eight generators of a stall, and the draws of each (Table 5.11). -/
def genKeys (n : Nat) : List Nat := (List.range 8).flatMap fun g =>
  [R.GEN_STATE_BOUND.key (n * 8 + g), R.GEN_STATE_CONSUMER.key (n * 8 + g), R.GEN_STATE_SHARED.key (n * 8 + g),
    R.GEN_STATE_FROM_CTX.key (n * 8 + g), R.GEN_STATE_CTX.key (n * 8 + g), R.GEN_NEXT_NEXT.key (n * 8 + g), R.GEN_END_END.key (n * 8 + g),
    R.GEN_DRAWS_DRAWS.key (n * 8 + g)]

/-- The registers that an output conversion may change: events, range alarms, draws (R116, R131 to R142). -/
def outKeys (n p : Nat) : List Nat := genKeys n ++
  [R.STL_LNS_EVT_LNS_SAT.key n, R.STL_LNS_EVT_LNS_UFL.key n, R.STL_NARROW_CONV_SAT.key n, R.STL_NARROW_OSP_OVERFLOW.key n,
    R.STL_OSP_USED.key n, R.STL_RANGE_ALARM_ALARM.key n, R.STL_ALARM_FRAME_FRAME.key n, R.STL_LNU_FAULT_GEN_FAULT.key n,
    R.GEN_FAULT_COUNT_RANGE.key p]

/-- The registers that a chain's command may change beside them: its bank's ownership and poison, and what its operands give (Table
4.9). -/
def chainKeys (n : Nat) : List Nat :=
  [R.STL_STATUS_TDA_BANK_OWNED.key n, R.STL_STATUS_TDA_BANK_POISON.key n, R.STL_STATUS_LUT_BANK_OWNED.key n,
    R.STL_STATUS_LUT_BANK_POISON.key n, R.STL_LAST_ERR_CODE.key n, R.STL_LAST_ERR_TASK.key n, R.STL_SAT_TDA_SAT.key n,
    R.STL_SAT2_BEXP_CLAMP.key n, R.STL_OSP_BAD.key n, R.STL_BAD_QUINTET_BAD.key n]

/-- The registers of the prefetch (R100). -/
def prefetchKeys (n : Nat) : List Nat := [R.STL_STATUS_PREFETCH_VALID.key n, R.STL_PREFETCH_HIT.key n, R.STL_PREFETCH_DISCARD.key n]

/-- A device address lies in one of the extents of a command's engine. -/
def Hw.inExts (s : Hw) (n eng task : Nat) (xs : List Ext) (a : Nat) : Bool :=
  xs.any fun x => decide (s.extAddr n eng task x ≤ a) && decide (a < s.extAddr n eng task x + x.len)

/-- A slot that was written once more: FULL, with the next generation tag; a number that names no slot stands for none (R181). -/
def Hw.slotWritten (s t : Hw) (n i : Nat) : Prop := i < 4096 → (t.slot n i).full = true ∧ (t.slot n i).gen = ((s.slot n i).gen + 1) % 4

/-- The little-endian number in `n` bytes of device memory from `a` on. -/
def State.leAt (s : State) (a n : Nat) : Nat := leNat ((List.range n).map fun j => s.devByte (a + j))

/-! ## The arithmetic of the dense array, as numbers (R81, R82, R85, R86) -/

/-- The trit of weight row `k` and column `c` of the quintet tile at `w`: byte `c` of group `k / 5`, digit `k mod 5`; 0 in a corrupt
byte. -/
def State.trit (s : State) (w k c : Nat) : Int :=
  let b := (s.devByte (w + 256 * (k / 5) + c)).toNat
  if 242 < b then 0 else ((b / 3 ^ (k % 5) % 3 : Nat) : Int) - 1

/-- Value `k` of an activation row of `len` bytes at `a`, `wid` bits a value, in two's complement where `sgn` says so. -/
def State.actAt (s : State) (a len wid : Nat) (sgn : Bool) (k : Nat) : Int :=
  let v := s.leAt a len / 2 ^ (wid * k) % 2 ^ wid
  if sgn && decide (2 ^ (wid - 1) ≤ v) then (v : Int) - (2 : Int) ^ wid else v

/-- The dot product of an activation row and a column of weights. -/
def State.dotAt (s : State) (w a rows wid : Nat) (sgn : Bool) (c : Nat) : Int :=
  ((List.range rows).map fun k => s.trit w k c * s.actAt a (valBytes rows wid) wid sgn k).sum

/-! ## Commands of the hub engines and the KV manager -/

/-- Every register outside the fields `fs` reads as before, whatever its instance. -/
def Hw.FieldsBut (fs : List Fld) (s t : Hw) : Prop :=
  ∀ d k, (fs.any fun f => f.id == k / 65536) = false → Tbl.get d k t.regs = Tbl.get d k s.regs

/-- The fields of the log (R340, R342). -/
def logFlds : List Fld :=
  [R.ERR_LOG_SEQ_NEWEST, R.ERR_LOG_MIN_OLDEST, R.ERR_COUNTS_NONFATAL, R.ERR_COUNTS_PENFATAL, R.ERR_STATUS_LOG_OVERFLOW]

/-- The fields that reads and writes of memory from inside the module may change: bit errors, the hub caches, retired pages, bytes
moved, and what a mirrored pen sends to its partner. -/
def memFlds : List Fld := logFlds ++
  [R.SPD_ECC_CE, R.SPD_ECC_UE, R.SPD_ECC_ADDR_OFFSET, R.MHB_ECC_CE_CE, R.MHB_ECC_UE_UE, R.MHB_UE_ADDR_ADDR, R.MHB_RET_HIT_HITS,
    R.MHB_HC_HIT_HIT, R.MHB_HC_MISS_MISS, R.MHB_HC_ECC_REFETCH, R.MHB_BYTES_RD_BYTES, R.MHB_BYTES_WR_BYTES, R.MHB_LOFT_ECC_CE,
    R.MHB_LOFT_ECC_UE, R.MHB_LOFT_UE_ADDR_ADDR, R.MHB_LOFT_RET_HIT_HITS, R.MHB_LOFT_BYTES_BYTES, R.YOK_TX_BYTES_BYTES,
    R.YOK_MIRROR_BYTES_BYTES, R.ZLT_TX_PKTS_PKTS, R.LNK_TX_BYTES_BYTES, R.ZLT_DENY_EGRESS]

/-- The fields of the slots and arrival counters of a stall that a hub command reads and writes. -/
def slotFlds : List Fld :=
  [R.SPD_SLOT_FAULT_UNDERRUN, R.SPD_SLOT_FAULT_OVERRUN, R.SPD_SLOT_LAST_SLOT, R.SPD_SLOT_LAST_KIND, R.SPD_SLOT_LAST_TASK, R.SPD_ARR_COUNT]

/-- What any command of a stall's engine meets at its ports, and the generators of a stall. -/
def portFlds : List Fld :=
  [R.SPD_CONFLICT_CYCLES, R.SPD_CONFLICT_LAST_BANK, R.SPD_CONFLICT_LAST_ENGINE, R.SPD_CONFLICT_LAST_TASK, R.SPD_DMA_YIELD_YIELDS,
    R.SPD_SAME_ROW_EVENTS]
def genFlds : List Fld :=
  [R.GEN_STATE_BOUND, R.GEN_STATE_CONSUMER, R.GEN_STATE_SHARED, R.GEN_STATE_FROM_CTX, R.GEN_STATE_CTX, R.GEN_NEXT_NEXT, R.GEN_END_END]

/-- The fields of a scarf engine, of a CDE, and of a pen's KV manager (Tables 6.10, 8.8, 9.14). -/
def scarfFlds : List Fld :=
  [R.MHB_SCF_STATUS_PEN, R.MHB_SCF_CMDS_CMDS, R.MHB_SCF_ENTRIES_ENTRIES, R.MHB_SCF_TILES_TILES, R.MHB_SCF_ERR_OOR, R.MHB_SCF_ERR_TRIT_BAD]
def cdeFlds : List Fld :=
  [R.CDE_STATUS_PEN, R.CDE_STATUS_OP, R.CDE_CMDS_CMDS, R.CDE_BLOCKS_BLOCKS, R.CDE_RAW_RAW, R.CDE_ERR_LENGTH, R.CDE_ERR_CRC, R.CDE_ERR_INDEX,
    R.CDE_ERR_HDR, R.CDE_ERR2_POISON_IN, R.CDE_ERR2_UNAVAIL, R.CDE_ERR2_FULL, R.CDE_KV_PARITY, R.CDE_KV_ZERO_BLK, R.CDE_BYTES_IN_BYTES,
    R.CDE_BYTES_OUT_BYTES, R.CDE_LAST_ERR_CODE, R.CDE_LAST_ERR_PEN, R.CDE_LAST_ADDR_ADDR, R.MHB_UNAVAIL_COUNT, R.MHB_UNAVAIL_OVERFLOW]
def kvmFlds : List Fld :=
  [R.KVM_FREE_PAGES, R.KVM_USED_PAGES, R.KVM_LOFT_USED_PAGES, R.KVM_SPILLED_PAGES, R.KVM_PREFETCHED_PAGES, R.KVM_DROPPED_PAGES,
    R.KVM_RECOMPUTED_SPANS, R.KVM_PFX_HIT_BLOCKS, R.KVM_PFX_MISS_LOOKUPS, R.KVM_PFX_INSERT_ENTRIES, R.KVM_PFX_EVICT_EVICT,
    R.KVM_PFX_EVICT_SKIP, R.KVM_REFUSE_LOST, R.KVM_TTL_EXPIRED, R.KVM_REF_SAT_COPIES, R.KVM_RECOMP_Q_SPANS]

/-- No reclamation of a pen's pages runs or has to start (R253). -/
def Hw.noReclaim (s : Hw) (p : Nat) : Bool := !(s.pen p).kv.reclaim && (match (s.pen p).kv.cfg with
  | some c => decide (56 * c.lowG ≤ s.freePages p)
  | none => true)

/-- The page-table entries of a context lie in granules that are not retired (R206). -/
def Hw.tableAlive (s : Hw) (c : KvCfg) (x : Nat) : Bool := (List.range c.maxSpans).all fun sp => (List.range c.gKv).all fun j =>
  (granulesOf (c.pte x sp j) 4).all fun g => !(s.deadGranule g)

/-- A run of `k` steps that no fault and no refusal ends. -/
def State.SafeFor (s : State) (k : Nat) : Prop := ∃ t, Host.Core.run
  { State := State, Fault := Fault, Refusal := Refusal, step := step, reset := State.reset } k s = .next t

end Sys2Proof.Machine
end

