-- ==== Sys2Proof/WellFormed.lean ====
section
/-! DEFINITION. Which commands are well formed: the bounds that an operand's type does not state. A command that is not well
formed has a meaning too (a malformed engine command is an error the spec describes, R177); these checks say which terms
stand for something the module can meet. -/

namespace Sys2Proof

/-- The engines a stall has and the engines a hub has (Table 1.3). -/
def EngKind.ofStall : EngKind → Bool
  | .tda | .lut | .tse | .lnu | .vpu | .sampler | .dma => true
  | .cde | .scarf | .kvm => false

/-- The engine operand names an engine of its unit. -/
def Eng.wf : Eng → Bool
  | .stall _ k => k.ofStall
  | .hub _ k _ => !k.ofStall

/-- A command's descriptor is `n` bytes (Tables 4.2 to 9.14: 64 B; Tables 6.7 and 7.5: 128 B for ANP_CHECK and DMA_MOVE). -/
def cmdWf (n : Nat) (cmd : Bytes) : Bool := cmd.length == n

/-- A bit field of `w` bits. -/
def fieldWf (w v : Nat) : Bool := decide (v < 2 ^ w)

/-- The fields of TRIT_COMBINE fit the ranges that R109 and R176 give them. -/
def TritCombine.wf (f : TritCombine) : Bool :=
  decide (1 ≤ f.planes) && decide (f.planes ≤ 6) && fieldWf 6 f.tM1 && decide (1 ≤ f.n) && decide (f.n ≤ 4096) && fieldWf 3 f.inRegion && fieldWf 3 f.oRegion &&
    [f.inOff, f.planeStride, f.inStride, f.oOff, f.oStride, f.boundCyc].all (fieldWf 32)

/-- The fields of CVD_LOAD name a descriptor, a region and an offset (R129, R176). -/
def CvdLoad.wf (f : CvdLoad) : Bool := fieldWf 4 f.index && fieldWf 3 f.region && fieldWf 32 f.off

/-- A task waits only for earlier tasks of its plan, and its engine's unit is one there is (R61). -/
def taskWf (t : Task) (i : Nat) : Bool :=
  t.preds.all (fun j => decide (j < i)) && decide (t.unit < if t.eng.ofStall then 192 else 8) &&
    (match t.pos with
     | some q => decide (q < 32)
     | none => true) && t.slots.all (fieldWf 12)

/-- A row of received bytes is a packet of the transport with its 44 B of header and CRC (Table 10.5) and a payload of at most 4,096 B. -/
def rawWf (raw : Bytes) : Bool := decide (44 ≤ raw.length) && decide (raw.length ≤ 4140)

/-- A register access has 1 to 64 bytes, and its value fits them (R396). -/
def accessWf (size value : Nat) : Bool := decide (1 ≤ size) && decide (size ≤ 64) && fieldWf (8 * size) value

/-- An HDM access lies within the device's 64 MiB range and within one line (R395). -/
def hdmWf (off len : Nat) : Bool := decide (1 ≤ len) && decide (off % 64 + len ≤ 64) && decide (off + len ≤ 0x4000000)

/-- A VF is a function other than the PF (Table 2.8). -/
def HostFn.wf : HostFn → Bool
  | .vf f => f.val != 0
  | _ => true

/-- The register space of a VF names a function other than the PF (R397). -/
def Space.wf : Space → Bool
  | .vf f => f.val != 0
  | _ => true

/-- Whether a command is well formed. -/
def Instr.wf : Instr → Bool
  | .commandBoundary e | .cmdWatchdog e | .engineResetDone e | .stallHang e => e.wf
  | .pauseExpiry _ ctx => fieldWf 12 ctx
  | .swapSetDone _ places => places.addrs.all fun a => a % 4096 == 0
  | .tdaMac _ _ cmd | .lutAcc _ _ cmd | .lnuOp _ _ cmd | .genBind _ _ cmd | .tseMac _ _ cmd | .routeTopk _ _ cmd
  | .anpSelect _ _ cmd | .scarfPack _ _ _ cmd | .cdeCmd _ _ _ cmd | .ternarise _ _ cmd | .cribEmit _ _ cmd
  | .sample _ _ cmd | .kvPrefix _ _ _ cmd | .kvRq _ _ _ cmd | .zltPut _ _ cmd | .pegSync _ _ cmd => cmdWf 64 cmd
  | .anpCheck _ _ cmd | .dmaMove _ _ cmd => cmdWf 128 cmd
  | .waitArrivals _ e _ cmd => e.ofStall && cmdWf 64 cmd
  | .tritCombine _ _ f => f.wf
  | .cvdLoad _ _ f => f.wf
  | .genUnbind _ _ gen => fieldWf 3 gen
  | .remoteWriteArrival _ off w poison _ slot =>
    decide (w.bytes ≠ []) && decide (off + w.bytes.length ≤ 0x1800000) && fieldWf 2 poison && fieldWf 16 slot
  | .pegArrive _ raw _ _ | .pegRelease _ raw _ _ | .zltAckRx _ raw _ _ | .hello _ raw _ _
  | .heartbeatRx _ raw _ _ | .direct _ raw _ _ | .journal _ raw _ _ | .commit _ raw _ _ | .commitAck _ raw _ _
  | .fetchReq _ raw _ _ | .fetchDone _ raw _ _ | .fetchNak _ raw _ _ => rawWf raw
  | .zltDataRx _ raw _ _ => rawWf raw.bytes
  | .planCheckDone _ tasks => (tasks.zip (List.range tasks.length)).all fun x => taskWf x.1 x.2
  | .hdmWrite _ off bytes _ _ => hdmWf off bytes.length
  | .hdmRead _ off len _ => hdmWf off len
  | .flr f => f.wf
  | .rcFieldRead sp _ size => sp.wf && accessWf size 0
  | .lowWordRead sp addr => sp.wf && addr % 4 == 0
  | .registerWrite sp _ size value => sp.wf && accessWf size value
  | .frameStart | .subtick | .frameTailDone .. | .frameOverrun .. | .zeroFillDone .. | .detachedWaitEnd ..
  | .kvPrefetchSpan .. | .peerTimeout .. | .pegEnable .. | .pegReset .. | .pegConfigWrite .. | .zltAckTimer ..
  | .zltRetransmit .. | .rateRecovery .. | .linkCreditRx .. | .fecUncorrectable .. | .linkTrained ..
  | .linkTrainTimeout .. | .linkRetry .. | .laneFail .. | .linkRetrain .. | .linkHang .. | .routeCommit
  | .yokeCommitSend .. | .yokeTakeover .. | .yokeSolo .. | .demote .. | .trsStart | .quiesce | .quiesceClear
  | .quiesced | .trsAbort | .trussFetchDone .. | .trussVerifyDone | .trussValidateDone | .trussCommitDone
  | .penHeavyCommit | .trussScrubDone | .planStart .. | .planAbort .. | .planFetchDone .. | .planDigestDone ..
  | .rotaApply .. | .kvmApply .. | .retirePage .. | .loftRetire .. | .patrolScrub .. | .zoneSample ..
  | .ctTempSample .. | .thermalTrip .. | .tripRelease .. | .thermalCritical .. | .criticalCooldown | .sagWarn ..
  | .sagWarnRelease | .sagNSampleEnd .. | .sagReset | .ovReset | .powerEstimate .. | .powerMeasure ..
  | .powerCalibrate | .powerCapHeld | .capWrite .. | .powerClamp | .clampRelease | .powerOvercurrent
  | .droopStretch .. | .droopWindow .. | .supplyOn | .inrushDone | .supplyLoss | .deviceRelease
  | .deviceBootComplete .. | .cxlLinkTrained .. | .dieFatal .. | .fabricUe .. | .drainEnd .. | .drainTimeout ..
  | .penResetDone .. | .hostFence .. | .penResume .. | .functionDrainEnd .. | .hostReset .. | .crashCaptureDone
  | .dumpWriteDone | .dumpCopy | .dumpCopyDone | .refetchGo | .hostRefetchDone .. | .refetchTimeout ..
  | .flashLogWrite | .platformEventSend .. | .ceStorm .. | .sdgReset | .sheepdogBoot .. | .fwTrialConfirm
  | .updateIdleTimeout | .arcCommit .. | .arcFuseBurn | .keyRecordApply | .keyRecordDone .. | .getFwInfo
  | .transferFw .. | .transferFwDone | .activateFw .. | .getTimestamp | .setTimestamp .. | .getSupportedLogs
  | .getLog | .requestUpdate .. | .activateFirmware .. | .setEventReceiver .. | .effecterWrite .. | .sensorRead ..
  | .fruRead .. | .pldmFileRead .. | .mctpEidAssign .. | .getVersion .. | .getCapabilities ..
  | .negotiateAlgorithms .. | .getDigests .. | .getCertificate .. | .challenge .. | .getMeasurements ..
  | .keyExchange | .finish | .endSession | .coolantThreshold .. | .hostSnoop .. | .hostReadCompletion ..
  | .dmaWindowWrite .. | .msixUnmask .. | .perstDeassert .. | .perstAssert .. | .cxlReset ..
  | .cxlLinkDownTimeout .. | .vfEnable .. | .vfDisable .. | .d3hot | .sagNRise | .inputReleaseLevel ..
  | .kvSpillSpan .. | .bulkCopyDone .. | .debugToken .. | .cxlIdeKm .. | .dynamicAddressAssign .. => true

end Sys2Proof
end

