-- ==== Sys2Proof/Certificates/Slice0/Obligations.lean ====
section
/-! DEFINITION. The statements about the model, one definition each; OBLIGATIONS.json lists them. -/

open Sys2Proof Sys2Proof.Machine

/-- For every command c and every state, one step of the state with c at the front of its queue is exec of c on the state with the
queue's rest. -/
def Obligations.StepRunsFrontCommand : Prop :=
  ∀ (c : Instr) (rest : List Instr) (s : State),
    step { s with pending := c :: rest } = exec c { s with pending := rest }

/-- On an empty queue a step answers a next state in which one cycle of 10 ns has passed and nothing else has changed; a dark module
keeps no time and stays as it is. The idle cycle is the model's choice (log 1), not a rule of the spec. -/
def Obligations.StepIdlesOnEmptyQueue : Prop :=
  ∀ (s : State), s.pending = [] →
    step s = .next (if s.hw.mgt.phase = .dark then s else { s with hw := { s.hw with clk := { s.hw.clk with now := s.hw.clk.now + 1 } } })

/-- Every command answers a next state in every state, and leaves the queue of waiting commands as it was: a malformed command, a
command whose moment has not come, an access out of bound or to a part that is absent has the outcome the spec gives it, and the
module goes on. -/
def Obligations.EveryCommandAnswersAndKeepsQueue : Prop :=
  ∀ (c : Instr) (s : State), ∃ t, exec c s = .next t ∧ t.pending = s.pending

/-- From every state, a run of as many steps as commands wait ends in a next state whose queue is empty, and a run of any number of
steps is ended by no fault and no refusal. -/
def Obligations.RunsDrainTheQueue : Prop :=
  ∀ (s : State),
    (∃ t : State, Host.Core.run Sys2Proof.core s.pending.length s = .next t ∧ t.pending = []) ∧ ∀ k, s.SafeFor k

/-- From every state whose memories list rising addresses and no entry equal to what an unlisted one reads as, whatever command is
at the front of the queue, a step leaves them so. -/
def Obligations.StepKeepsMemoryCanonical : Prop :=
  ∀ (s t : State), s.MemOk → step s = .next t → t.MemOk

/-- After reset the memories hold their canonical form, every byte of the device and of the host reads 0 and no line carries a mark
(a byte that nothing has written reads 0: log 6), and no command waits. -/
def Obligations.ResetMemoryCanonical : Prop :=
  State.reset.MemOk ∧ (∀ a, State.reset.devByte a = 0#8) ∧ (∀ a, State.reset.hostByte a = 0#8) ∧ (∀ l, State.reset.lineMark l = 0) ∧
    State.reset.pending = []

/-- After reset the registers named read the value that the Reset column of their tables gives: the module model, sequencer and host
capabilities, the stalls' control and zero-fill status, scrub period, link, transport and peg defaults, clock target, cap,
current limit, calibration gain, lowest input voltage, interrupt mask and error threshold, and the status registers of pens,
links, engines, log and loads. -/
def Obligations.ResetRegisters : Prop :=
  State.reset.hw.get R.HIF_MODULE_ID_MODEL 0 = 0x40 ∧
  State.reset.hw.get R.FSQ_CAPS_RESIDENT 0 = 0x20 ∧
  State.reset.hw.get R.FSQ_CAPS_SLOTS 0 = 0x8 ∧
  State.reset.hw.get R.ZLT_CFG_RTO_US 0 = 0xC8 ∧
  State.reset.hw.get R.ZLT_CFG_RETRY_MAX 0 = 0x10 ∧
  State.reset.hw.get R.ZLT_TWD_TWD_US 0 = 0x3E8 ∧
  State.reset.hw.get R.PWR_STATUS_ACLK_MHZ 0 = 0x5DC ∧
  State.reset.hw.get R.PWR_CAP_CAP_W 0 = 0xC80 ∧
  State.reset.hw.get R.PWR_SAG_ILIM_ILIM_A 0 = 0x3A ∧
  State.reset.hw.get R.PWR_CAL_GAIN 0 = 0x4000 ∧
  State.reset.hw.get R.PWR_SAG_MIN_VIN 0 = 0xFFFF ∧
  State.reset.hw.get R.ERR_IRQ_MASK_CLASS_EN 0 = 0xE ∧
  State.reset.hw.get R.ERR_CE_THRESH_PER_S 0 = 0x400 ∧
  State.reset.hw.get R.HIF_CAPS_VF_MAX 0 = 0x3F ∧
  State.reset.hw.get R.HIF_CAPS_WINDOWS 0 = 0x8 ∧
  State.reset.hw.get R.TRS_STATUS_STATE 0 = 0x0 ∧
  State.reset.hw.get R.TRS_STATUS_IN_FORCE 0 = 0x0 ∧
  State.reset.hw.get R.ERR_LOG_SEQ_NEWEST 0 = 0x0 ∧
  State.reset.hw.get R.SEC_BOOT_STATUS_STATE 0 = 0x0 ∧
  (∀ n, n < 192 → State.reset.hw.get R.STL_CTRL_SKIP_EN n = 0x1) ∧
  (∀ n, n < 192 → State.reset.hw.get R.STL_CTRL_PREFETCH_EN n = 0x1) ∧
  (∀ n, n < 192 → State.reset.hw.get R.SPD_STATUS_ZEROING n = 0x1) ∧
  (∀ m, m < 8 → State.reset.hw.get R.MHB_SCRUB_CTRL_PERIOD_H m = 0x18) ∧
  (∀ l, l < 18 → State.reset.hw.get R.LNK_CTRL_SER_EXP l = 0x4) ∧
  (∀ g, g < 64 → State.reset.hw.get R.PEG_GCFG_LOCAL_N g = 0x1) ∧
  (∀ g, g < 64 → State.reset.hw.get R.PEG_GPARENT_PARENT_DEV g = 0xFFFF) ∧
  (∀ l, l < 18 → State.reset.hw.get R.LNK_STATUS_STATE l = 0x0) ∧
  (∀ p, p < 16 → State.reset.hw.get R.PEN_STATE_PRESENT p = 0x0) ∧
  (∀ p, p < 16 → State.reset.hw.get R.FSQ_STATE_SUSPENDED p = 0x0) ∧
  (∀ p, p < 16 → State.reset.hw.get R.ERR_PEN_STATE_STATE p = 0x0) ∧
  (∀ x, x < 1536 → State.reset.hw.get R.GEN_STATE_BOUND x = 0x0) ∧
  (∀ p, p < 16 → State.reset.hw.get R.KVM_FREE_PAGES p = 0x0) ∧
  (∀ m, m < 8 → State.reset.hw.get R.CDE_STATUS_PEN m = 0x0) ∧
  (∀ p, p < 16 → State.reset.hw.get R.YOK_PEN_STATE_STATE p = 0x0)

/-- For each of the 192 stalls, stall n lies on CT die n div 8, one of 24, at local index n mod 8, and its home hub is MH (n div 8)
div 3, one of 8. -/
def Obligations.StallPlace : Prop :=
  ∀ (n : StallId), dieOf n = n.val / 8 ∧ dieOf n < 24 ∧ n.val = 8 * dieOf n + n.val % 8 ∧ hubOf n = n.val / 8 / 3 ∧ hubOf n < 8

/-- Only 64 bits of a table word count. Its entry for pattern i is the number whose two's complement stands in bits [4i + 3 : 4i].
Bit j of the pattern of group q is the bit of the plane in input 4q + j, while there is such an input. -/
def Obligations.TableWords : Prop :=
  (∀ (w i : Nat), i < 16 →
      lutEntry (w % 2 ^ 64) i = lutEntry w i ∧ -8 ≤ lutEntry w i ∧ lutEntry w i < 8 ∧
      (lutEntry w i) % 16 = ((w / 2 ^ (4 * i) % 16 : Nat) : Int)) ∧
  (∀ (wid p row kMax q j : Nat), j < 4 → 4 * q + j < kMax →
      planeNibble wid p row kMax (4 * q) < 16 ∧ (planeNibble wid p row kMax (4 * q)).testBit j = row.testBit (wid * (4 * q + j) + p))

/-- A product with a zero operand is zero. Otherwise its sign is the exclusive or of the signs and its logarithm the sum of the
logarithms, wherever that lies in the LNS24 range, with no event. The product of two LNS16 operands that are not zero always
lies there, so it is exact, and so is their sum of logarithms in units of 2^-9. -/
def Obligations.LogProduct : Prop :=
  (∀ (a b : Lns), a.isZero = true ∨ b.isZero = true → a.mul b = (Lns.zero, ⟨0, 0⟩)) ∧
  (∀ (a b : Lns), a.isZero = false → b.isZero = false → lnsMin < a.l + b.l → a.l + b.l ≤ lnsMax →
      a.mul b = (⟨xor a.neg b.neg, a.l + b.l⟩, ⟨0, 0⟩)) ∧
  (∀ (v w : BitVec 16), (Lns.of16 v.toNat).isZero = false → (Lns.of16 w.toNat).isZero = false →
      (Lns.of16 v.toNat).mul (Lns.of16 w.toNat) =
        (⟨xor (v.getLsbD 15) (w.getLsbD 15), 64 * ((v.setWidth 15).toInt + (w.setWidth 15).toInt)⟩, ⟨0, 0⟩))

/-- A write of w to effecter 1 sets PWR_CAP.CAP_W to w held within 2,900 W and 3,200 W, as the host's register write does. Whichever
of the two comes last, its value is in force. A host's write sends nothing to the management pair, and an effecter write sends
nothing but its own answer; either changes no other register but what the pair counts. -/
def Obligations.EffecterAndRegisterSetCap : Prop :=
  (∀ (b : Bus) (w : Nat) (s : State),
      s.hw.hearsBus b = true →
      ∃ t, exec (.effecterWrite b 1 w) s = .next t ∧
        t.hw.get R.PWR_CAP_CAP_W 0 = min (max w 2900) 3200 ∧
        (∃ st body, t.hw.out = .msg 1 0x31 st body :: s.hw.out) ∧
        State.Frame ([R.PWR_CAP_CAP_W.key 0, R.SDG_MGMT_MODE.key 0, R.SDG_OOB_COUNTS_MCTP_RX.key 0]) s t) ∧
  (∀ (v : BitVec 12) (s : State),
      s.hw.hostUp = true →
      s.hw.get R.SEC_BOOT_STATUS_STATE 0 = 0 →
      ∃ t, exec (.registerWrite .bar0 0x15004 4 v.toNat) s = .next t ∧
        t.hw.get R.PWR_CAP_CAP_W 0 = min (max v.toNat 2900) 3200 ∧
        t.hw.out = s.hw.out ∧
        State.Frame ([R.PWR_CAP_CAP_W.key 0]) s t) ∧
  (∀ (b : Bus) (w : Nat) (v : BitVec 12) (s : State),
      s.hw.hearsBus b = true →
      s.hw.hostUp = true →
      s.hw.get R.SEC_BOOT_STATUS_STATE 0 = 0 →
      (∃ t u, exec (.effecterWrite b 1 w) s = .next t ∧ exec (.registerWrite .bar0 0x15004 4 v.toNat) t = .next u ∧
        u.hw.get R.PWR_CAP_CAP_W 0 = min (max v.toNat 2900) 3200) ∧
      ∃ t u, exec (.registerWrite .bar0 0x15004 4 v.toNat) s = .next t ∧ exec (.effecterWrite b 1 w) t = .next u ∧
        u.hw.get R.PWR_CAP_CAP_W 0 = min (max w 2900) 3200)

/-- Each command that resets the device (a supply reset of either kind, an overcurrent, a critical temperature, an uncorrectable
error or a fatal error of a die other than a CT die, a host reset, PERST_N of port 0, an FLR of the PF, a CXL reset of port 0)
leaves every entry of the page-retirement tables of the 16 stacks and of the loft's table cleared, so that the host driver must
write them again. -/
def Obligations.DeviceResetClearsRetirement : Prop :=
  (∀ (s : State),
      s.hw.diesUp = true →
      ∃ t, exec (.sagReset) s = .next t ∧
        (∀ i, i < 16 * 1024 → t.hw.get R.MHB_RET_ENTRY_VALID i = 0 ∧ t.hw.get R.MHB_RET_ENTRY_PAGE i = 0) ∧
        (∀ i, i < 4096 → t.hw.get R.MHB_LOFT_RET_ENTRY_VALID i = 0 ∧ t.hw.get R.MHB_LOFT_RET_ENTRY_GRANULE i = 0)) ∧
  (∀ (s : State),
      s.hw.diesUp = true →
      ∃ t, exec (.ovReset) s = .next t ∧
        (∀ i, i < 16 * 1024 → t.hw.get R.MHB_RET_ENTRY_VALID i = 0 ∧ t.hw.get R.MHB_RET_ENTRY_PAGE i = 0) ∧
        (∀ i, i < 4096 → t.hw.get R.MHB_LOFT_RET_ENTRY_VALID i = 0 ∧ t.hw.get R.MHB_LOFT_RET_ENTRY_GRANULE i = 0)) ∧
  (∀ (t0 : Nat) (s : State),
      s.hw.diesUp = true →
      s.hw.is R.PWR_STATUS_CLAMP = true →
      s.hw.mgt.pwr.clampAt = some t0 →
      ∃ t, exec (.powerOvercurrent) s = .next t ∧
        (∀ i, i < 16 * 1024 → t.hw.get R.MHB_RET_ENTRY_VALID i = 0 ∧ t.hw.get R.MHB_RET_ENTRY_PAGE i = 0) ∧
        (∀ i, i < 4096 → t.hw.get R.MHB_LOFT_RET_ENTRY_VALID i = 0 ∧ t.hw.get R.MHB_LOFT_RET_ENTRY_GRANULE i = 0)) ∧
  (∀ (u : ThermUnit) (s : State),
      s.hw.diesUp = true →
      ∃ t, exec (.thermalCritical u) s = .next t ∧
        (∀ i, i < 16 * 1024 → t.hw.get R.MHB_RET_ENTRY_VALID i = 0 ∧ t.hw.get R.MHB_RET_ENTRY_PAGE i = 0) ∧
        (∀ i, i < 4096 → t.hw.get R.MHB_LOFT_RET_ENTRY_VALID i = 0 ∧ t.hw.get R.MHB_LOFT_RET_ENTRY_GRANULE i = 0)) ∧
  (∀ (d : Fin 40) (s : State),
      s.hw.diesUp = true →
      24 ≤ d.val →
      ∃ t, exec (.fabricUe d) s = .next t ∧
        (∀ i, i < 16 * 1024 → t.hw.get R.MHB_RET_ENTRY_VALID i = 0 ∧ t.hw.get R.MHB_RET_ENTRY_PAGE i = 0) ∧
        (∀ i, i < 4096 → t.hw.get R.MHB_LOFT_RET_ENTRY_VALID i = 0 ∧ t.hw.get R.MHB_LOFT_RET_ENTRY_GRANULE i = 0)) ∧
  (∀ (d : Fin 40) (s : State),
      s.hw.diesUp = true →
      24 ≤ d.val →
      d.val < 39 →
      ∃ t, exec (.dieFatal d) s = .next t ∧
        (∀ i, i < 16 * 1024 → t.hw.get R.MHB_RET_ENTRY_VALID i = 0 ∧ t.hw.get R.MHB_RET_ENTRY_PAGE i = 0) ∧
        (∀ i, i < 4096 → t.hw.get R.MHB_LOFT_RET_ENTRY_VALID i = 0 ∧ t.hw.get R.MHB_LOFT_RET_ENTRY_GRANULE i = 0)) ∧
  (∀ (n : Bool) (s : State),
      s.hw.hostUp = true →
      ∃ t, exec (.hostReset n) s = .next t ∧
        (∀ i, i < 16 * 1024 → t.hw.get R.MHB_RET_ENTRY_VALID i = 0 ∧ t.hw.get R.MHB_RET_ENTRY_PAGE i = 0) ∧
        (∀ i, i < 4096 → t.hw.get R.MHB_LOFT_RET_ENTRY_VALID i = 0 ∧ t.hw.get R.MHB_LOFT_RET_ENTRY_GRANULE i = 0)) ∧
  (∀ (s : State),
      s.hw.diesUp = true →
      s.hw.dev.ports.contains 0 = true →
      ∃ t, exec (.perstAssert 0) s = .next t ∧
        (∀ i, i < 16 * 1024 → t.hw.get R.MHB_RET_ENTRY_VALID i = 0 ∧ t.hw.get R.MHB_RET_ENTRY_PAGE i = 0) ∧
        (∀ i, i < 4096 → t.hw.get R.MHB_LOFT_RET_ENTRY_VALID i = 0 ∧ t.hw.get R.MHB_LOFT_RET_ENTRY_GRANULE i = 0)) ∧
  (∀ (s : State),
      s.hw.portUp 0 = true →
      ∃ t, exec (.flr .pf) s = .next t ∧
        (∀ i, i < 16 * 1024 → t.hw.get R.MHB_RET_ENTRY_VALID i = 0 ∧ t.hw.get R.MHB_RET_ENTRY_PAGE i = 0) ∧
        (∀ i, i < 4096 → t.hw.get R.MHB_LOFT_RET_ENTRY_VALID i = 0 ∧ t.hw.get R.MHB_LOFT_RET_ENTRY_GRANULE i = 0)) ∧
  (∀ (s : State),
      s.hw.portUp 0 = true →
      ∃ t, exec (.cxlReset 0) s = .next t ∧
        (∀ i, i < 16 * 1024 → t.hw.get R.MHB_RET_ENTRY_VALID i = 0 ∧ t.hw.get R.MHB_RET_ENTRY_PAGE i = 0) ∧
        (∀ i, i < 4096 → t.hw.get R.MHB_LOFT_RET_ENTRY_VALID i = 0 ∧ t.hw.get R.MHB_LOFT_RET_ENTRY_GRANULE i = 0))

/-- Of the codes of Table 0.4 that apply to one entry beside OK, the one written is among them and has the lowest precedence number
of Table 0.4; a code whose result is valid is written only when every code that applies has a valid result. -/
def Obligations.CribCodePrecedence : Prop :=
  (∀ x ∈ [(0x32, 1), (0x31, 2), (0x30, 3), (0x21, 4), (0x20, 5), (0x41, 6), (0x13, 7), (0x12, 8), (0x11, 9), (0x10, 10), (0x40, 11),
      (0x42, 12), (0x01, 13), (0x00, 14)], cribPrec x.1 = x.2) ∧
  (∀ (cs : List Nat), (∀ c ∈ cs, cribPrec c ≤ 14) →
      cribCode cs ∈ 0 :: cs ∧ (∀ c ∈ 0 :: cs, cribPrec (cribCode cs) ≤ cribPrec c) ∧
      (cribValid (cribCode cs) = true → ∀ c ∈ cs, cribValid c = true))

/-- Every TDA_MAC that starts without block scales and outlier slots, signed or not, of any width from 1 to 16 bits, any number of
rows and tokens, and whether zero planes are skipped or not, adds to each accumulator of its bank the exact dot product of the
token's activation values and the column's trits, as integers, and saturates that one sum to 32 bits; the bank starts from zeros
under ACC_OP 0 and 3. A raw output under ACC_OP 2 and 3 holds the same numbers as 32-bit words. -/
def Obligations.DenseArrayExactProducts : Prop :=
  (∀ (n : StallId) (i : Issue) (cmd : Bytes) (s : State) (c : Cx) (u : Nat) (col : Nat),
      s.hw.cx n 0 i = some c →
      (TdaMac.of cmd).bad s.hw n cmd = false →
      s.hw.extFault c ((TdaMac.of cmd).wExt :: ((TdaMac.of cmd).aExts ++ (TdaMac.of cmd).xExts ++ (TdaMac.of cmd).ospExts) ++ (TdaMac.of cmd).outs s.hw n) = {} →
      s.hw.bankGate c (TdaMac.of cmd).bank (TdaMac.of cmd).op = .go →
      (writesOut (TdaMac.of cmd).op = true → (s.hw.fmtGen n (TdaMac.of cmd).fmt).all (fun g => s.hw.genOk n g 0) = true) →
      (TdaMac.of cmd).bsc = false →
      (TdaMac.of cmd).osp = false →
      (TdaMac.of cmd).op < 2 →
      u < (TdaMac.of cmd).t →
      col < 256 →
      ∃ t, exec (.tdaMac n i cmd) s = .next t ∧
        Tbl.get 0 (256 * u + col) (t.hw.bank n (TdaMac.of cmd).bank).acc =
        (saturate 32 (Tbl.get 0 (256 * u + col) (s.hw.openBank c (TdaMac.of cmd).bank (TdaMac.of cmd).op).acc + s.dotAt (s.hw.extAddr n 0 c.tk (TdaMac.of cmd).wExt) (s.hw.extAddr n 0 c.tk ⟨(TdaMac.of cmd).aReg, (TdaMac.of cmd).aOff + u * (TdaMac.of cmd).aStr, 0⟩) (TdaMac.of cmd).rows (TdaMac.of cmd).wid (TdaMac.of cmd).sgn col)).1) ∧
  (∀ (n : StallId) (i : Issue) (cmd : Bytes) (s : State) (c : Cx) (u : Nat) (col : Nat),
      s.hw.cx n 0 i = some c →
      (TdaMac.of cmd).bad s.hw n cmd = false →
      s.hw.extFault c ((TdaMac.of cmd).wExt :: ((TdaMac.of cmd).aExts ++ (TdaMac.of cmd).xExts ++ (TdaMac.of cmd).ospExts) ++ (TdaMac.of cmd).outs s.hw n) = {} →
      s.hw.bankGate c (TdaMac.of cmd).bank (TdaMac.of cmd).op = .go →
      (writesOut (TdaMac.of cmd).op = true → (s.hw.fmtGen n (TdaMac.of cmd).fmt).all (fun g => s.hw.genOk n g 0) = true) →
      (TdaMac.of cmd).bsc = false →
      (TdaMac.of cmd).osp = false →
      2 ≤ (TdaMac.of cmd).op →
      (TdaMac.of cmd).fmt = 0 →
      1024 ≤ (TdaMac.of cmd).oStr →
      u < (TdaMac.of cmd).t →
      col < 256 →
      ∃ t, exec (.tdaMac n i cmd) s = .next t ∧
        t.leAt ((s.hw.extAddr n 0 c.tk ⟨(TdaMac.of cmd).oReg, (TdaMac.of cmd).oOff + u * (TdaMac.of cmd).oStr, 0⟩) + 4 * col) 4 =
        unsigned 32 (saturate 32 (Tbl.get 0 (256 * u + col) (s.hw.openBank c (TdaMac.of cmd).bank (TdaMac.of cmd).op).acc + s.dotAt (s.hw.extAddr n 0 c.tk (TdaMac.of cmd).wExt) (s.hw.extAddr n 0 c.tk ⟨(TdaMac.of cmd).aReg, (TdaMac.of cmd).aOff + u * (TdaMac.of cmd).aStr, 0⟩) (TdaMac.of cmd).rows (TdaMac.of cmd).wid (TdaMac.of cmd).sgn col)).1 ∧
        (t.hw.bank n (TdaMac.of cmd).bank).owner = none)

/-- A command of the dense array, the table path, the sparse engine or the predictor check that is well formed, in bound, has its
bank and its generator runs to its end: it is counted, its chain owns the bank until ACC_OP 2 or 3 (or the end of ANP_CHECK)
frees it, its output slot is FULL with the next generation tag, no byte of memory outside its output extents changes, and no
register outside its engine's does. -/
def Obligations.ArrayCommandFrames : Prop :=
  (∀ (n : StallId) (i : Issue) (cmd : Bytes) (s : State) (c : Cx),
      s.hw.cx n 0 i = some c →
      (TdaMac.of cmd).bad s.hw n cmd = false →
      s.hw.extFault c ((TdaMac.of cmd).wExt :: ((TdaMac.of cmd).aExts ++ (TdaMac.of cmd).xExts ++ (TdaMac.of cmd).ospExts) ++ (TdaMac.of cmd).outs s.hw n) = {} →
      s.hw.bankGate c (TdaMac.of cmd).bank (TdaMac.of cmd).op = .go →
      (writesOut (TdaMac.of cmd).op = true → (s.hw.fmtGen n (TdaMac.of cmd).fmt).all (fun g => s.hw.genOk n g 0) = true) →
      ∃ t, exec (.tdaMac n i cmd) s = .next t ∧
        t.hw.get R.STL_TDA_CMDS_CMDS n = min (s.hw.get R.STL_TDA_CMDS_CMDS n + 1) (2 ^ 32 - 1) ∧
        (t.hw.bank n (TdaMac.of cmd).bank).owner = (if writesOut (TdaMac.of cmd).op = true then none else some (c.frame, c.task)) ∧
        (writesOut (TdaMac.of cmd).op = true → Hw.slotWritten s.hw t.hw n (TdaMac.of cmd).slotO) ∧
        State.BytesBut (fun a => s.hw.inExts n 0 c.tk ((TdaMac.of cmd).outs s.hw n) a = true) s t ∧
        t.pending = s.pending ∧
        Hw.RegsBut (cmdKeys n ++ outKeys n c.p ++ chainKeys n ++ prefetchKeys n ++
        [R.STL_TDA_CMDS_CMDS.key n, R.STL_TDA_CYCLES_CYCLES.key n, R.STL_TDA_SLOTS_RUN_RUN.key n, R.STL_TDA_SLOTS_SKIP_SKIP.key n, R.STL_TDA_GATED_GATED.key n]) s.hw t.hw) ∧
  (∀ (n : StallId) (i : Issue) (cmd : Bytes) (s : State) (c : Cx),
      s.hw.cx n 1 i = some c →
      (LutAcc.of cmd).bad s.hw n cmd = false →
      s.hw.extFault c ((LutAcc.of cmd).tExt :: (LutAcc.of cmd).aExts ++ (LutAcc.of cmd).outs s.hw n) = {} →
      s.hw.bankGate c (LutAcc.of cmd).bank (LutAcc.of cmd).op = .go →
      (writesOut (LutAcc.of cmd).op = true → (s.hw.fmtGen n (LutAcc.of cmd).fmt).all (fun g => s.hw.genOk n g 1) = true) →
      ∃ t, exec (.lutAcc n i cmd) s = .next t ∧
        t.hw.get R.STL_LUT_CMDS_CMDS n = min (s.hw.get R.STL_LUT_CMDS_CMDS n + 1) (2 ^ 32 - 1) ∧
        t.hw.get R.STL_LUT_CYCLES_CYCLES n = min (s.hw.get R.STL_LUT_CYCLES_CYCLES n + (LutAcc.of cmd).cMax) (2 ^ 64 - 1) ∧
        (t.hw.bank n (LutAcc.of cmd).bank).owner = (if writesOut (LutAcc.of cmd).op = true then none else some (c.frame, c.task)) ∧
        (writesOut (LutAcc.of cmd).op = true → Hw.slotWritten s.hw t.hw n (LutAcc.of cmd).slotO) ∧
        State.BytesBut (fun a => s.hw.inExts n 1 c.tk ((LutAcc.of cmd).outs s.hw n) a = true) s t ∧
        t.pending = s.pending ∧
        Hw.RegsBut (cmdKeys n ++ outKeys n c.p ++ chainKeys n ++
        [R.STL_LUT_CMDS_CMDS.key n, R.STL_LUT_CYCLES_CYCLES.key n, R.STL_BAD_LUT_BAD.key n, R.STL_SAT_LUT_SAT.key n]) s.hw t.hw) ∧
  (∀ (n : StallId) (i : Issue) (cmd : Bytes) (s : State) (c : Cx),
      s.hw.cx n 2 i = some c →
      (TseMac.of cmd).bad s.hw n cmd = false →
      s.hw.extFault c ((TseMac.of cmd).hdr :: (Run.tileExts { hw := s.hw, mem := s.mem } c (TseMac.of cmd) ++ (TseMac.of cmd).aExts ++ (TseMac.of cmd).sideExts) ++ (TseMac.of cmd).outs s.hw n) = {} →
      s.hw.bankGate c (TseMac.of cmd).bank (TseMac.of cmd).op = .go →
      (writesOut (TseMac.of cmd).op = true → (s.hw.fmtGen n (TseMac.of cmd).fmt).all (fun g => s.hw.genOk n g 2) = true) →
      ∃ t, exec (.tseMac n i cmd) s = .next t ∧
        t.hw.get R.STL_TSE_CMDS_CMDS n = min (s.hw.get R.STL_TSE_CMDS_CMDS n + 1) (2 ^ 32 - 1) ∧
        (t.hw.bank n (TseMac.of cmd).bank).owner = (if writesOut (TseMac.of cmd).op = true then none else some (c.frame, c.task)) ∧
        (writesOut (TseMac.of cmd).op = true → Hw.slotWritten s.hw t.hw n (TseMac.of cmd).slotO) ∧
        State.BytesBut (fun a => s.hw.inExts n 2 c.tk ((TseMac.of cmd).outs s.hw n) a = true) s t ∧
        t.pending = s.pending ∧
        Hw.RegsBut (cmdKeys n ++ outKeys n c.p ++ chainKeys n ++
        [R.STL_TSE_CMDS_CMDS.key n, R.STL_TSE_BLOCKS_BLOCKS.key n, R.STL_TSE_PAIRS_RUN_RUN.key n, R.STL_TSE_PAIRS_SKIP_SKIP.key n,
          R.STL_SPARSE_OOR.key n, R.STL_SPARSE_HDR.key n]) s.hw t.hw) ∧
  (∀ (n : StallId) (i : Issue) (cmd : Bytes) (s : State) (c : Cx) (outs : List Ext),
      s.hw.cx n 0 i = some c →
      (AnpCheck.of cmd).bad cmd = false →
      outs = (AnpCheck.of cmd).outs (min (s.leAt (s.hw.extAddr n 0 c.tk (AnpCheck.of cmd).list + 0x200) 2) (AnpCheck.of cmd).ng) →
      s.hw.extFault c ((AnpCheck.of cmd).ins ++ outs) = {} →
      s.hw.bankGate c (AnpCheck.of cmd).bank 3 = .go →
      ∃ t, exec (.anpCheck n i cmd) s = .next t ∧
        t.hw.bank n (AnpCheck.of cmd).bank = {} ∧
        Hw.slotWritten s.hw t.hw n (AnpCheck.of cmd).slotO ∧
        State.BytesBut (fun a => s.hw.inExts n 0 c.tk (outs) a = true) s t ∧
        t.pending = s.pending ∧
        (t.leAt (s.hw.extAddr n 0 c.tk (AnpCheck.of cmd).list + 0x200) 2 =
        min (s.leAt (s.hw.extAddr n 0 c.tk (AnpCheck.of cmd).list + 0x200) 2) (AnpCheck.of cmd).ng + t.leAt (s.hw.extAddr n 0 c.tk (AnpCheck.of cmd).list + 0x204) 2 ∧ t.leAt (s.hw.extAddr n 0 c.tk (AnpCheck.of cmd).list + 0x204) 2 ≤ 64) ∧
        Hw.RegsBut (cmdKeys n ++ outKeys n c.p ++ chainKeys n ++ prefetchKeys n ++
        [R.STL_SPARSE_OOR.key n, R.STL_ANP_MISS_CAUGHT.key n, R.STL_ANP_MISS_LOST.key n, R.STL_ANP_FLAG_FLAG.key n]) s.hw t.hw)

/-- A well-formed TRIT_COMBINE with raw outputs writes, for each token and column, the integer that starts at the highest plane's
value and at each lower plane becomes three times itself plus that plane's value, saturated to 32 bits once a step (one
saturation per step is the model's reading, log 18); it writes nothing else and its output slot is FULL. -/
def Obligations.TritPlaneRecombination : Prop :=
  (∀ (n : StallId) (i : Issue) (f : TritCombine) (s : State) (c : Cx) (u : Nat) (col : Nat),
      s.hw.cx n 4 i = some c →
      combineBad f s.hw n = false →
      s.hw.extFault c (((List.range f.planes).flatMap fun j => rowExts f.inRegion (f.inOff + j * f.planeStride) f.inStride (f.tM1 + 1) (4 * f.n)) ++
        s.hw.outExts n f.outFmt f.oRegion f.oOff f.oStride (f.tM1 + 1) f.n) = {} →
      f.outFmt = 0 →
      (f.tM1 = 0 ∨ 4 * f.n ≤ f.oStride) →
      u ≤ f.tM1 →
      col < f.n →
      ∃ t, exec (.tritCombine n i f) s = .next t ∧
        t.leAt (s.hw.extAddr n 4 c.tk ⟨f.oRegion, f.oOff + u * f.oStride, 0⟩ + 4 * col) 4 =
        unsigned 32 (((List.range (f.planes - 1)).reverse).foldl
          (fun acc j => (saturate 32 (3 * acc + signed 32 (s.leAt (s.hw.extAddr n 4 c.tk ⟨f.inRegion, f.inOff + j * f.planeStride + u * f.inStride, 0⟩ + 4 * col) 4))).1)
          (let j := f.planes - 1; signed 32 (s.leAt (s.hw.extAddr n 4 c.tk ⟨f.inRegion, f.inOff + j * f.planeStride + u * f.inStride, 0⟩ + 4 * col) 4))) ∧
        Hw.slotWritten s.hw t.hw n f.slotOut ∧
        State.BytesBut (fun a => s.hw.inExts n 4 c.tk (s.hw.outExts n f.outFmt f.oRegion f.oOff f.oStride (f.tM1 + 1) f.n) a = true) s t ∧
        t.pending = s.pending ∧
        Hw.RegsBut (cmdKeys n ++ outKeys n c.p ++ [R.STL_SAT2_COMBINE_SAT.key n]) s.hw t.hw) ∧
  (∀ (n : StallId) (i : Issue) (f : TritCombine) (s : State) (c : Cx),
      s.hw.cx n 4 i = some c →
      combineBad f s.hw n = false →
      (s.hw.fmtGen n f.outFmt).all (fun g => s.hw.genOk n g 4) = true →
      s.hw.extFault c (((List.range f.planes).flatMap fun j => rowExts f.inRegion (f.inOff + j * f.planeStride) f.inStride (f.tM1 + 1) (4 * f.n)) ++
        s.hw.outExts n f.outFmt f.oRegion f.oOff f.oStride (f.tM1 + 1) f.n) = {} →
      ∃ t, exec (.tritCombine n i f) s = .next t ∧
        Hw.slotWritten s.hw t.hw n f.slotOut ∧
        State.BytesBut (fun a => s.hw.inExts n 4 c.tk (s.hw.outExts n f.outFmt f.oRegion f.oOff f.oStride (f.tM1 + 1) f.n) a = true) s t ∧
        t.pending = s.pending ∧
        Hw.RegsBut (cmdKeys n ++ outKeys n c.p ++ [R.STL_SAT2_COMBINE_SAT.key n]) s.hw t.hw)

/-- Well formed, in bound and with their generator, these commands run to their end: LNU_OP is counted and writes its rows;
ROUTE_TOPK writes its 34,816 bytes of records and lists; ANP_SELECT puts into the list the neurons whose score reaches the
threshold for some token, at most MAX_ACTIVE of them, and counts the rest as demoted; TERNARISE writes for each five latent
values the quintet byte of their trits, none of them reserved. Each output slot is FULL with the next tag, and nothing outside
the outputs and the engine's registers changes. -/
def Obligations.VectorAndRoutingCommands : Prop :=
  (∀ (n : StallId) (i : Issue) (cmd : Bytes) (s : State) (c : Cx),
      s.hw.cx n 3 i = some c →
      (LnuOp.of cmd).bad s.hw n cmd = false →
      (s.hw.fmtGen n (LnuOp.of cmd).fmt).all (fun g => s.hw.genOk n g 3) = true →
      s.hw.extFault c (((LnuOp.of cmd).aExts ++ (LnuOp.of cmd).bExts ++ (if (LnuOp.of cmd).func = 0 ∧ (LnuOp.of cmd).accIn = true then rowExts (LnuOp.of cmd).oReg (LnuOp.of cmd).oOff (LnuOp.of cmd).oStr (LnuOp.of cmd).t (4 * (LnuOp.of cmd).c) else [])) ++ s.hw.outExts n (LnuOp.of cmd).fmt (LnuOp.of cmd).oReg (LnuOp.of cmd).oOff (LnuOp.of cmd).oStr (LnuOp.of cmd).t (LnuOp.of cmd).outCols) = {} →
      ∃ t, exec (.lnuOp n i cmd) s = .next t ∧
        t.hw.get R.STL_LNU_CMDS_CMDS n = min (s.hw.get R.STL_LNU_CMDS_CMDS n + 1) (2 ^ 32 - 1) ∧
        Hw.slotWritten s.hw t.hw n (LnuOp.of cmd).slotO ∧
        State.BytesBut (fun a => s.hw.inExts n 3 c.tk (s.hw.outExts n (LnuOp.of cmd).fmt (LnuOp.of cmd).oReg (LnuOp.of cmd).oOff (LnuOp.of cmd).oStr (LnuOp.of cmd).t (LnuOp.of cmd).outCols) a = true) s t ∧
        t.pending = s.pending ∧
        Hw.RegsBut (cmdKeys n ++ outKeys n c.p ++ [R.STL_LNU_CMDS_CMDS.key n]) s.hw t.hw) ∧
  (∀ (n : StallId) (i : Issue) (cmd : Bytes) (s : State) (c : Cx),
      s.hw.cx n 4 i = some c →
      (RouteTopk.of cmd).bad cmd = false →
      s.hw.extFault c (rowExts (RouteTopk.of cmd).sReg (RouteTopk.of cmd).sOff (RouteTopk.of cmd).sStr (RouteTopk.of cmd).t (4 * (RouteTopk.of cmd).e) ++ [⟨(RouteTopk.of cmd).lReg, (RouteTopk.of cmd).lOff, 34816⟩]) = {} →
      ∃ t, exec (.routeTopk n i cmd) s = .next t ∧
        Hw.slotWritten s.hw t.hw n (RouteTopk.of cmd).slotL ∧
        State.BytesBut (fun a => s.hw.inExts n 4 c.tk ([⟨(RouteTopk.of cmd).lReg, (RouteTopk.of cmd).lOff, 34816⟩]) a = true) s t ∧
        t.pending = s.pending ∧
        Hw.RegsBut (cmdKeys n ++ [R.STL_ROUTE_ROUTE_DROP.key n, R.STL_LNS_EVT_LNS_SAT.key n, R.STL_LNS_EVT_LNS_UFL.key n, R.STL_RANGE_ALARM_ALARM.key n, R.STL_ALARM_FRAME_FRAME.key n]) s.hw t.hw) ∧
  (∀ (n : StallId) (i : Issue) (cmd : Bytes) (s : State) (c : Cx) (tk : Nat) (ng : Nat) (mx : Nat),
      s.hw.cx n 4 i = some c →
      cmd.length = 64 →
      zeroAt cmd 1 1 = true →
      zeroAt cmd 3 1 = true →
      zeroAt cmd 0xA 2 = true →
      zeroAt cmd 0x24 28 = true →
      tk = fld cmd 2 1 + 1 →
      tk ≤ 64 →
      ng = fld cmd 4 2 →
      0 < ng →
      ng ≤ 4096 →
      mx = fld cmd 6 2 →
      mx ≤ ng →
      fld cmd 8 1 ≤ 7 →
      fld cmd 9 1 ≤ 7 →
      fld cmd 0xC 4 % 64 = 0 →
      fld cmd 0x10 4 % 64 = 0 →
      4 * ng ≤ fld cmd 0x10 4 →
      fld cmd 0x14 4 % 64 = 0 →
      fld cmd 0x1C 4 ≤ 52000 →
      16 + cdiv (tk * ng) 256 + cdiv ng 128 ≤ fld cmd 0x1C 4 →
      s.hw.extFault c (rowExts (fld cmd 8 1) (fld cmd 0xC 4) (fld cmd 0x10 4) tk (4 * ng) ++ [⟨fld cmd 9 1, fld cmd 0x14 4, 8768⟩]) = {} →
      let k := ((List.range ng).filter fun j => (List.range tk).any fun u => decide (signed 32 (fld cmd 0x18 4) ≤
            signed 32 (s.leAt (s.hw.extAddr n 4 c.tk ⟨fld cmd 8 1, fld cmd 0xC 4 + u * fld cmd 0x10 4, 0⟩ + 4 * j) 4))).length
      ∃ t, exec (.anpSelect n i cmd) s = .next t ∧
        t.leAt (s.hw.extAddr n 4 c.tk ⟨fld cmd 9 1, fld cmd 0x14 4, 0⟩ + 0x200) 2 = min mx k ∧
        t.hw.get R.STL_ANP_MISC_DEMOTED n = min (s.hw.get R.STL_ANP_MISC_DEMOTED n + (k - mx)) 65535 ∧
        Hw.slotWritten s.hw t.hw n (fld cmd 0x22 2) ∧
        State.BytesBut (fun a => s.hw.inExts n 4 c.tk ([⟨fld cmd 9 1, fld cmd 0x14 4, 8768⟩]) a = true) s t ∧
        t.pending = s.pending ∧
        Hw.RegsBut (cmdKeys n ++ [R.STL_ANP_MISC_DEMOTED.key n]) s.hw t.hw) ∧
  (∀ (n : StallId) (i : Issue) (cmd : Bytes) (s : State) (c : Cx) (j : Nat) (d : Nat),
      s.hw.cx n 4 i = some c →
      ternariseBad cmd = false →
      s.hw.extFault c [⟨fld cmd 2 1, fld cmd 8 4, 10 * fld cmd 4 4⟩, ⟨fld cmd 3 1, fld cmd 0xC 4, fld cmd 4 4⟩] = {} →
      j < fld cmd 4 4 →
      d < 5 →
      let o := s.hw.extAddr n 4 c.tk ⟨fld cmd 3 1, fld cmd 0xC 4, 0⟩
      ∃ t, exec (.ternarise n i cmd) s = .next t ∧
        (t.devByte (o + j)).toNat < 243 ∧
        (((t.devByte (o + j)).toNat / 3 ^ d % 3 : Nat) : Int) - 1 =
        latentTrit (Lns.of16 (fld cmd 0x10 2)) (Lns.of16 (s.leAt (s.hw.extAddr n 4 c.tk ⟨fld cmd 2 1, fld cmd 8 4, 0⟩ + 2 * (5 * j + d)) 2)) ∧
        Hw.slotWritten s.hw t.hw n (fld cmd 0x1A 2) ∧
        State.BytesBut (fun a => s.hw.inExts n 4 c.tk ([⟨fld cmd 3 1, fld cmd 0xC 4, fld cmd 4 4⟩]) a = true) s t ∧
        t.pending = s.pending ∧
        Hw.RegsBut (cmdKeys n) s.hw t.hw)

/-- A CVD_LOAD with an index of 0 to 15 and a region of 0 to 7 that is in bound completes: its 32 bytes are the descriptor of its
index, or where they break R129 the index is invalid and the command counts as malformed. One with another index or region is
malformed: counted, and nothing is loaded. No byte of memory changes. -/
def Obligations.DescriptorLoad : Prop :=
  (∀ (n : StallId) (i : Issue) (f : CvdLoad) (s : State) (c : Cx),
      s.hw.cx n 4 i = some c →
      f.index ≤ 15 →
      f.region ≤ 7 →
      s.hw.extFault c [⟨f.region, f.off, 32⟩] = {} →
      let b := (List.range 32).map fun j => s.devByte (s.hw.extAddr n 4 c.tk ⟨f.region, f.off, 0⟩ + j)
      ∃ t, exec (.cvdLoad n i f) s = .next t ∧
        Tbl.find? f.index (t.hw.stl n).cvd = (if cvdBad b = true then none else some b) ∧
        t.hw.get R.STL_LNU_FAULT_MALFORMED n = (if cvdBad b = true then min (s.hw.get R.STL_LNU_FAULT_MALFORMED n + 1) 65535 else s.hw.get R.STL_LNU_FAULT_MALFORMED n) ∧
        State.BytesBut (fun _ => False) s t ∧
        t.pending = s.pending ∧
        Hw.RegsBut (cmdKeys n ++ [R.STL_CVD_VALID_VALID.key n, R.STL_LNU_FAULT_MALFORMED.key n]) s.hw t.hw) ∧
  (∀ (n : StallId) (i : Issue) (f : CvdLoad) (s : State) (c : Cx),
      s.hw.cx n 4 i = some c →
      (15 < f.index ∨ 7 < f.region) →
      ∃ t, exec (.cvdLoad n i f) s = .next t ∧
        t.hw.get R.STL_LNU_FAULT_MALFORMED n = min (s.hw.get R.STL_LNU_FAULT_MALFORMED n + 1) 65535 ∧
        (t.hw.stl n).cvd = (s.hw.stl n).cvd ∧
        State.BytesBut (fun _ => False) s t ∧
        t.pending = s.pending ∧
        Hw.RegsBut (cmdKeys n ++ [R.STL_LNU_FAULT_MALFORMED.key n]) s.hw t.hw)

/-- A GEN_BIND that is well formed and in bound completes. Where nothing clashes and the ledger has room, the generator is bound for
its consumer with the key it reads, from its own first counter or that of its context's record, and its range is entered in the
pen's ledger, whether or not the generator was bound before. A clash is counted as an alias, a full ledger as such, and either
leaves the generator unbound. A binding that was made from a context's record goes back there first, and a new one from the same
context goes on where it stood. A malformed GEN_BIND is counted and binds nothing. -/
def Obligations.GeneratorBinding : Prop :=
  (∀ (n : StallId) (i : Issue) (cmd : Bytes) (s : State) (c : Cx) (g : Nat) (lo : Nat),
      s.hw.cx n 4 i = some c →
      fld cmd 1 1 = g →
      (∀ b, Tbl.find? g (s.hw.stl n).gens = some b → b.fromCtx = false) →
      lo = (if bit (fld cmd 3 1) 1 = true then Run.recGet { hw := s.hw, mem := s.mem } c.p (fld cmd 4 2) 0x28 8 else fld cmd 0x10 8) →
      genBindBad cmd lo = false →
      s.hw.extFault c [⟨fld cmd 6 1, fld cmd 8 4, 16⟩] = {} →
      (s.hw.pen c.p).ledger.length < 2048 →
      (s.hw.pen c.p).ledger.any (ledgerClash ((List.range 16).map fun j => s.devByte (s.hw.extAddr n 4 c.tk ⟨fld cmd 6 1, fld cmd 8 4, 0⟩ + j)) lo (lo + fld cmd 0xC 4) (bit (fld cmd 3 1) 0)) = false →
      let k := ((List.range 16).map fun j => s.devByte (s.hw.extAddr n 4 c.tk ⟨fld cmd 6 1, fld cmd 8 4, 0⟩ + j))
      ∃ t, exec (.genBind n i cmd) s = .next t ∧
        Tbl.find? g (t.hw.stl n).gens =
        some ⟨fld cmd 2 1, bit (fld cmd 3 1) 0, bit (fld cmd 3 1) 1, fld cmd 4 2, k, lo, lo + fld cmd 0xC 4, c.frame, c.task⟩ ∧
        t.hw.get R.GEN_STATE_BOUND (n * 8 + g) = 1 ∧
        t.hw.get R.GEN_STATE_CONSUMER (n * 8 + g) = fld cmd 2 1 ∧
        t.hw.get R.GEN_NEXT_NEXT (n * 8 + g) = lo % 2 ^ 64 ∧
        (t.hw.pen c.p).ledger = (k, lo, lo + fld cmd 0xC 4, bit (fld cmd 3 1) 0) :: (s.hw.pen c.p).ledger ∧
        t.hw.get R.GEN_LEDGER_USED c.p = (s.hw.pen c.p).ledger.length + 1 ∧
        State.BytesBut (fun _ => False) s t ∧
        t.pending = s.pending ∧
        Hw.RegsBut (cmdKeys n ++ genKeys n ++ [R.GEN_LEDGER_USED.key c.p, R.GEN_LEDGER_PEAK.key c.p]) s.hw t.hw) ∧
  (∀ (n : StallId) (i : Issue) (cmd : Bytes) (s : State) (c : Cx) (g : Nat) (lo : Nat),
      s.hw.cx n 4 i = some c →
      fld cmd 1 1 = g →
      (∀ b, Tbl.find? g (s.hw.stl n).gens = some b → b.fromCtx = false) →
      lo = (if bit (fld cmd 3 1) 1 = true then Run.recGet { hw := s.hw, mem := s.mem } c.p (fld cmd 4 2) 0x28 8 else fld cmd 0x10 8) →
      genBindBad cmd lo = false →
      s.hw.extFault c [⟨fld cmd 6 1, fld cmd 8 4, 16⟩] = {} →
      (s.hw.pen c.p).ledger.any (ledgerClash ((List.range 16).map fun j => s.devByte (s.hw.extAddr n 4 c.tk ⟨fld cmd 6 1, fld cmd 8 4, 0⟩ + j)) lo (lo + fld cmd 0xC 4) (bit (fld cmd 3 1) 0)) = true →
      ∃ t, exec (.genBind n i cmd) s = .next t ∧
        Tbl.find? g (t.hw.stl n).gens = none ∧
        t.hw.get R.GEN_ALIAS_COUNT_ALIAS c.p = min (s.hw.get R.GEN_ALIAS_COUNT_ALIAS c.p + 1) 65535 ∧
        (t.hw.pen c.p).ledger = (s.hw.pen c.p).ledger ∧
        State.BytesBut (fun _ => False) s t ∧
        t.pending = s.pending ∧
        Hw.RegsBut (cmdKeys n ++ genKeys n ++ [R.GEN_ALIAS_COUNT_ALIAS.key c.p]) s.hw t.hw) ∧
  (∀ (n : StallId) (i : Issue) (cmd : Bytes) (s : State) (c : Cx) (g : Nat) (lo : Nat),
      s.hw.cx n 4 i = some c →
      fld cmd 1 1 = g →
      (∀ b, Tbl.find? g (s.hw.stl n).gens = some b → b.fromCtx = false) →
      lo = (if bit (fld cmd 3 1) 1 = true then Run.recGet { hw := s.hw, mem := s.mem } c.p (fld cmd 4 2) 0x28 8 else fld cmd 0x10 8) →
      genBindBad cmd lo = false →
      s.hw.extFault c [⟨fld cmd 6 1, fld cmd 8 4, 16⟩] = {} →
      2048 ≤ (s.hw.pen c.p).ledger.length →
      (s.hw.pen c.p).ledger.any (ledgerClash ((List.range 16).map fun j => s.devByte (s.hw.extAddr n 4 c.tk ⟨fld cmd 6 1, fld cmd 8 4, 0⟩ + j)) lo (lo + fld cmd 0xC 4) (bit (fld cmd 3 1) 0)) = false →
      ∃ t, exec (.genBind n i cmd) s = .next t ∧
        Tbl.find? g (t.hw.stl n).gens = none ∧
        t.hw.get R.GEN_ALIAS_COUNT_LEDGER_FULL c.p = min (s.hw.get R.GEN_ALIAS_COUNT_LEDGER_FULL c.p + 1) 65535 ∧
        (t.hw.pen c.p).ledger = (s.hw.pen c.p).ledger ∧
        State.BytesBut (fun _ => False) s t ∧
        t.pending = s.pending ∧
        Hw.RegsBut (cmdKeys n ++ genKeys n ++ [R.GEN_ALIAS_COUNT_LEDGER_FULL.key c.p]) s.hw t.hw) ∧
  (∀ (n : StallId) (i : Issue) (cmd : Bytes) (s : State) (c : Cx) (g : Nat) (b : GenBind),
      s.hw.cx n 4 i = some c →
      fld cmd 1 1 = g →
      Tbl.find? g (s.hw.stl n).gens = some b →
      b.fromCtx = true →
      b.next < 2 ^ 64 →
      ((granulesOf (s.hw.recAddr c.p b.ctx) 64).any s.hw.deadGranule) = false →
      bit (fld cmd 3 1) 1 = true →
      fld cmd 4 2 = b.ctx →
      genBindBad cmd b.next = false →
      s.hw.extFault c [⟨fld cmd 6 1, fld cmd 8 4, 16⟩] = {} →
      (s.hw.pen c.p).ledger = [] →
      ∃ t, exec (.genBind n i cmd) s = .next t ∧
        ((Tbl.find? g (t.hw.stl n).gens).map fun x => (x.consumer, x.fromCtx, x.ctx, x.next, x.stop)) =
        some (fld cmd 2 1, true, b.ctx, b.next, b.next + fld cmd 0xC 4) ∧
        t.leAt (s.hw.recAddr c.p b.ctx + 0x28) 8 = b.next ∧
        State.BytesBut (fun a => s.hw.recAddr c.p b.ctx ≤ a ∧ a < s.hw.recAddr c.p b.ctx + 64) s t ∧
        t.pending = s.pending) ∧
  (∀ (n : StallId) (i : Issue) (cmd : Bytes) (s : State) (c : Cx) (g : Nat) (lo : Nat),
      s.hw.cx n 4 i = some c →
      fld cmd 1 1 = g →
      (∀ b, Tbl.find? g (s.hw.stl n).gens = some b → b.fromCtx = false) →
      lo = (if bit (fld cmd 3 1) 1 = true then Run.recGet { hw := s.hw, mem := s.mem } c.p (fld cmd 4 2) 0x28 8 else fld cmd 0x10 8) →
      genBindBad cmd lo = true →
      ∃ t, exec (.genBind n i cmd) s = .next t ∧
        t.hw.get R.STL_LNU_FAULT_MALFORMED n = min (s.hw.get R.STL_LNU_FAULT_MALFORMED n + 1) 65535 ∧
        (t.hw.stl n).gens = (s.hw.stl n).gens ∧
        (t.hw.pen c.p).ledger = (s.hw.pen c.p).ledger ∧
        State.BytesBut (fun _ => False) s t ∧
        t.pending = s.pending ∧
        Hw.RegsBut (cmdKeys n ++ [R.STL_LNU_FAULT_MALFORMED.key n]) s.hw t.hw)

/-- A GEN_UNBIND completes and leaves its generator unbound. One bound from a context's record writes the next unused counter to
GEN_COUNTER of the record and sets the record's DIRTY flag, where the record lies in no retired page, and changes no other byte
outside the record's header; another writes no memory, and one that was not bound changes no generator. One that names a
generator above 7 is malformed: counted, and releases nothing. -/
def Obligations.GeneratorRelease : Prop :=
  (∀ (n : StallId) (i : Issue) (g : Nat) (s : State) (c : Cx) (b : GenBind),
      s.hw.cx n 4 i = some c →
      g ≤ 7 →
      Tbl.find? g (s.hw.stl n).gens = some b →
      b.fromCtx = false →
      ∃ t, exec (.genUnbind n i g) s = .next t ∧
        Tbl.find? g (t.hw.stl n).gens = none ∧
        t.hw.get R.GEN_STATE_BOUND (n * 8 + g) = 0 ∧
        t.hw.get R.GEN_NEXT_NEXT (n * 8 + g) = 0 ∧
        State.BytesBut (fun _ => False) s t ∧
        t.pending = s.pending ∧
        Hw.RegsBut (cmdKeys n ++ genKeys n) s.hw t.hw) ∧
  (∀ (n : StallId) (i : Issue) (g : Nat) (s : State) (c : Cx) (b : GenBind),
      s.hw.cx n 4 i = some c →
      g ≤ 7 →
      Tbl.find? g (s.hw.stl n).gens = some b →
      b.fromCtx = true →
      ((granulesOf (s.hw.recAddr c.p b.ctx) 64).any s.hw.deadGranule) = false →
      ∃ t, exec (.genUnbind n i g) s = .next t ∧
        Tbl.find? g (t.hw.stl n).gens = none ∧
        t.hw.get R.GEN_STATE_BOUND (n * 8 + g) = 0 ∧
        t.leAt (s.hw.recAddr c.p b.ctx + 0x28) 8 = b.next % 2 ^ 64 ∧
        bit (t.leAt (s.hw.recAddr c.p b.ctx + 0x0D) 1) 0 = true ∧
        State.BytesBut (fun a => s.hw.recAddr c.p b.ctx ≤ a ∧ a < s.hw.recAddr c.p b.ctx + 64) s t ∧
        t.pending = s.pending ∧
        Hw.FieldsBut (memFlds ++ portFlds ++ genFlds) s.hw t.hw) ∧
  (∀ (n : StallId) (i : Issue) (g : Nat) (s : State) (c : Cx),
      s.hw.cx n 4 i = some c →
      g ≤ 7 →
      Tbl.find? g (s.hw.stl n).gens = none →
      ∃ t, exec (.genUnbind n i g) s = .next t ∧
        (t.hw.stl n).gens = (s.hw.stl n).gens ∧
        t.mem = s.mem ∧
        t.pending = s.pending ∧
        Hw.RegsBut (cmdKeys n) s.hw t.hw) ∧
  (∀ (n : StallId) (i : Issue) (g : Nat) (s : State) (c : Cx),
      s.hw.cx n 4 i = some c →
      7 < g →
      ∃ t, exec (.genUnbind n i g) s = .next t ∧
        t.hw.get R.STL_LNU_FAULT_MALFORMED n = min (s.hw.get R.STL_LNU_FAULT_MALFORMED n + 1) 65535 ∧
        (t.hw.stl n).gens = (s.hw.stl n).gens ∧
        State.BytesBut (fun _ => False) s t ∧
        t.pending = s.pending ∧
        Hw.RegsBut (cmdKeys n ++ [R.STL_LNU_FAULT_MALFORMED.key n]) s.hw t.hw)

/-- A SAMPLE whose step-table entry asks for no sampling writes token 0xFFFFFFFF. Without a mask and at temperature 0 (the word
0x4000) it writes the lowest token whose logit no other exceeds, and counts a greedy sample; with a mask of KIND 1 it chooses so
among the tokens the mask allows, and where it allows none it writes token 0xFFFFFFFF with FLAGS 1 and counts an empty one. A
mask region without the magic number gives token 0xFFFFFFFF with FLAGS 4, counted and noted with its code. With another
temperature it draws one block where its generator serves the sampler, and counts a sample. Each writes its 16-byte record and
nothing else, and completes its slot; with any mask, an automaton among them, a SAMPLE completes and writes at most its record
and the header of the context's record that its region names. -/
def Obligations.Sampling : Prop :=
  (∀ (n : StallId) (i : Issue) (cmd : Bytes) (s : State) (c : Cx),
      s.hw.cx n 5 i = some c →
      (Smp.of cmd).bad cmd = false →
      s.hw.extFault c [(Smp.of cmd).logits, (Smp.of cmd).entry, (Smp.of cmd).mask, (Smp.of cmd).ctx, (Smp.of cmd).out] = {} →
      bit (s.leAt (s.hw.extAddr n 5 c.tk (Smp.of cmd).entry + 3) 1) 1 = false →
      ∃ t, exec (.sample n i cmd) s = .next t ∧
        t.leAt (s.hw.extAddr n 5 c.tk (Smp.of cmd).out) 4 = 0xFFFFFFFF ∧
        t.leAt ((s.hw.extAddr n 5 c.tk (Smp.of cmd).out) + 4) 5 = 0 ∧
        Hw.slotWritten s.hw t.hw n (Smp.of cmd).slotO ∧
        State.BytesBut (fun a => s.hw.inExts n 5 c.tk ([(Smp.of cmd).out]) a = true) s t ∧
        t.pending = s.pending ∧
        Hw.RegsBut (cmdKeys n) s.hw t.hw) ∧
  (∀ (n : StallId) (i : Issue) (cmd : Bytes) (s : State) (c : Cx),
      s.hw.cx n 5 i = some c →
      (Smp.of cmd).bad cmd = false →
      s.hw.extFault c [(Smp.of cmd).logits, (Smp.of cmd).entry, (Smp.of cmd).mask, (Smp.of cmd).ctx, (Smp.of cmd).out] = {} →
      bit (s.leAt (s.hw.extAddr n 5 c.tk (Smp.of cmd).entry + 3) 1) 1 = true →
      s.leAt (s.hw.extAddr n 5 c.tk (Smp.of cmd).entry + 0xC) 2 = 0xFFFF →
      s.leAt (s.hw.extAddr n 5 c.tk (Smp.of cmd).entry + 0x10) 2 = 0x4000 →
      ∃ t, exec (.sample n i cmd) s = .next t ∧
        (∃ tok, tok < (Smp.of cmd).v ∧ t.leAt (s.hw.extAddr n 5 c.tk (Smp.of cmd).out) 4 = tok ∧ ∀ k, k < (Smp.of cmd).v → (Lns.of16 (s.leAt (s.hw.extAddr n 5 c.tk (Smp.of cmd).logits + 2 * k) 2)).key ≤ (Lns.of16 (s.leAt (s.hw.extAddr n 5 c.tk (Smp.of cmd).logits + 2 * tok) 2)).key ∧
        (k < tok → (Lns.of16 (s.leAt (s.hw.extAddr n 5 c.tk (Smp.of cmd).logits + 2 * k) 2)).key < (Lns.of16 (s.leAt (s.hw.extAddr n 5 c.tk (Smp.of cmd).logits + 2 * tok) 2)).key)) ∧
        t.hw.get R.SMP_GREEDY_COUNT n = min (s.hw.get R.SMP_GREEDY_COUNT n + 1) (2 ^ 32 - 1) ∧
        Hw.slotWritten s.hw t.hw n (Smp.of cmd).slotO ∧
        State.BytesBut (fun a => s.hw.inExts n 5 c.tk ([(Smp.of cmd).out]) a = true) s t ∧
        t.pending = s.pending ∧
        Hw.RegsBut (cmdKeys n ++ [R.SMP_GREEDY_COUNT.key n]) s.hw t.hw) ∧
  (∀ (n : StallId) (i : Issue) (cmd : Bytes) (s : State) (c : Cx),
      s.hw.cx n 5 i = some c →
      (Smp.of cmd).bad cmd = false →
      s.hw.extFault c [(Smp.of cmd).logits, (Smp.of cmd).entry, (Smp.of cmd).mask, (Smp.of cmd).ctx, (Smp.of cmd).out] = {} →
      bit (s.leAt (s.hw.extAddr n 5 c.tk (Smp.of cmd).entry + 3) 1) 1 = true →
      s.leAt (s.hw.extAddr n 5 c.tk (Smp.of cmd).entry + 0xC) 2 = 0xFFFF →
      s.leAt (s.hw.extAddr n 5 c.tk (Smp.of cmd).entry + 0x10) 2 ≠ 0x4000 →
      s.hw.genOk n (Smp.of cmd).gen 5 = true →
      ∃ t, exec (.sample n i cmd) s = .next t ∧
        t.hw.get R.SMP_SAMPLES_COUNT n = min (s.hw.get R.SMP_SAMPLES_COUNT n + 1) (2 ^ 32 - 1) ∧
        Hw.slotWritten s.hw t.hw n (Smp.of cmd).slotO ∧
        State.BytesBut (fun a => s.hw.inExts n 5 c.tk ([(Smp.of cmd).out]) a = true) s t ∧
        t.pending = s.pending ∧
        Hw.RegsBut (cmdKeys n ++ genKeys n ++ [R.SMP_SAMPLES_COUNT.key n, R.STL_LNU_FAULT_GEN_FAULT.key n, R.GEN_FAULT_COUNT_RANGE.key c.p]) s.hw t.hw) ∧
  (∀ (n : StallId) (i : Issue) (cmd : Bytes) (s : State) (c : Cx),
      s.hw.cx n 5 i = some c →
      (Smp.of cmd).bad cmd = false →
      s.hw.extFault c [(Smp.of cmd).logits, (Smp.of cmd).entry, (Smp.of cmd).mask, (Smp.of cmd).ctx, (Smp.of cmd).out] = {} →
      bit (s.leAt (s.hw.extAddr n 5 c.tk (Smp.of cmd).entry + 3) 1) 1 = true →
      s.leAt (s.hw.extAddr n 5 c.tk (Smp.of cmd).entry + 0xC) 2 ≠ 0xFFFF →
      s.leAt (s.hw.extAddr n 5 c.tk (Smp.of cmd).mask) 4 ≠ 0x4B534D4B →
      ∃ t, exec (.sample n i cmd) s = .next t ∧
        t.leAt (s.hw.extAddr n 5 c.tk (Smp.of cmd).out) 4 = 0xFFFFFFFF ∧
        t.leAt ((s.hw.extAddr n 5 c.tk (Smp.of cmd).out) + 4) 5 = 4 * 2 ^ 32 ∧
        t.hw.get R.SMP_BAD_BAD n = min (s.hw.get R.SMP_BAD_BAD n + 1) 65535 ∧
        t.hw.get R.SMP_LAST_ERR_CODE n = 2 ∧
        t.hw.get R.SMP_LAST_ERR_TASK n = c.task % 2 ^ 24 ∧
        Hw.slotWritten s.hw t.hw n (Smp.of cmd).slotO ∧
        State.BytesBut (fun a => s.hw.inExts n 5 c.tk ([(Smp.of cmd).out]) a = true) s t ∧
        t.pending = s.pending ∧
        Hw.RegsBut (cmdKeys n ++ outKeys n c.p ++ [R.SMP_BAD_BAD.key n, R.SMP_LAST_ERR_CODE.key n, R.SMP_LAST_ERR_TASK.key n]) s.hw t.hw) ∧
  (∀ (n : StallId) (i : Issue) (cmd : Bytes) (s : State) (c : Cx) (off : Nat),
      s.hw.cx n 5 i = some c →
      (Smp.of cmd).bad cmd = false →
      s.hw.extFault c [(Smp.of cmd).logits, (Smp.of cmd).entry, (Smp.of cmd).mask, (Smp.of cmd).ctx, (Smp.of cmd).out] = {} →
      bit (s.leAt (s.hw.extAddr n 5 c.tk (Smp.of cmd).entry + 3) 1) 1 = true →
      s.leAt (s.hw.extAddr n 5 c.tk (Smp.of cmd).entry + 0xC) 2 ≠ 0xFFFF →
      s.leAt (s.hw.extAddr n 5 c.tk (Smp.of cmd).mask) 4 = 0x4B534D4B →
      s.leAt ((s.hw.extAddr n 5 c.tk (Smp.of cmd).mask) + 8) 4 = (Smp.of cmd).v →
      (s.leAt (s.hw.extAddr n 5 c.tk (Smp.of cmd).entry + 0xC) 2) < s.leAt ((s.hw.extAddr n 5 c.tk (Smp.of cmd).mask) + 4) 2 →
      s.leAt ((s.hw.extAddr n 5 c.tk (Smp.of cmd).mask) + 16 + 16 * (s.leAt (s.hw.extAddr n 5 c.tk (Smp.of cmd).entry + 0xC) 2)) 1 = 1 →
      off = s.leAt ((s.hw.extAddr n 5 c.tk (Smp.of cmd).mask) + 16 + 16 * (s.leAt (s.hw.extAddr n 5 c.tk (Smp.of cmd).entry + 0xC) 2) + 4) 4 →
      s.leAt (s.hw.extAddr n 5 c.tk (Smp.of cmd).entry + 0x10) 2 = 0x4000 →
      (∃ k, k < (Smp.of cmd).v ∧ (s.leAt ((s.hw.extAddr n 5 c.tk (Smp.of cmd).mask) + off) (cdiv (Smp.of cmd).v 8)).testBit k = true) →
      ∃ t, exec (.sample n i cmd) s = .next t ∧
        (∃ tok, tok < (Smp.of cmd).v ∧ (s.leAt ((s.hw.extAddr n 5 c.tk (Smp.of cmd).mask) + off) (cdiv (Smp.of cmd).v 8)).testBit tok = true ∧ t.leAt (s.hw.extAddr n 5 c.tk (Smp.of cmd).out) 4 = tok ∧ ∀ k, k < (Smp.of cmd).v → (s.leAt ((s.hw.extAddr n 5 c.tk (Smp.of cmd).mask) + off) (cdiv (Smp.of cmd).v 8)).testBit k = true → (Lns.of16 (s.leAt (s.hw.extAddr n 5 c.tk (Smp.of cmd).logits + 2 * k) 2)).key ≤ (Lns.of16 (s.leAt (s.hw.extAddr n 5 c.tk (Smp.of cmd).logits + 2 * tok) 2)).key ∧
        (k < tok → (Lns.of16 (s.leAt (s.hw.extAddr n 5 c.tk (Smp.of cmd).logits + 2 * k) 2)).key < (Lns.of16 (s.leAt (s.hw.extAddr n 5 c.tk (Smp.of cmd).logits + 2 * tok) 2)).key)) ∧
        t.leAt ((s.hw.extAddr n 5 c.tk (Smp.of cmd).out) + 4) 5 = 0 ∧
        t.hw.get R.SMP_GREEDY_COUNT n = min (s.hw.get R.SMP_GREEDY_COUNT n + 1) (2 ^ 32 - 1) ∧
        Hw.slotWritten s.hw t.hw n (Smp.of cmd).slotO ∧
        State.BytesBut (fun a => s.hw.inExts n 5 c.tk ([(Smp.of cmd).out]) a = true) s t ∧
        t.pending = s.pending ∧
        Hw.RegsBut (cmdKeys n ++ [R.SMP_GREEDY_COUNT.key n]) s.hw t.hw) ∧
  (∀ (n : StallId) (i : Issue) (cmd : Bytes) (s : State) (c : Cx) (off : Nat),
      s.hw.cx n 5 i = some c →
      (Smp.of cmd).bad cmd = false →
      s.hw.extFault c [(Smp.of cmd).logits, (Smp.of cmd).entry, (Smp.of cmd).mask, (Smp.of cmd).ctx, (Smp.of cmd).out] = {} →
      bit (s.leAt (s.hw.extAddr n 5 c.tk (Smp.of cmd).entry + 3) 1) 1 = true →
      s.leAt (s.hw.extAddr n 5 c.tk (Smp.of cmd).entry + 0xC) 2 ≠ 0xFFFF →
      s.leAt (s.hw.extAddr n 5 c.tk (Smp.of cmd).mask) 4 = 0x4B534D4B →
      s.leAt ((s.hw.extAddr n 5 c.tk (Smp.of cmd).mask) + 8) 4 = (Smp.of cmd).v →
      (s.leAt (s.hw.extAddr n 5 c.tk (Smp.of cmd).entry + 0xC) 2) < s.leAt ((s.hw.extAddr n 5 c.tk (Smp.of cmd).mask) + 4) 2 →
      s.leAt ((s.hw.extAddr n 5 c.tk (Smp.of cmd).mask) + 16 + 16 * (s.leAt (s.hw.extAddr n 5 c.tk (Smp.of cmd).entry + 0xC) 2)) 1 = 1 →
      off = s.leAt ((s.hw.extAddr n 5 c.tk (Smp.of cmd).mask) + 16 + 16 * (s.leAt (s.hw.extAddr n 5 c.tk (Smp.of cmd).entry + 0xC) 2) + 4) 4 →
      (∀ k, k < (Smp.of cmd).v → (s.leAt ((s.hw.extAddr n 5 c.tk (Smp.of cmd).mask) + off) (cdiv (Smp.of cmd).v 8)).testBit k = false) →
      ∃ t, exec (.sample n i cmd) s = .next t ∧
        t.leAt (s.hw.extAddr n 5 c.tk (Smp.of cmd).out) 4 = 0xFFFFFFFF ∧
        t.leAt ((s.hw.extAddr n 5 c.tk (Smp.of cmd).out) + 4) 5 = 2 ^ 32 ∧
        t.hw.get R.SMP_EMPTY_COUNT n = min (s.hw.get R.SMP_EMPTY_COUNT n + 1) 65535 ∧
        Hw.slotWritten s.hw t.hw n (Smp.of cmd).slotO ∧
        State.BytesBut (fun a => s.hw.inExts n 5 c.tk ([(Smp.of cmd).out]) a = true) s t ∧
        t.pending = s.pending ∧
        Hw.RegsBut (cmdKeys n ++ [R.SMP_EMPTY_COUNT.key n]) s.hw t.hw) ∧
  (∀ (n : StallId) (i : Issue) (cmd : Bytes) (s : State) (c : Cx),
      s.hw.cx n 5 i = some c →
      (Smp.of cmd).bad cmd = false →
      s.hw.extFault c [(Smp.of cmd).logits, (Smp.of cmd).entry, (Smp.of cmd).mask, (Smp.of cmd).ctx, (Smp.of cmd).out] = {} →
      s.hw.genOk n (Smp.of cmd).gen 5 = true →
      ∃ t, exec (.sample n i cmd) s = .next t ∧
        Hw.slotWritten s.hw t.hw n (Smp.of cmd).slotO ∧
        State.BytesBut (fun a => s.hw.inExts n 5 c.tk ([(Smp.of cmd).out, (Smp.of cmd).ctx]) a = true) s t ∧
        t.pending = s.pending ∧
        Hw.RegsBut (cmdKeys n ++ outKeys n c.p ++ genKeys n ++ [R.STL_LNU_FAULT_GEN_FAULT.key n, R.GEN_FAULT_COUNT_RANGE.key c.p,
          R.SMP_SAMPLES_COUNT.key n, R.SMP_GREEDY_COUNT.key n, R.SMP_EMPTY_COUNT.key n, R.SMP_EMPTY_ACCEPT.key n, R.SMP_BAD_BAD.key n,
          R.SMP_LAST_ERR_CODE.key n, R.SMP_LAST_ERR_TASK.key n]) s.hw t.hw)

/-- WAIT_ARRIVALS on an engine waits until its counter has reached the target, modulo 2^32 within half the range; a counter already
there ends it at once, and CONSUME takes the target off the counter; with REMOTE the wait holds a detached slot instead of the
port. A remote write into a stall of a pen lands its bytes, raises its counter by one and completes its slot, but is held while
the stall is filled with zeros; a stall outside every pen takes none; the end of a zero-fill clears ZEROING and lands what was
held. The completion of a detached host read ends its wait, poisoned after an error, which is counted. -/
def Obligations.ArrivalsAndWaits : Prop :=
  (∀ (n : StallId) (e : EngKind) (i : Issue) (cmd : Bytes) (s : State) (c : Cx) (w : WaitArr),
      s.hw.cx n (engNum e) i = some c →
      waitBad (engNum e) cmd = false →
      (s.hw.stl n).waits = [] →
      bit (fld cmd 1 1) 1 = false →
      w = ⟨engNum e, c.frame, c.task, fld cmd 2 1, fld cmd 4 4, bit (fld cmd 1 1) 0, none⟩ →
      ∃ t, exec (.waitArrivals n e i cmd) s = .next t ∧
        (t.hw.stl n).waits = (if arrMet (s.hw.arr n (fld cmd 2 1)) (fld cmd 4 4) = true then [] else [w]) ∧
        t.hw.arr n (fld cmd 2 1) = (if arrMet (s.hw.arr n (fld cmd 2 1)) (fld cmd 4 4) = true ∧ bit (fld cmd 1 1) 0 = true then (s.hw.arr n (fld cmd 2 1) + 2 ^ 32 - fld cmd 4 4) % 2 ^ 32 else s.hw.arr n (fld cmd 2 1)) ∧
        t.mem = s.mem ∧
        t.pending = s.pending ∧
        Hw.RegsBut (cmdKeys n ++ prefetchKeys n ++ [R.SPD_ARR_COUNT.key (n * 64 + fld cmd 2 1)]) s.hw t.hw) ∧
  (∀ (n : StallId) (e : EngKind) (i : Issue) (cmd : Bytes) (s : State) (c : Cx) (w : WaitArr) (d : Nat),
      s.hw.cx n (engNum e) i = some c →
      waitBad (engNum e) cmd = false →
      (s.hw.stl n).waits = [] →
      bit (fld cmd 1 1) 1 = true →
      s.hw.freeSlot n c.u0 = some d →
      w = ⟨engNum e, c.frame, c.task, fld cmd 2 1, fld cmd 4 4, bit (fld cmd 1 1) 0, some d⟩ →
      ∃ t, exec (.waitArrivals n e i cmd) s = .next t ∧
        (t.hw.stl n).waits = (if arrMet (s.hw.arr n (fld cmd 2 1)) (fld cmd 4 4) = true then [] else [w]) ∧
        t.hw.arr n (fld cmd 2 1) = (if arrMet (s.hw.arr n (fld cmd 2 1)) (fld cmd 4 4) = true ∧ bit (fld cmd 1 1) 0 = true then (s.hw.arr n (fld cmd 2 1) + 2 ^ 32 - fld cmd 4 4) % 2 ^ 32 else s.hw.arr n (fld cmd 2 1)) ∧
        ((Tbl.find? d (t.hw.stl n).det).map fun x => (x.op, x.waits)) = some (0x11, if arrMet (s.hw.arr n (fld cmd 2 1)) (fld cmd 4 4) = true then 0 else 1) ∧
        t.mem = s.mem ∧
        t.pending = s.pending ∧
        Hw.RegsBut (cmdKeys n ++ prefetchKeys n ++ [R.SPD_ARR_COUNT.key (n * 64 + fld cmd 2 1)]) s.hw t.hw) ∧
  (∀ (n : StallId) (off : Nat) (bytes : Bytes) (poison : Nat) (ctr : Fin 64) (slot : Nat) (met : Ports) (s : State),
      (s.hw.penOf n).isSome = true →
      s.hw.mgt.phase = .run →
      off + bytes.length ≤ spdSize →
      s.hw.is R.SPD_STATUS_ZEROING n = false →
      (s.hw.stl n).waits = [] →
      ∃ t, exec (.remoteWriteArrival n off ⟨bytes, met⟩ poison (some ctr) slot) s = .next t ∧
        (∀ i, i < bytes.length → t.devByte (spdAddr n + off + i) = bytes.getD i 0) ∧
        State.BytesBut (fun a => spdAddr n + off ≤ a ∧ a < spdAddr n + off + bytes.length) s t ∧
        t.hw.arr n ctr = (s.hw.arr n ctr + 1) % 2 ^ 32 ∧
        Hw.slotWritten s.hw t.hw n slot ∧
        t.pending = s.pending ∧
        Hw.RegsBut (landKeys n ++ logKeys ++ metKeys n) s.hw t.hw) ∧
  (∀ (n : StallId) (off : Nat) (bytes : Bytes) (poison : Nat) (ctr : Option (Fin 64)) (slot : Nat) (met : Ports) (s : State),
      (s.hw.penOf n).isSome = true →
      s.hw.mgt.phase = .run →
      off + bytes.length ≤ spdSize →
      s.hw.is R.SPD_STATUS_ZEROING n = true →
      ∃ t, exec (.remoteWriteArrival n off ⟨bytes, met⟩ poison ctr slot) s = .next t ∧
        ((t.hw.stl n).held.map fun w => (w.addr, w.bytes)) = ((s.hw.stl n).held.map fun w => (w.addr, w.bytes)) ++ [(spdAddr n + off, bytes), (0, [])] ∧
        State.Frame (landKeys n ++ logKeys ++ metKeys n) s t) ∧
  (∀ (n : StallId) (off : Nat) (bytes : Bytes) (poison : Nat) (ctr : Option (Fin 64)) (slot : Nat) (met : Ports) (s : State),
      s.hw.penOf n = none →
      exec (.remoteWriteArrival n off ⟨bytes, met⟩ poison ctr slot) s = .next s) ∧
  (∀ (n : StallId) (s : State),
      s.hw.is R.SPD_STATUS_ZEROING n = true →
      ∃ t, exec (.zeroFillDone n) s = .next t ∧
        t.hw.get R.SPD_STATUS_ZEROING n = 0 ∧
        (t.hw.stl n).held = [] ∧
        (∀ w, (s.hw.stl n).held = [w] → w.area = 0 → ∀ i, i < w.bytes.length → t.devByte (w.addr + i) = w.bytes.getD i 0) ∧
        State.BytesBut (fun a => ((s.hw.stl n).held.any fun w => decide (w.addr ≤ a) && decide (a < w.addr + w.bytes.length)) = true) s t ∧
        t.pending = s.pending ∧
        Hw.RegsBut (R.SPD_STATUS_ZEROING.key n :: landKeys n) s.hw t.hw) ∧
  (∀ (n : StallId) (d : Fin 8) (res : Completion) (s : State) (x : Detached),
      Tbl.find? d.val (s.hw.stl n).det = some x →
      x.op = 0x12 →
      x.waits = 1 →
      ∃ t, exec (.hostReadCompletion n d res) s = .next t ∧
        Tbl.find? d.val (t.hw.stl n).det = some { x with waits := 0, poison := x.poison ||| (if res = .ok then 0 else 1) } ∧
        t.hw.get R.HIF_CPL_ERR_ERR 0 = (if res = .error then min (s.hw.get R.HIF_CPL_ERR_ERR 0 + 1) 65535 else s.hw.get R.HIF_CPL_ERR_ERR 0) ∧
        t.hw.get R.HIF_CPL_ERR_TIMEOUT 0 = (if res = .timeout then min (s.hw.get R.HIF_CPL_ERR_TIMEOUT 0 + 1) 65535 else s.hw.get R.HIF_CPL_ERR_TIMEOUT 0) ∧
        State.Frame [R.HIF_CPL_ERR_ERR.key 0, R.HIF_CPL_ERR_TIMEOUT.key 0] s t)

/-- A well-formed DMA_MOVE without a host side, every element of which may go on, copies to its end: it is counted, no byte outside
its destination elements changes, a single element arrives byte for byte (within the stall), and the stall's own destination
slot is FULL with the next tag. With a gather the elements are those its indices name, as many as the count word says and no
more than COUNT. A move from the host takes a detached slot, notes the copies it has asked the host for, and waits for its read;
once nothing holds it, the end of its wait lands the bytes asked for, whatever the DMA windows are by then, and frees the slot. -/
def Obligations.DmaMoves : Prop :=
  (∀ (n : StallId) (i : Issue) (cmd : Bytes) (s : State) (c : Cx),
      s.hw.cx n 6 i = some c →
      (DmaMove.of cmd).bad s.hw c cmd = false →
      (DmaMove.of cmd).gath = false →
      ((List.range (DmaMove.of cmd).count).all fun k => ((DmaMove.of cmd).elemFault s.hw c ((DmaMove.of cmd).copies k k)).isNone) = true →
      (DmaMove.of cmd).src.kind < 3 →
      (DmaMove.of cmd).dst.kind < 3 →
      ∃ t, exec (.dmaMove n i cmd) s = .next t ∧
        t.hw.get R.SPD_DMA_CMDS_CMDS n = min (s.hw.get R.SPD_DMA_CMDS_CMDS n + 1) (2 ^ 32 - 1) ∧
        t.hw.get R.SPD_DMA_BYTES_BYTES n =
        min (s.hw.get R.SPD_DMA_BYTES_BYTES n + (DmaMove.of cmd).count * (DmaMove.of cmd).rep * (DmaMove.of cmd).elem) (2 ^ 64 - 1) ∧
        State.BytesBut (fun a => ((List.range (DmaMove.of cmd).count).any fun k => ((DmaMove.of cmd).copies k k).any fun x => decide ((DmaMove.of cmd).dst.at s.hw c x.1 ≤ a) && decide (a < (DmaMove.of cmd).dst.at s.hw c x.1 + (DmaMove.of cmd).elem)) = true) s t ∧
        t.pending = s.pending) ∧
  (∀ (n : StallId) (i : Issue) (cmd : Bytes) (s : State) (c : Cx) (j : Nat),
      s.hw.cx n 6 i = some c →
      (DmaMove.of cmd).bad s.hw c cmd = false →
      (DmaMove.of cmd).gath = false →
      ((List.range (DmaMove.of cmd).count).all fun k => ((DmaMove.of cmd).elemFault s.hw c ((DmaMove.of cmd).copies k k)).isNone) = true →
      (DmaMove.of cmd).src.kind = 0 →
      (DmaMove.of cmd).dst.kind = 0 →
      (DmaMove.of cmd).count = 1 →
      (DmaMove.of cmd).rep = 1 →
      j < (DmaMove.of cmd).elem →
      ∃ t, exec (.dmaMove n i cmd) s = .next t ∧
        t.devByte ((DmaMove.of cmd).dst.at s.hw c (DmaMove.of cmd).dst.addr + j) = s.devByte ((DmaMove.of cmd).src.at s.hw c (DmaMove.of cmd).src.addr + j) ∧
        Hw.slotWritten s.hw t.hw n (DmaMove.of cmd).slotD ∧
        Hw.RegsBut (cmdKeys n ++ landKeys n ++ [R.SPD_DMA_CMDS_CMDS.key n, R.SPD_DMA_BYTES_BYTES.key n]) s.hw t.hw) ∧
  (∀ (n : StallId) (i : Issue) (cmd : Bytes) (s : State) (c : Cx) (els : List (List (Nat × Nat))),
      s.hw.cx n 6 i = some c →
      (DmaMove.of cmd).bad s.hw c cmd = false →
      (DmaMove.of cmd).gath = true →
      s.hw.extFault c (DmaMove.of cmd).idxExts = {} →
      els = (List.range (min (if (DmaMove.of cmd).cntI = true then s.leAt (s.hw.extAddr n 6 c.tk ⟨(DmaMove.of cmd).iReg, (DmaMove.of cmd).cntO, 2⟩) 2 else (DmaMove.of cmd).count) (DmaMove.of cmd).count)).map (fun k =>
        (DmaMove.of cmd).copies k (s.leAt (s.hw.extAddr n 6 c.tk ⟨(DmaMove.of cmd).iReg, (DmaMove.of cmd).idxO + (if (DmaMove.of cmd).idx16 = true then 2 else 1) * k, (if (DmaMove.of cmd).idx16 = true then 2 else 1)⟩) (if (DmaMove.of cmd).idx16 = true then 2 else 1))) →
      (els.all fun cs => ((DmaMove.of cmd).elemFault s.hw c cs).isNone) = true →
      (DmaMove.of cmd).src.kind < 3 →
      (DmaMove.of cmd).dst.kind < 3 →
      ∃ t, exec (.dmaMove n i cmd) s = .next t ∧
        t.hw.get R.SPD_DMA_CMDS_CMDS n = min (s.hw.get R.SPD_DMA_CMDS_CMDS n + 1) (2 ^ 32 - 1) ∧
        t.hw.get R.SPD_DMA_BYTES_BYTES n =
        min (s.hw.get R.SPD_DMA_BYTES_BYTES n + els.length * (DmaMove.of cmd).rep * (DmaMove.of cmd).elem) (2 ^ 64 - 1) ∧
        State.BytesBut (fun a => (els.any fun cs => cs.any fun x => decide ((DmaMove.of cmd).dst.at s.hw c x.1 ≤ a) && decide (a < (DmaMove.of cmd).dst.at s.hw c x.1 + (DmaMove.of cmd).elem)) = true) s t ∧
        t.pending = s.pending) ∧
  (∀ (n : StallId) (i : Issue) (cmd : Bytes) (s : State) (c : Cx) (els : List (List (Nat × Nat))) (x : Nat × Nat) (j : Nat),
      s.hw.cx n 6 i = some c →
      (DmaMove.of cmd).bad s.hw c cmd = false →
      (DmaMove.of cmd).gath = true →
      s.hw.extFault c (DmaMove.of cmd).idxExts = {} →
      els = (List.range (min (if (DmaMove.of cmd).cntI = true then s.leAt (s.hw.extAddr n 6 c.tk ⟨(DmaMove.of cmd).iReg, (DmaMove.of cmd).cntO, 2⟩) 2 else (DmaMove.of cmd).count) (DmaMove.of cmd).count)).map (fun k =>
        (DmaMove.of cmd).copies k (s.leAt (s.hw.extAddr n 6 c.tk ⟨(DmaMove.of cmd).iReg, (DmaMove.of cmd).idxO + (if (DmaMove.of cmd).idx16 = true then 2 else 1) * k, (if (DmaMove.of cmd).idx16 = true then 2 else 1)⟩) (if (DmaMove.of cmd).idx16 = true then 2 else 1))) →
      (els.all fun cs => ((DmaMove.of cmd).elemFault s.hw c cs).isNone) = true →
      (DmaMove.of cmd).src.kind = 0 →
      (DmaMove.of cmd).dst.kind = 0 →
      els = [[x]] →
      j < (DmaMove.of cmd).elem →
      ∃ t, exec (.dmaMove n i cmd) s = .next t ∧
        t.devByte ((DmaMove.of cmd).dst.at s.hw c x.1 + j) = s.devByte ((DmaMove.of cmd).src.at s.hw c x.2 + j) ∧
        Hw.slotWritten s.hw t.hw n (DmaMove.of cmd).slotD ∧
        Hw.RegsBut (cmdKeys n ++ landKeys n ++ [R.SPD_DMA_CMDS_CMDS.key n, R.SPD_DMA_BYTES_BYTES.key n, R.STL_SPARSE_OOR.key n]) s.hw t.hw) ∧
  (∀ (n : StallId) (i : Issue) (cmd : Bytes) (s : State) (c : Cx) (d : Nat),
      s.hw.cx n 6 i = some c →
      (DmaMove.of cmd).bad s.hw c cmd = false →
      (DmaMove.of cmd).gath = false →
      ((List.range (DmaMove.of cmd).count).all fun k => ((DmaMove.of cmd).elemFault s.hw c ((DmaMove.of cmd).copies k k)).isNone) = true →
      (DmaMove.of cmd).src.kind = 3 →
      s.hw.freeSlot n c.u0 = some d →
      ∃ t, exec (.dmaMove n i cmd) s = .next t ∧
        ((Tbl.find? d (t.hw.stl n).det).map fun x => (x.op, x.cmd, x.waits, x.copies)) =
        some (0x12, cmd, 1, (List.range (DmaMove.of cmd).count).flatMap fun k => (DmaMove.of cmd).copies k k) ∧
        t.hw.get R.SPD_DMA_CMDS_CMDS n = s.hw.get R.SPD_DMA_CMDS_CMDS n ∧
        State.BytesBut (fun _ => False) s t ∧
        t.pending = s.pending ∧
        Hw.RegsBut (cmdKeys n) s.hw t.hw) ∧
  (∀ (n : StallId) (d : Fin 8) (s : State) (x : Detached),
      Tbl.find? d.val (s.hw.stl n).det = some x →
      x.waits = 0 →
      x.op = 0x11 →
      s.hw.penLive x.pen = true →
      (s.hw.pen x.pen).frames = [] →
      ∃ t, exec (.detachedWaitEnd n d) s = .next t ∧
        Tbl.find? d.val (t.hw.stl n).det = none ∧
        State.BytesBut (fun _ => False) s t ∧
        t.pending = s.pending) ∧
  (∀ (n : StallId) (d : Fin 8) (s : State) (x : Detached) (j : Nat),
      Tbl.find? d.val (s.hw.stl n).det = some x →
      x.waits = 0 →
      x.op = 0x12 →
      s.hw.penLive x.pen = true →
      (s.hw.pen x.pen).frames = [] →
      x.pos = none →
      (DmaMove.of x.cmd).src.kind = 3 →
      (DmaMove.of x.cmd).dst.kind = 0 →
      (s.hw.penOf n).isSome = true →
      x.copies = [((DmaMove.of x.cmd).dst.addr, (DmaMove.of x.cmd).src.addr)] →
      (DmaMove.of x.cmd).dst.fault s.hw (x.cx n) true (DmaMove.of x.cmd).dst.addr (DmaMove.of x.cmd).elem = none →
      j < (DmaMove.of x.cmd).elem →
      ∃ t, exec (.detachedWaitEnd n d) s = .next t ∧
        Tbl.find? d.val (t.hw.stl n).det = none ∧
        t.devByte ((DmaMove.of x.cmd).dst.at s.hw (x.cx n) (DmaMove.of x.cmd).dst.addr + j) = s.hostByte ((DmaMove.of x.cmd).src.addr + j) ∧
        t.hw.get R.SPD_DMA_CMDS_CMDS n = min (s.hw.get R.SPD_DMA_CMDS_CMDS n + 1) (2 ^ 32 - 1) ∧
        State.BytesBut (fun a => (DmaMove.of x.cmd).dst.at s.hw (x.cx n) (DmaMove.of x.cmd).dst.addr ≤ a ∧ a < (DmaMove.of x.cmd).dst.at s.hw (x.cx n) (DmaMove.of x.cmd).dst.addr + (DmaMove.of x.cmd).elem) s t ∧
        t.pending = s.pending)

/-- A well-formed CRIB_EMIT for the bind position of a sequence of its frame, in a pen in RUN, whose output room lies in the
tenant's DMA windows, copies its data to the host up to that room, notes the entry as emitted and holds a detached slot until it
ends; it changes no device byte, no other host byte, and only its engine's registers. A second one for a position, before or
after the first one's entry is written, is logged as CRIB_DUP and does nothing else. -/
def Obligations.CribEmission : Prop :=
  (∀ (n : StallId) (i : Issue) (cmd : Bytes) (s : State) (c : Cx) (b : Bound) (d : Nat) (k : Nat),
      s.hw.cx n 6 i = some c →
      emitBad cmd = false →
      s.hw.extFault c ((if fld cmd 4 4 = 0xFFFFFFFF then [] else [⟨fld cmd 2 1, fld cmd 4 4, 16⟩]) ++
        if fld cmd 0xC 4 = 0 then [] else [⟨fld cmd 3 1, fld cmd 8 4, fld cmd 0xC 4⟩]) = {} →
      ((s.hw.pen c.p).bound.find? fun b => b.frame == c.frame && b.pos == fld cmd 1 1) = some b →
      s.hw.penRun c.p = true →
      (s.hw.ten b.tenant).disabling = none →
      (s.hw.pen c.p).yoke.demote = none →
      b.emitted = false →
      s.hw.freeSlot n c.u0 = some d →
      k = min (fld cmd 0xC 4) (if fld b.entry 0x20 8 = 0 then 0 else fld b.entry 0x28 4) →
      s.hw.dmaOk (s.hw.fnOf b.tenant) (fld b.entry 0x20 8) k true = true →
      ∃ t, exec (.cribEmit n i cmd) s = .next t ∧
        (∀ j, j < k → t.hostByte (fld b.entry 0x20 8 + j) = s.devByte (s.hw.extAddr n 6 c.tk ⟨fld cmd 3 1, fld cmd 8 4, 0⟩ + j)) ∧
        (∀ a, t.devByte a = s.devByte a) ∧
        (∀ a, ¬(fld b.entry 0x20 8 ≤ a ∧ a < fld b.entry 0x20 8 + k) → t.hostByte a = s.hostByte a) ∧
        ((Tbl.find? d (t.hw.stl n).det).map fun x => (x.op, x.key, x.waits)) = some (0x13, fld cmd 1 1, 0) ∧
        ((t.hw.pen c.p).bound.any fun y => y.same b && y.emitted) = true ∧
        t.pending = s.pending ∧
        Hw.RegsBut (cmdKeys n) s.hw t.hw) ∧
  (∀ (n : StallId) (i : Issue) (cmd : Bytes) (s : State) (c : Cx) (b : Bound),
      s.hw.cx n 6 i = some c →
      emitBad cmd = false →
      s.hw.extFault c ((if fld cmd 4 4 = 0xFFFFFFFF then [] else [⟨fld cmd 2 1, fld cmd 4 4, 16⟩]) ++
        if fld cmd 0xC 4 = 0 then [] else [⟨fld cmd 3 1, fld cmd 8 4, fld cmd 0xC 4⟩]) = {} →
      ((s.hw.pen c.p).bound.find? fun b => b.frame == c.frame && b.pos == fld cmd 1 1) = some b →
      s.hw.penRun c.p = true →
      (s.hw.ten b.tenant).disabling = none →
      (s.hw.pen c.p).yoke.demote = none →
      b.emitted = true →
      exec (.cribEmit n i cmd) s = .next { s with hw := ((s.hw.upset i.upsets).metPorts n 6 i).logCx c E.CRIB_DUP 0 0xFFFF (fld cmd 1 1) }) ∧
  (∀ (n : StallId) (i : Issue) (cmd : Bytes) (s : State) (c : Cx),
      s.hw.cx n 6 i = some c →
      emitBad cmd = false →
      s.hw.extFault c ((if fld cmd 4 4 = 0xFFFFFFFF then [] else [⟨fld cmd 2 1, fld cmd 4 4, 16⟩]) ++
        if fld cmd 0xC 4 = 0 then [] else [⟨fld cmd 3 1, fld cmd 8 4, fld cmd 0xC 4⟩]) = {} →
      ((s.hw.pen c.p).bound.find? fun b => b.frame == c.frame && b.pos == fld cmd 1 1) = none →
      (s.hw.pen c.p).emits.contains (c.frame, fld cmd 1 1) = true →
      exec (.cribEmit n i cmd) s = .next { s with hw := ((s.hw.upset i.upsets).metPorts n 6 i).logCx c E.CRIB_DUP 0 0xFFFF (fld cmd 1 1) })

/-- The end of training of a herd-mode link whose peer is another module shows the peer and brings the link UP at the widest width
of 8, 6, 4, 2, 1 that its lanes and its target allow, with the lanes that failed shown; a peer that reports this DEVICE_ID or
0xFFFF leaves the link DOWN. A network-mode link with all eight lanes is UP at width 8. Training without an end is DOWN after 20
ms, and a DOWN link of a port trains again 100 ms later, to come back no wider; a RETRAIN write trains at the widest width. No
memory and no other register changes but the error log and the counters of sent packets. -/
def Obligations.LinkTraining : Prop :=
  (∀ (l : LinkId) (lanes : Fin 256) (peerDev : BitVec 16) (peerLink : Fin 32) (split : Bool) (s : State) (p : PortDef) (w : Nat),
      s.hw.portOf l = some p →
      p.mode ≠ 1 →
      (s.hw.get R.LNK_STATUS_STATE l = 1 ∨ s.hw.get R.LNK_STATUS_STATE l = 3) →
      peerDev.toNat ≠ 0xFFFF →
      peerDev.toNat ≠ s.hw.devId →
      ([8, 6, 4, 2, 1].find? fun v => decide (v ≤ popcount 8 lanes.val) && decide (v ≤ (s.hw.link l).target)) = some w →
      ∃ t, exec (.linkTrained l lanes peerDev peerLink split) s = .next t ∧
        t.hw.get R.LNK_STATUS_STATE l = 2 ∧
        t.hw.get R.LNK_STATUS_WIDTH l = w ∧
        t.hw.get R.LNK_STATUS_LANE_FAIL l = 255 - lanes.val ∧
        t.hw.get R.LNK_PEER_PEER_DEV l = peerDev.toNat ∧
        t.hw.get R.LNK_PEER_PEER_LINK l = peerLink.val ∧
        t.hw.mgt = s.hw.mgt ∧
        State.Frame ([R.LNK_STATUS_LANE_FAIL.key l, R.LNK_PEER_PEER_DEV.key l, R.LNK_PEER_PEER_LINK.key l] ++ linkKeys l ++ txKeys) s t) ∧
  (∀ (l : LinkId) (lanes : Fin 256) (peerDev : BitVec 16) (peerLink : Fin 32) (split : Bool) (s : State) (p : PortDef),
      s.hw.portOf l = some p →
      p.mode ≠ 1 →
      (s.hw.get R.LNK_STATUS_STATE l = 1 ∨ s.hw.get R.LNK_STATUS_STATE l = 3) →
      (peerDev.toNat = 0xFFFF ∨ peerDev.toNat = s.hw.devId) →
      ∃ t, exec (.linkTrained l lanes peerDev peerLink split) s = .next t ∧
        t.hw.get R.LNK_STATUS_STATE l = 4 ∧
        t.hw.get R.LNK_STATUS_WIDTH l = 0 ∧
        t.hw.get R.LNK_EVENTS_DOWN l = min (s.hw.get R.LNK_EVENTS_DOWN l + 1) 65535 ∧
        t.hw.get R.LNK_PEER_PEER_DEV l = peerDev.toNat ∧
        t.hw.get R.LNK_PEER_PEER_LINK l = peerLink.val ∧
        State.Frame ([R.LNK_EVENTS_DOWN.key l, R.LNK_PEER_PEER_DEV.key l, R.LNK_PEER_PEER_LINK.key l] ++ logKeys ++ linkKeys l) s t) ∧
  (∀ (l : LinkId) (lanes : Fin 256) (peerDev : BitVec 16) (peerLink : Fin 32) (split : Bool) (s : State) (p : PortDef),
      s.hw.portOf l = some p →
      p.mode = 1 →
      (s.hw.get R.LNK_STATUS_STATE l = 1 ∨ s.hw.get R.LNK_STATUS_STATE l = 3) →
      popcount 8 lanes.val = 8 →
      ∃ t, exec (.linkTrained l lanes peerDev peerLink split) s = .next t ∧
        t.hw.get R.LNK_STATUS_STATE l = 2 ∧
        t.hw.get R.LNK_STATUS_WIDTH l = 8 ∧
        t.hw.get R.LNK_STATUS_LANE_FAIL l = 0 ∧
        t.hw.get R.LNK_STATUS_SPLIT l = (if split then 1 else 0) ∧
        State.Frame ([R.LNK_STATUS_LANE_FAIL.key l, R.LNK_STATUS_SPLIT.key l] ++ linkKeys l ++ txKeys) s t) ∧
  (∀ (l : LinkId) (s : State),
      s.hw.get R.LNK_STATUS_STATE l = 1 →
      ∃ t, exec (.linkTrainTimeout l) s = .next t ∧
        t.hw.get R.LNK_STATUS_STATE l = 4 ∧
        t.hw.get R.LNK_EVENTS_DOWN l = min (s.hw.get R.LNK_EVENTS_DOWN l + 1) 65535 ∧
        t.hw.clk.now = max s.hw.clk.now ((s.hw.link l).since + 2000000) ∧
        State.Frame ([R.LNK_EVENTS_DOWN.key l] ++ logKeys ++ linkKeys l) s t) ∧
  (∀ (l : LinkId) (s : State) (p : PortDef),
      s.hw.get R.LNK_STATUS_STATE l = 4 →
      s.hw.portOf l = some p →
      ∃ t, exec (.linkRetry l) s = .next t ∧
        t.hw.get R.LNK_STATUS_STATE l = 1 ∧
        t.hw.clk.now = max s.hw.clk.now ((s.hw.link l).since + 10000000) ∧
        (t.hw.link l).since = t.hw.clk.now ∧
        (t.hw.link l).target = (s.hw.link l).target ∧
        State.Frame ([] ++ linkKeys l) s t) ∧
  (∀ (l : LinkId) (s : State),
      s.hw.hostUp = true →
      s.hw.get R.LNK_STATUS_STATE l ≠ 0 →
      ∃ t, exec (.linkRetrain l) s = .next t ∧
        t.hw.get R.LNK_STATUS_STATE l = (if s.hw.get R.LNK_STATUS_STATE l = 2 then 3 else 1) ∧
        t.hw.get R.LNK_STATUS_WIDTH l = 0 ∧
        t.hw.get R.LNK_CTRL_RETRAIN l = 0 ∧
        (t.hw.link l).target = 8 ∧
        State.Frame ([R.LNK_CTRL_RETRAIN.key l] ++ linkKeys l) s t)

/-- A lane that fails takes a herd-mode link that is UP to RETRAIN at the next lower width its healthy lanes allow, and counts a
degradation; with no lane left the link is DOWN. A network-mode link loses the interface of the lane: of two the other stays UP
with four lanes, else the link is DOWN; the loss is counted. A hang of a herd-mode link with traffic waiting is counted and
retrains the link, no wider; a second within a second takes it DOWN, as any hang takes a network-mode link. Credits come back up
to 4,096 units of 64 bytes, and what waits goes on; an uncorrectable codeword is counted; a COMMIT write asks for the shadow
table at the next frame start. Nothing else changes. -/
def Obligations.LinkFaults : Prop :=
  (∀ (l : LinkId) (lane : Fin 8) (s : State) (v : Nat),
      s.hw.get R.LNK_STATUS_STATE l = 2 →
      s.hw.get R.LNK_STATUS_MODE l = 0 →
      ([8, 6, 4, 2, 1].find? fun v => decide (v < s.hw.get R.LNK_STATUS_WIDTH l) &&
      decide (v + popcount 8 (s.hw.get R.LNK_STATUS_LANE_FAIL l ||| 2 ^ lane.val) ≤ 8)) = some v →
      ∃ t, exec (.laneFail l lane) s = .next t ∧
        t.hw.get R.LNK_STATUS_STATE l = 3 ∧
        t.hw.get R.LNK_STATUS_LANE_FAIL l = (s.hw.get R.LNK_STATUS_LANE_FAIL l ||| 2 ^ lane.val) % 256 ∧
        (t.hw.link l).target = v ∧
        t.hw.get R.LNK_EVENTS_DEGRADE l = min (s.hw.get R.LNK_EVENTS_DEGRADE l + 1) 65535 ∧
        State.Frame ([R.LNK_STATUS_LANE_FAIL.key l, R.LNK_EVENTS_DEGRADE.key l] ++ logKeys ++ linkKeys l) s t) ∧
  (∀ (l : LinkId) (lane : Fin 8) (s : State),
      s.hw.get R.LNK_STATUS_STATE l = 2 →
      s.hw.get R.LNK_STATUS_MODE l = 0 →
      s.hw.get R.LNK_STATUS_WIDTH l ≤ 1 →
      ∃ t, exec (.laneFail l lane) s = .next t ∧
        t.hw.get R.LNK_STATUS_STATE l = 4 ∧
        t.hw.get R.LNK_STATUS_LANE_FAIL l = (s.hw.get R.LNK_STATUS_LANE_FAIL l ||| 2 ^ lane.val) % 256 ∧
        t.hw.get R.LNK_EVENTS_DOWN l = min (s.hw.get R.LNK_EVENTS_DOWN l + 1) 65535 ∧
        State.Frame ([R.LNK_STATUS_LANE_FAIL.key l, R.LNK_EVENTS_DOWN.key l] ++ logKeys ++ linkKeys l) s t) ∧
  (∀ (l : LinkId) (lane : Fin 8) (s : State),
      s.hw.get R.LNK_STATUS_STATE l = 2 →
      s.hw.get R.LNK_STATUS_MODE l = 1 →
      ∃ t, exec (.laneFail l lane) s = .next t ∧
        t.hw.get R.LNK_EVENTS_DOWN l = min (s.hw.get R.LNK_EVENTS_DOWN l + 1) 65535 ∧
        t.hw.get R.LNK_STATUS_LANE_FAIL l = (s.hw.get R.LNK_STATUS_LANE_FAIL l ||| 2 ^ lane.val) % 256 ∧
        (if s.hw.is R.LNK_STATUS_SPLIT l = true ∧ s.hw.get R.LNK_STATUS_WIDTH l = 8 then t.hw.get R.LNK_STATUS_STATE l = 2 ∧ t.hw.get R.LNK_STATUS_WIDTH l = 4 else t.hw.get R.LNK_STATUS_STATE l = 4 ∧ t.hw.get R.LNK_STATUS_WIDTH l = 0) ∧
        State.Frame ([R.LNK_STATUS_LANE_FAIL.key l, R.LNK_EVENTS_DOWN.key l] ++ logKeys ++ linkKeys l) s t) ∧
  (∀ (l : LinkId) (s : State),
      s.hw.get R.LNK_STATUS_STATE l = 2 →
      s.hw.get R.LNK_STATUS_MODE l = 1 →
      ∃ t, exec (.linkHang l) s = .next t ∧
        t.hw.get R.LNK_HANG_HANGS l = min (s.hw.get R.LNK_HANG_HANGS l + 1) 65535 ∧
        t.hw.get R.LNK_STATUS_STATE l = 4 ∧
        t.hw.get R.LNK_EVENTS_DOWN l = min (s.hw.get R.LNK_EVENTS_DOWN l + 1) 65535 ∧
        t.hw.clk.now = max s.hw.clk.now (s.hw.quietFrom l + 100 * s.hw.get R.ZLT_TWD_TWD_US) ∧
        State.Frame ([R.LNK_HANG_HANGS.key l, R.LNK_EVENTS_DOWN.key l] ++ logKeys ++ linkKeys l) s t) ∧
  (∀ (l : LinkId) (s : State),
      s.hw.get R.LNK_STATUS_STATE l = 2 →
      s.hw.get R.LNK_STATUS_MODE l = 0 →
      s.hw.linkWaiting l = true →
      ∃ t, exec (.linkHang l) s = .next t ∧
        t.hw.get R.LNK_HANG_HANGS l = min (s.hw.get R.LNK_HANG_HANGS l + 1) 65535 ∧
        ((s.hw.link l).hung = none → t.hw.get R.LNK_STATUS_STATE l = 3) ∧
        t.hw.clk.now = max s.hw.clk.now (s.hw.quietFrom l + 100 * s.hw.get R.ZLT_TWD_TWD_US) ∧
        (∀ t0, (s.hw.link l).hung = some t0 → t.hw.get R.LNK_STATUS_STATE l = if t.hw.clk.now < t0 + 100000000 then 4 else 3) ∧
        (t.hw.link l).hung = some t.hw.clk.now ∧
        (s.hw.get R.LNK_STATUS_WIDTH l ≠ 0 → (t.hw.link l).target = s.hw.get R.LNK_STATUS_WIDTH l) ∧
        State.Frame ([R.LNK_HANG_HANGS.key l, R.LNK_EVENTS_DOWN.key l] ++ logKeys ++ linkKeys l) s t) ∧
  (∀ (l : LinkId) (tc : Fin 3) (n : BitVec 16) (s : State),
      s.hw.get R.LNK_STATUS_STATE l = 2 →
      s.hw.get R.LNK_STATUS_MODE l = 0 →
      s.hw.dev.txq = [] →
      ∃ t, exec (.linkCreditRx l tc n) s = .next t ∧
        (t.hw.link l).credit = (s.hw.link l).credit.set tc.val (min 4096 ((s.hw.link l).credit.getD tc.val 0 + n.toNat)) ∧
        t.hw.regs = s.hw.regs ∧
        State.Frame ([]) s t) ∧
  (∀ (l : LinkId) (tc : Fin 3) (n : BitVec 16) (s : State),
      s.hw.get R.LNK_STATUS_STATE l = 2 →
      s.hw.get R.LNK_STATUS_MODE l = 0 →
      ∃ t, exec (.linkCreditRx l tc n) s = .next t ∧
        t.hw.mgt = s.hw.mgt ∧
        State.Frame ([] ++ txKeys) s t) ∧
  (∀ (l : LinkId) (s : State),
      s.hw.get R.LNK_STATUS_STATE l = 2 →
      ∃ t, exec (.fecUncorrectable l) s = .next t ∧
        t.hw.get R.LNK_FEC_UNCORR_UNCORR l = min (s.hw.get R.LNK_FEC_UNCORR_UNCORR l + 1) (2 ^ 32 - 1) ∧
        State.Frame ([R.LNK_FEC_UNCORR_UNCORR.key l]) s t) ∧
  (∀ (s : State),
      s.hw.hostUp = true →
      ∃ t, exec (.routeCommit) s = .next t ∧
        t.hw.get R.LNK_RT_CTRL_COMMIT 0 = 1 ∧
        State.Frame ([R.LNK_RT_CTRL_COMMIT.key 0]) s t)

/-- A new DATA packet that passes the checks and names a scratchpad lands there: its bytes are written, no other byte changes, and
packets and bytes are counted; the last packet of a message with ARR_EN raises its counter and completes its slot. One that
fails checks 3 to 5 is counted as denied and writes nothing. An ACK retires what it covers; the ACK timer sends what is due and
owes nothing more; a packet whose RTO is over is sent again and counted unless it still waits in its queue, or, after RETRY_MAX
+ 1 sends or where its network-mode port has no EGRESS entry for its destination, fails its message; ten microseconds without a
congestion echo raise a rate by 1 Gbit/s up to its cap. -/
def Obligations.TransportPackets : Prop :=
  (∀ (l : LinkId) (raw : Bytes) (udpOk : Bool) (ce : Bool) (s : State) (p : Pkt) (met : Ports) (n : Nat),
      s.hw.Reads l raw udpOk p →
      s.hw.IsNew p →
      p.typ = 1 →
      (s.hw.seen l raw ce p).zltAllowed p = true →
      s.hw.penSpd p.pen p.addr = some n →
      s.hw.is R.SPD_STATUS_ZEROING n = false →
      ((s.hw.dev.rxm.any fun m => m.is p) = true ∨ s.hw.dev.rxm.length < 8192) →
      ∃ t, exec (.zltDataRx l ⟨raw, met⟩ udpOk ce) s = .next t ∧
        (∀ i, i < p.payload.length → t.devByte (p.addr + i) = p.payload.getD i 0) ∧
        State.BytesBut (fun a => p.addr ≤ a ∧ a < p.addr + p.payload.length) s t ∧
        t.hw.get R.ZLT_RX_PKTS_PKTS 0 = min (s.hw.get R.ZLT_RX_PKTS_PKTS 0 + 1) (2 ^ 64 - 1) ∧
        t.hw.get R.ZLT_PEN_RX_BYTES_BYTES p.pen = min (s.hw.get R.ZLT_PEN_RX_BYTES_BYTES p.pen + p.payload.length) (2 ^ 64 - 1) ∧
        t.hw.get R.LNK_RX_BYTES_BYTES l = min (s.hw.get R.LNK_RX_BYTES_BYTES l + raw.length) (2 ^ 64 - 1) ∧
        t.pending = s.pending ∧
        Hw.RegsBut (rxKeys l ++ landKeys n ++ metKeys n ++ logKeys ++ [R.ZLT_PEN_RX_BYTES_BYTES.key p.pen, R.ZLT_OPEN_OPEN.key 0]) s.hw t.hw) ∧
  (∀ (l : LinkId) (raw : Bytes) (udpOk : Bool) (ce : Bool) (s : State) (p : Pkt) (met : Ports) (n : Nat),
      s.hw.Reads l raw udpOk p →
      s.hw.IsNew p →
      p.typ = 1 →
      (s.hw.seen l raw ce p).zltAllowed p = true →
      s.hw.penSpd p.pen p.addr = some n →
      s.hw.is R.SPD_STATUS_ZEROING n = false →
      ((s.hw.dev.rxm.any fun m => m.is p) = true ∨ s.hw.dev.rxm.length < 8192) →
      p.npkt = 1 →
      p.flags % 2 = 1 →
      p.slot < 4096 →
      (s.hw.stl n).waits = [] →
      (s.hw.dev.rxm.any fun m => m.is p) = false →
      ∃ t, exec (.zltDataRx l ⟨raw, met⟩ udpOk ce) s = .next t ∧
        t.hw.arr n (p.ctr % 64) = (s.hw.arr n (p.ctr % 64) + 1) % 2 ^ 32 ∧
        (t.hw.slot n p.slot).full = true ∧
        (t.hw.slot n p.slot).gen = ((s.hw.slot n p.slot).gen + 1) % 4 ∧
        (t.hw.dev.rxm.any fun m => m.is p) = false) ∧
  (∀ (l : LinkId) (raw : Bytes) (udpOk : Bool) (ce : Bool) (s : State) (p : Pkt) (met : Ports),
      s.hw.Reads l raw udpOk p →
      s.hw.IsNew p →
      p.typ = 1 →
      (s.hw.seen l raw ce p).zltAllowed p = false →
      ∃ t, exec (.zltDataRx l ⟨raw, met⟩ udpOk ce) s = .next t ∧
        t.hw.get R.ZLT_DENY_INBOUND 0 = min (s.hw.get R.ZLT_DENY_INBOUND 0 + 1) 65535 ∧
        t.hw.get R.ZLT_RX_PKTS_PKTS 0 = s.hw.get R.ZLT_RX_PKTS_PKTS 0 ∧
        State.Frame ([R.ZLT_DENY_INBOUND.key 0, R.ZLT_OPEN_OPEN.key 0] ++ logKeys ++ rxKeys l) s t) ∧
  (∀ (l : LinkId) (raw : Bytes) (udpOk : Bool) (ce : Bool) (s : State) (p : Pkt),
      s.hw.Reads l raw udpOk p →
      p.typ = 2 →
      p.flags = 0 →
      (∀ kv ∈ s.hw.dev.stls, ∀ d ∈ kv.2.det, d.2.op ≠ 0x14) →
      (∀ q ∈ s.hw.penList, ∀ b ∈ (s.hw.pen q).bound, b.held = false) →
      ∃ t, exec (.zltAckRx l raw udpOk ce) s = .next t ∧
        (t.hw.flow (flowKey p.src p.tc)).unacked = (s.hw.flow (flowKey p.src p.tc)).unacked.filter (fun x => !(acked p x.pkt.psn)) ∧
        State.Frame ([] ++ rxKeys l) s t) ∧
  (∀ (d : BitVec 12) (tc : Fin 3) (s : State) (port : Nat),
      (s.hw.rxFlow (flowKey d.toNat tc)).unack ≠ 0 →
      s.hw.ackPort d.toNat tc = some port →
      s.hw.maySend d.toNat port = true →
      ∃ t, exec (.zltAckTimer d tc) s = .next t ∧
        t.hw.clk.now = max s.hw.clk.now (s.hw.rxFlow (flowKey d.toNat tc)).due ∧
        (t.hw.rxFlow (flowKey d.toNat tc)).unack = 0 ∧
        (t.hw.rxFlow (flowKey d.toNat tc)).ece = false ∧
        (∃ a : Pkt, a.typ = 2 ∧ a.tc = tc ∧ a.dst = d.toNat ∧ a.src = s.hw.devId ∧ a.psn = (s.hw.rxFlow (flowKey d.toNat tc)).next ∧
        ((port, a) ∈ t.hw.dev.txq ∨ ∃ l, Out.pkt l a ∈ t.hw.out)) ∧
        State.Frame ([] ++ txKeys) s t) ∧
  (∀ (d : BitVec 12) (tc : Fin 3) (psn : BitVec 32) (s : State) (x : TxPk),
      (s.hw.flow (flowKey d.toNat tc)).unacked.find? (fun y => y.pkt.psn == psn.toNat) = some x →
      x.tries ≤ s.hw.get R.ZLT_CFG_RETRY_MAX 0 →
      s.hw.devId ≠ 0xFFFF →
      s.hw.maySend x.pkt.dst x.port = true →
      (∀ kv ∈ s.hw.dev.stls, ∀ d ∈ kv.2.det, d.2.op ≠ 0x14) →
      (∀ q ∈ s.hw.penList, ∀ b ∈ (s.hw.pen q).bound, b.held = false) →
      ∃ t, exec (.zltRetransmit d tc psn) s = .next t ∧
        t.hw.clk.now = max s.hw.clk.now (x.sent + if s.hw.network x.port then 100 * s.hw.get R.ZLT_CFG_RTO_US 0 else 2000) ∧
        t.hw.get R.ZLT_RETX_RETX 0 = (if s.hw.queued x.pkt = true then s.hw.get R.ZLT_RETX_RETX 0 else min (s.hw.get R.ZLT_RETX_RETX 0 + 1) (2 ^ 32 - 1)) ∧
        (t.hw.flow (flowKey d.toNat tc)).unacked = (s.hw.flow (flowKey d.toNat tc)).unacked.map (fun y =>
        if y.pkt.psn = psn.toNat then { y with sent := t.hw.clk.now, tries := y.tries + 1 } else y) ∧
        State.Frame ([R.ZLT_RETX_RETX.key 0] ++ txKeys) s t) ∧
  (∀ (d : BitVec 12) (tc : Fin 3) (psn : BitVec 32) (s : State) (x : TxPk),
      (s.hw.flow (flowKey d.toNat tc)).unacked.find? (fun y => y.pkt.psn == psn.toNat) = some x →
      s.hw.get R.ZLT_CFG_RETRY_MAX 0 < x.tries →
      x.pkt.typ = 1 →
      x.pkt.dst = d.toNat →
      x.pkt.tc = tc.val →
      s.hw.devId ≠ 0xFFFF →
      (∀ kv ∈ s.hw.dev.stls, ∀ d ∈ kv.2.det, d.2.op ≠ 0x14) →
      (∀ q ∈ s.hw.penList, ∀ b ∈ (s.hw.pen q).bound, b.held = false) →
      ∃ t, exec (.zltRetransmit d tc psn) s = .next t ∧
        t.hw.get R.ZLT_FAIL_FAILED 0 = min (s.hw.get R.ZLT_FAIL_FAILED 0 + 1) 65535 ∧
        (∀ y ∈ (t.hw.flow (flowKey d.toNat tc)).unacked, y.pkt.typ ≠ 2 → flowKey y.pkt.dst y.pkt.tc = flowKey d.toNat tc → y.pkt.msg ≠ x.pkt.msg) ∧
        State.Frame ([R.ZLT_FAIL_FAILED.key 0] ++ logKeys) s t) ∧
  (∀ (d : BitVec 12) (tc : Fin 3) (psn : BitVec 32) (s : State) (x : TxPk),
      (s.hw.flow (flowKey d.toNat tc)).unacked.find? (fun y => y.pkt.psn == psn.toNat) = some x →
      x.tries ≤ s.hw.get R.ZLT_CFG_RETRY_MAX 0 →
      s.hw.maySend x.pkt.dst x.port = false →
      x.pkt.typ = 1 →
      x.pkt.dst = d.toNat →
      x.pkt.tc = tc.val →
      s.hw.devId ≠ 0xFFFF →
      (∀ kv ∈ s.hw.dev.stls, ∀ d ∈ kv.2.det, d.2.op ≠ 0x14) →
      (∀ q ∈ s.hw.penList, ∀ b ∈ (s.hw.pen q).bound, b.held = false) →
      ∃ t, exec (.zltRetransmit d tc psn) s = .next t ∧
        t.hw.get R.ZLT_FAIL_FAILED 0 = min (s.hw.get R.ZLT_FAIL_FAILED 0 + 1) 65535 ∧
        t.hw.get R.ZLT_DENY_EGRESS 0 = min (s.hw.get R.ZLT_DENY_EGRESS 0 + 1) 65535 ∧
        (∀ y ∈ (t.hw.flow (flowKey d.toNat tc)).unacked, y.pkt.typ ≠ 2 → flowKey y.pkt.dst y.pkt.tc = flowKey d.toNat tc → y.pkt.msg ≠ x.pkt.msg) ∧
        State.Frame ([R.ZLT_FAIL_FAILED.key 0, R.ZLT_DENY_EGRESS.key 0] ++ logKeys) s t) ∧
  (∀ (d : BitVec 12) (s : State) (port : Nat) (e : Egress),
      s.hw.route d.toNat = some port →
      s.hw.egress d.toNat port = some e →
      ∃ t, exec (.rateRecovery d) s = .next t ∧
        (t.hw.rateOf d.toNat).1 = min (25000 * fld e.data 3 1) ((s.hw.rateOf d.toNat).1 + 1000) ∧
        t.hw.clk.now = max s.hw.clk.now ((s.hw.rateOf d.toNat).2.2 + 1000) ∧
        State.Frame ([]) s t)

/-- A ZLT_PUT of one packet to a herd-mode destination with room in the buffer appends that packet, with the bytes of its source and
the flow's next PSN, to the unacknowledged ones, and its detached wait is over. A PEG_SYNC adds one local arrival; where that
completes the set of a root without children the occurrence releases at once, its record is written and SEQ advances. A child's
arrival is noted; a release for the current SEQ advances SEQ and shows LAST_DEV and REASON; a group whose release does not come
in time is BROKEN and counted. Enabling a group, or resetting one, enabled or not, makes it ACTIVE at occurrence 1 with no
arrivals and all its counts clear; enabling a BROKEN group leaves it BROKEN. A configuration write takes effect; while an
occurrence is in progress all of these only set REJECT. -/
def Obligations.PutsAndPegs : Prop :=
  (∀ (n : StallId) (i : Issue) (cmd : Bytes) (s : State) (c : Cx) (d : Nat) (port : Nat),
      ((s.hw.upset i.upsets).metPorts n 6 i).cx n 6 i = some c →
      putBad ((s.hw.upset i.upsets).metPorts n 6 i) cmd = false →
      ((s.hw.upset i.upsets).metPorts n 6 i).extFault c [⟨fld cmd 2 1, fld cmd 8 4, fld cmd 0xC 4⟩] = {} →
      ((s.hw.upset i.upsets).metPorts n 6 i).freeSlot c.n c.u0 = some d →
      fld cmd 0xC 4 ≤ 4096 →
      ((s.hw.upset i.upsets).metPorts n 6 i).penRoute (fld cmd 4 2) = some port →
      s.hw.network port = false →
      s.hw.bufRoom port (44 + fld cmd 0xC 4) = true →
      ∃ t, exec (.zltPut n i cmd) s = .next t ∧
        (∃ x : TxPk, (t.hw.flow (flowKey (fld cmd 4 2) (if bit (fld cmd 1 1) 1 then 0 else 2))).unacked =
          (s.hw.flow (flowKey (fld cmd 4 2) (if bit (fld cmd 1 1) 1 then 0 else 2))).unacked ++ [x] ∧
        x.port = port ∧ x.pen = c.p ∧ x.tries = 1 ∧ x.pkt.typ = 1 ∧ x.pkt.npkt = 1 ∧ x.pkt.idx = 0 ∧ x.pkt.dst = fld cmd 4 2 ∧
        x.pkt.pen = fld cmd 6 1 ∧ x.pkt.addr = fld cmd 0x10 8 ∧ x.pkt.slot = fld cmd 0x18 2 ∧ x.pkt.ctr = fld cmd 3 1 ∧
        x.pkt.psn = (s.hw.flow (flowKey (fld cmd 4 2) (if bit (fld cmd 1 1) 1 then 0 else 2))).psn ∧
        x.pkt.payload = (List.range (fld cmd 0xC 4)).map fun j => s.devByte (s.hw.extAddr n 6 c.tk ⟨fld cmd 2 1, fld cmd 8 4, fld cmd 0xC 4⟩ + j)) ∧
        ((Tbl.find? d (t.hw.stl n).det).map fun x => (x.waits, x.op)) = some (0, 0x14) ∧
        State.BytesBut (fun _ => False) s t ∧
        t.pending = s.pending) ∧
  (∀ (n : StallId) (i : Issue) (cmd : Bytes) (s : State) (c : Cx) (d : Nat),
      ((s.hw.upset i.upsets).metPorts n 6 i).cx n 6 i = some c →
      syncBad ((s.hw.upset i.upsets).metPorts n 6 i) c.p cmd = false →
      ((s.hw.upset i.upsets).metPorts n 6 i).extFault c (if fld cmd 4 4 = 0xFFFFFFFF then [] else [⟨fld cmd 2 1, fld cmd 4 4, 16⟩]) = {} →
      ((s.hw.upset i.upsets).metPorts n 6 i).freeSlot c.n c.u0 = some d →
      s.hw.get R.PEG_GSTATUS_STATE (fld cmd 1 1) = 1 →
      (s.hw.peg (fld cmd 1 1)).locals + 1 < s.hw.get R.PEG_GCFG_LOCAL_N (fld cmd 1 1) →
      ∃ t, exec (.pegSync n i cmd) s = .next t ∧
        (t.hw.peg (fld cmd 1 1)).locals = (s.hw.peg (fld cmd 1 1)).locals + 1 ∧
        t.hw.get R.PEG_GSTATUS_LOCAL_COUNT (fld cmd 1 1) = ((s.hw.peg (fld cmd 1 1)).locals + 1) % 256 ∧
        ((Tbl.find? d (t.hw.stl n).det).map fun x => (x.waits, x.op, x.key)) = some (1, 0x15, fld cmd 1 1) ∧
        State.BytesBut (fun _ => False) s t ∧
        t.pending = s.pending) ∧
  (∀ (n : StallId) (i : Issue) (cmd : Bytes) (s : State) (c : Cx) (d : Nat),
      ((s.hw.upset i.upsets).metPorts n 6 i).cx n 6 i = some c →
      syncBad ((s.hw.upset i.upsets).metPorts n 6 i) c.p cmd = false →
      ((s.hw.upset i.upsets).metPorts n 6 i).extFault c [⟨fld cmd 2 1, fld cmd 4 4, 16⟩] = {} →
      ((s.hw.upset i.upsets).metPorts n 6 i).freeSlot c.n c.u0 = some d →
      fld cmd 4 4 ≠ 0xFFFFFFFF →
      s.hw.get R.PEG_GSTATUS_STATE (fld cmd 1 1) = 1 →
      s.hw.get R.PEG_GCFG_LOCAL_N (fld cmd 1 1) = 1 →
      s.hw.get R.PEG_GCFG_CHILD_COUNT (fld cmd 1 1) = 0 →
      s.hw.get R.PEG_GPARENT_PARENT_DEV (fld cmd 1 1) = 0xFFFF →
      s.hw.peg (fld cmd 1 1) = {} →
      s.hw.pegWaits (fld cmd 1 1) = [] →
      ∃ t, exec (.pegSync n i cmd) s = .next t ∧
        t.hw.get R.PEG_GSEQ_SEQ (fld cmd 1 1) = (s.hw.get R.PEG_GSEQ_SEQ (fld cmd 1 1) + 1) % 2 ^ 32 ∧
        t.hw.get R.PEG_GLAST_LAST_DEV (fld cmd 1 1) = s.hw.devId % 65536 ∧
        t.hw.get R.PEG_GSTATUS_PACE_LIMITER (fld cmd 1 1) = 1 ∧
        ((Tbl.find? d (t.hw.stl n).det).map fun x => (x.waits, x.op)) = some (0, 0x15) ∧
        (∀ j, j < 6 → t.devByte (s.hw.extAddr n 6 c.tk ⟨fld cmd 2 1, fld cmd 4 4, 16⟩ + j) =
        (leBytes 4 (s.hw.get R.PEG_GSEQ_SEQ (fld cmd 1 1)) ++ leBytes 2 s.hw.devId).getD j 0) ∧
        State.BytesBut (fun a => s.hw.extAddr n 6 c.tk ⟨fld cmd 2 1, fld cmd 4 4, 16⟩ ≤ a ∧ a < s.hw.extAddr n 6 c.tk ⟨fld cmd 2 1, fld cmd 4 4, 16⟩ + 16) s t ∧
        t.pending = s.pending) ∧
  (∀ (l : LinkId) (raw : Bytes) (udpOk : Bool) (ce : Bool) (s : State) (p : Pkt) (g : Nat),
      s.hw.Reads l raw udpOk p →
      s.hw.IsNew p →
      p.typ = 3 →
      s.hw.present p.pen = true →
      s.hw.get R.ZLT_JOB_JOB_ID p.pen = p.job →
      p.job ≠ 0 →
      g < 64 →
      (s.hw.taken l raw ce p).pegFind 1 p = some g →
      fld p.payload 4 4 = s.hw.get R.PEG_GSEQ_SEQ g →
      (s.hw.peg g).kids.length + 1 < s.hw.get R.PEG_GCFG_CHILD_COUNT g →
      ∃ t, exec (.pegArrive l raw udpOk ce) s = .next t ∧
        (t.hw.peg g).kids = (s.hw.peg g).kids ++ [p.src] ∧
        (t.hw.peg g).dev = fld p.payload 8 2 ∧
        t.hw.get R.PEG_GSTATUS_CHILD_ARRIVED g = min ((s.hw.peg g).kids.length + 1) 63 ∧
        State.Frame ([R.PEG_GSTATUS_LOCAL_COUNT.key g, R.PEG_GSTATUS_CHILD_ARRIVED.key g] ++ rxKeys l) s t) ∧
  (∀ (l : LinkId) (raw : Bytes) (udpOk : Bool) (ce : Bool) (s : State) (p : Pkt) (g : Nat),
      s.hw.Reads l raw udpOk p →
      s.hw.IsNew p →
      p.typ = 4 →
      s.hw.present p.pen = true →
      s.hw.get R.ZLT_JOB_JOB_ID p.pen = p.job →
      p.job ≠ 0 →
      g < 64 →
      (s.hw.taken l raw ce p).pegFind 1 p = some g →
      fld p.payload 4 4 = s.hw.get R.PEG_GSEQ_SEQ g →
      (s.hw.peg g).kids = [] →
      (s.hw.peg g).locals ≤ s.hw.get R.PEG_GCFG_LOCAL_N g →
      0 < s.hw.get R.PEG_GCFG_LOCAL_N g →
      s.hw.pegWaits g = [] →
      ∃ t, exec (.pegRelease l raw udpOk ce) s = .next t ∧
        t.hw.get R.PEG_GSEQ_SEQ g = (s.hw.get R.PEG_GSEQ_SEQ g + 1) % 2 ^ 32 ∧
        t.hw.get R.PEG_GSTATUS_LAST_REASON g = fld p.payload 0xA 1 % 4 ∧
        t.hw.get R.PEG_GLAST_LAST_DEV g = fld p.payload 8 2 ∧
        t.hw.get R.PEG_GRELEASES_RELEASES g = min (s.hw.get R.PEG_GRELEASES_RELEASES g + 1) (2 ^ 32 - 1) ∧
        State.Frame ([] ++ rxKeys l ++ pegKeys g) s t) ∧
  (∀ (g : GroupId) (s : State) (t0 : Nat),
      s.hw.get R.PEG_GSTATUS_STATE g = 1 →
      (s.hw.peg g).setAt = some t0 →
      s.hw.pegWaits g = [] →
      ∃ t, exec (.peerTimeout g) s = .next t ∧
        t.hw.get R.PEG_GSTATUS_STATE g = 2 ∧
        t.hw.get R.PEG_GCOUNTS_TIMEOUTS g = min (s.hw.get R.PEG_GCOUNTS_TIMEOUTS g + 1) 65535 ∧
        t.hw.clk.now = max s.hw.clk.now (t0 + 100 * if s.hw.get R.PEG_GTO_PEER_TO_US g = 0 then 4 * s.hw.tFrame else s.hw.get R.PEG_GTO_PEER_TO_US g) ∧
        ((s.hw.pen (s.hw.get R.PEG_GCFG_PEN g)).bound.filter fun b => b.frame == s.hw.clk.frame).all (fun b => b.codes.contains Crib.PEER_TIMEOUT ||
        ((t.hw.pen (s.hw.get R.PEG_GCFG_PEN g)).bound.any fun x => x.pos == b.pos && x.codes.contains Crib.PEER_TIMEOUT)) = true ∧
        State.Frame ([R.PEG_GSTATUS_LOCAL_COUNT.key g, R.PEG_GSTATUS_CHILD_ARRIVED.key g, R.PEG_GSTATUS_STATE.key g, R.PEG_GCOUNTS_TIMEOUTS.key g] ++ logKeys) s t) ∧
  (∀ (g : GroupId) (s : State),
      s.hw.hostUp = true →
      s.hw.pegBusy g = false →
      s.hw.is R.PEG_GCFG_ENABLE g = false →
      s.hw.get R.PEG_GSTATUS_STATE g ≠ 2 →
      ∃ t, exec (.pegEnable g) s = .next t ∧
        t.hw.get R.PEG_GCFG_ENABLE g = 1 ∧
        t.hw.get R.PEG_GSTATUS_STATE g = 1 ∧
        t.hw.get R.PEG_GSEQ_SEQ g = 1 ∧
        t.hw.get R.PEG_GCFG_RESET g = 0 ∧
        t.hw.get R.PEG_GCFG_PEN g = s.hw.get R.PEG_GCFG_PEN g % 16 ∧
        (t.hw.peg g).locals = 0 ∧ (t.hw.peg g).kids = [] ∧ (t.hw.peg g).setAt = none ∧
        (∀ f ∈ [R.PEG_GCOUNTS_PACED, R.PEG_GCOUNTS_TIMEOUTS, R.PEG_GRELEASES_RELEASES, R.PEG_GWAIT_US_WAIT, R.PEG_GERR_STALE, R.PEG_GERR_SEQ_ERR],
        t.hw.get f g = 0) ∧
        State.Frame ([] ++ pegKeys g ++ pegCfgKeys g ++ pegCountKeys g) s t) ∧
  (∀ (g : GroupId) (s : State),
      s.hw.hostUp = true →
      s.hw.pegBusy g = false →
      s.hw.is R.PEG_GCFG_ENABLE g = false →
      s.hw.get R.PEG_GSTATUS_STATE g = 2 →
      ∃ t, exec (.pegEnable g) s = .next t ∧
        t.hw.get R.PEG_GCFG_ENABLE g = 1 ∧
        t.hw.get R.PEG_GSTATUS_STATE g = 2 ∧
        t.hw.peg g = s.hw.peg g ∧
        State.Frame ([] ++ pegCfgKeys g) s t) ∧
  (∀ (g : GroupId) (s : State),
      s.hw.hostUp = true →
      s.hw.pegBusy g = false →
      ∃ t, exec (.pegReset g) s = .next t ∧
        t.hw.get R.PEG_GCFG_ENABLE g = s.hw.get R.PEG_GCFG_ENABLE g % 2 ∧
        t.hw.get R.PEG_GSTATUS_STATE g = 1 ∧
        t.hw.get R.PEG_GSEQ_SEQ g = 1 ∧
        t.hw.get R.PEG_GCFG_RESET g = 0 ∧
        t.hw.get R.PEG_GCFG_PEN g = s.hw.get R.PEG_GCFG_PEN g % 16 ∧
        (t.hw.peg g).locals = 0 ∧ (t.hw.peg g).kids = [] ∧ (t.hw.peg g).setAt = none ∧
        (∀ f ∈ [R.PEG_GCOUNTS_PACED, R.PEG_GCOUNTS_TIMEOUTS, R.PEG_GRELEASES_RELEASES, R.PEG_GWAIT_US_WAIT, R.PEG_GERR_STALE, R.PEG_GERR_SEQ_ERR],
        t.hw.get f g = 0) ∧
        State.Frame ([] ++ pegKeys g ++ pegCfgKeys g ++ pegCountKeys g) s t) ∧
  (∀ (g : GroupId) (s : State),
      s.hw.hostUp = true →
      s.hw.pegBusy g = true →
      ∃ t, exec (.pegReset g) s = .next t ∧
        t.hw.get R.PEG_GSTATUS_REJECT g = 1 ∧
        t.hw.peg g = s.hw.peg g ∧
        State.Frame ([R.PEG_GSTATUS_REJECT.key g]) s t) ∧
  (∀ (g : GroupId) (r : Fin 4) (v : BitVec 32) (s : State),
      s.hw.hostUp = true →
      ∃ t, exec (.pegConfigWrite g r v) s = .next t ∧
        (if s.hw.pegBusy g = true then t.hw.get R.PEG_GSTATUS_REJECT g = 1 ∧ t.hw.get R.PEG_GSEQ_SEQ g = s.hw.get R.PEG_GSEQ_SEQ g
        else if r.val = 0 then t.hw.get R.PEG_GCFG_ENABLE g = v.toNat % 2 ∧ t.hw.get R.PEG_GCFG_PEN g = bits v.toNat 2 4 ∧
          t.hw.get R.PEG_GCFG_LOCAL_N g = bits v.toNat 6 8 ∧ t.hw.get R.PEG_GCFG_CHILD_COUNT g = bits v.toNat 14 6
        else if r.val = 1 then t.hw.get R.PEG_GPARENT_PARENT_DEV g = v.toNat % 65536
        else if r.val = 2 then t.hw.get R.PEG_GTAG_GROUP_TAG g = v.toNat
        else t.hw.get R.PEG_GTO_PEER_TO_US g = v.toNat) ∧
        State.Frame ([] ++ pegKeys g ++ pegCfgKeys g ++ pegCountKeys g) s t)

/-- A HELLO with the pair tag pairs the modules: with equal descriptor digests two UNPAIRED pens become SYNCING, active by
ACTIVE_MASK, with others the pen enters MISMATCH. Two SOLO pens do not pair: SPLIT is set. A heartbeat notes that the partner
lives and, with an unequal service digest, takes the pen to MISMATCH. A commit is sent once its packets are; its ACK shows its
number, lets its freed pages be allocated and, after the bulk copy, makes the pen MIRRORED. A SHADOW pen whose partner is lost
takes over and is suspended; a MIRRORED one goes on alone; DEMOTE starts the drain and DISABLING of the pen's functions; the
bulk copy ends with the next commit number noted. -/
def Obligations.YokePairing : Prop :=
  (∀ (l : LinkId) (raw : Bytes) (udpOk : Bool) (ce : Bool) (s : State) (p : Pkt) (q : Nat),
      s.hw.Reads l raw udpOk p →
      s.hw.IsNew p →
      p.typ = 7 →
      s.hw.isYoke l 7 1 p = true →
      fld p.payload 1 1 = q →
      s.hw.yoked q = true →
      s.hw.noneWhole = true →
      fld p.payload 0x28 4 = (s.hw.yokeCfg.map (·.pairTag)).getD 0 →
      s.hw.yokeSt q = 0 →
      fld p.payload 2 1 = 0 →
      (s.hw.pen q).bound.all (fun b => !b.held) = true →
      (s.hw.pen q).kv.cfg = none →
      ∃ t, exec (.hello l raw udpOk ce) s = .next t ∧
        t.hw.get R.YOK_STATUS_PAIRED 0 = 1 ∧
        (if slice p.payload 0x18 16 = s.hw.descDigest q
        then t.hw.yokeSt q = 1 ∧ t.hw.get R.YOK_PEN_STATE_ROLE q = (if (s.hw.yokeCfg.map fun y => bit y.activeMask q) = some true then 1 else 0)
        else t.hw.yokeSt q = 6) ∧
        State.Frame ([] ++ yokeKeys l q) s t) ∧
  (∀ (l : LinkId) (raw : Bytes) (udpOk : Bool) (ce : Bool) (s : State) (p : Pkt) (q : Nat),
      s.hw.Reads l raw udpOk p →
      s.hw.IsNew p →
      p.typ = 7 →
      s.hw.isYoke l 7 1 p = true →
      fld p.payload 1 1 = q →
      s.hw.yoked q = true →
      s.hw.noneWhole = true →
      fld p.payload 0x28 4 = (s.hw.yokeCfg.map (·.pairTag)).getD 0 →
      slice p.payload 0x18 16 = s.hw.descDigest q →
      s.hw.yokeSt q = 5 →
      fld p.payload 2 1 = 5 →
      ∃ t, exec (.hello l raw udpOk ce) s = .next t ∧
        t.hw.get R.YOK_STATUS_SPLIT 0 = 1 ∧
        t.hw.get R.YOK_STATUS_PAIRED 0 = 1 ∧
        t.hw.yokeSt q = 5 ∧
        State.Frame ([] ++ logKeys ++ yokeKeys l q) s t) ∧
  (∀ (l : LinkId) (raw : Bytes) (udpOk : Bool) (ce : Bool) (s : State) (p : Pkt) (q : Nat),
      s.hw.Reads l raw udpOk p →
      s.hw.IsNew p →
      p.typ = 7 →
      s.hw.isYoke l 7 2 p = true →
      fld p.payload 1 1 = q →
      s.hw.yoked q = true →
      s.hw.noneWhole = true →
      fld p.payload 0x28 4 = (s.hw.yokeCfg.map (·.pairTag)).getD 0 →
      s.hw.yokeSt q ≠ 0 →
      s.hw.yokeSt q ≠ 6 →
      (s.hw.pen q).bound.all (fun b => !b.held) = true →
      ∃ t, exec (.heartbeatRx l raw udpOk ce) s = .next t ∧
        t.hw.get R.YOK_LAST_RX_FRAME q = s.hw.clk.frame % 2 ^ 64 ∧
        (t.hw.pen q).yoke.got = true ∧
        t.hw.yokeSt q = (if slice p.payload 0x18 16 = s.hw.svcDigest q then s.hw.yokeSt q else 6) ∧
        State.Frame ([] ++ yokeKeys l q) s t) ∧
  (∀ (l : LinkId) (raw : Bytes) (udpOk : Bool) (ce : Bool) (s : State) (p : Pkt) (q : Nat) (c : CommitSt),
      s.hw.Reads l raw udpOk p →
      s.hw.IsNew p →
      p.typ = 7 →
      s.hw.isYoke l 7 4 p = true →
      fld p.payload 1 1 = q →
      s.hw.yoked q = true →
      s.hw.noneWhole = true →
      (s.hw.pen q).yoke.flight.find? (fun c => c.no == fld p.payload 4 4) = some c →
      c.held = [] →
      ∃ t, exec (.commitAck l raw udpOk ce) s = .next t ∧
        t.hw.get R.YOK_COMMIT_NO_COMMIT q = fld p.payload 4 4 ∧
        (t.hw.pen q).yoke.flight = (s.hw.pen q).yoke.flight.filter (fun c => c.no != fld p.payload 4 4) ∧
        (t.hw.pen q).kv.late = (s.hw.pen q).kv.late.filter (fun i => !(c.freed.contains i)) ∧
        (t.hw.pen q).kv.lateL = (s.hw.pen q).kv.lateL.filter (fun i => !(c.freedL.contains i)) ∧
        t.hw.get R.YOK_COMMIT_MAX_SLOW q = (if 1500 < s.hw.clk.now - c.point then min (s.hw.get R.YOK_COMMIT_MAX_SLOW q + 1) 65535 else s.hw.get R.YOK_COMMIT_MAX_SLOW q) ∧
        t.hw.yokeSt q = (if s.hw.yokeSt q = 1 ∧ ((s.hw.pen q).yoke.bulk.any fun b => decide (b ≤ fld p.payload 4 4)) = true then 2 else s.hw.yokeSt q) ∧
        State.Frame ([] ++ yokeKeys l q) s t) ∧
  (∀ (q : PenId) (s : State) (c : CommitSt) (y : YokeCfg),
      (s.hw.pen q).yoke.flight.find? (fun c => !c.sent) = some c →
      s.hw.yokeCfg = some y →
      (s.hw.dev.txq.any fun x => (x.2.typ == 5 || x.2.typ == 6) && x.2.pen == q.val) = false →
      c.bytes ≤ (s.hw.stageHalf q).2 →
      ∃ t, exec (.yokeCommitSend q) s = .next t ∧
        (t.hw.pen q).yoke.flight = (s.hw.pen q).yoke.flight.map (fun d => if d.no = c.no then { d with sent := true } else d) ∧
        (∃ x ∈ (t.hw.flow (flowKey y.partner 1)).unacked, x.pkt.typ = 7 ∧ fld x.pkt.payload 0 1 = 3 ∧ fld x.pkt.payload 4 4 = c.no % 2 ^ 32 ∧ fld x.pkt.payload 0xC 4 = c.bytes % 2 ^ 32) ∧
        State.Frame ([R.YOK_TX_BYTES_BYTES.key 0, R.YOK_MIRROR_BYTES_BYTES.key q, R.ZLT_DENY_EGRESS.key 0] ++ txKeys) s t) ∧
  (∀ (q : PenId) (s : State),
      s.hw.yokeSt q = 3 →
      s.hw.partnerLost q = true →
      (s.hw.pen q).yoke.cribs = [] →
      s.hw.dev.load = none →
      ∃ t, exec (.yokeTakeover q) s = .next t ∧
        t.hw.get R.YOK_PEN_STATE_STATE q = 4 ∧
        t.hw.get R.YOK_PEN_STATE_ROLE q = 1 ∧
        t.hw.get R.YOK_COUNTS_TAKEOVERS q = min (s.hw.get R.YOK_COUNTS_TAKEOVERS q + 1) 65535 ∧
        t.hw.get R.FSQ_STATE_SUSPENDED q = 1 ∧
        t.hw.get R.FSQ_STATE_SUSP_TAKEOVER q = 1 ∧
        (t.hw.pen q).yoke.takeF = some s.hw.clk.frame ∧
        State.Frame ([R.YOK_PEN_STATE_STATE.key q, R.YOK_PEN_STATE_ROLE.key q, R.YOK_COUNTS_TAKEOVERS.key q, R.FSQ_STATE_SUSPENDED.key q, R.FSQ_STATE_SUSP_TAKEOVER.key q, R.KVM_FREE_PAGES.key q, R.KVM_USED_PAGES.key q, R.KVM_LOFT_USED_PAGES.key q, R.KVM_RECOMP_Q_HELD.key q, R.YOK_REPLAY_PENDING.key q] ++ logKeys) s t) ∧
  (∀ (q : PenId) (s : State),
      s.hw.yokeSt q = 2 →
      s.hw.partnerLost q = true →
      (s.hw.pen q).bound.all (fun b => !b.held) = true →
      ∃ t, exec (.yokeSolo q) s = .next t ∧
        t.hw.get R.YOK_PEN_STATE_STATE q = 5 ∧
        t.hw.get R.YOK_PEN_STATE_ROLE q = 1 ∧
        t.hw.get R.YOK_COUNTS_TAKEOVERS q = min (s.hw.get R.YOK_COUNTS_TAKEOVERS q + 1) 65535 ∧
        (t.hw.pen q).yoke.flight = [] ∧
        State.Frame ([R.YOK_PEN_STATE_STATE.key q, R.YOK_PEN_STATE_ROLE.key q, R.YOK_COUNTS_TAKEOVERS.key q, R.YOK_COMMIT_NO_COMMIT.key q, R.YOK_MIRROR_BYTES_BYTES.key q, R.YOK_TX_BYTES_BYTES.key 0, R.ZLT_DENY_EGRESS.key 0] ++ logKeys ++ txKeys) s t) ∧
  (∀ (q : PenId) (s : State),
      s.hw.hostUp = true →
      s.hw.yoked q = true →
      (s.hw.pen q).yoke.demote = none →
      s.hw.penTenants q ≠ [] →
      ∃ t, exec (.demote q) s = .next t ∧
        (t.hw.pen q).yoke.demote = some s.hw.clk.now ∧
        (∀ x ∈ s.hw.penTenants q, x.function < 65536 → t.hw.get R.ERR_FN_STATUS_DISABLING x.function = 1) ∧
        t.pending = s.pending ∧
        t.hw.yokeSt q = s.hw.yokeSt q) ∧
  (∀ (q : PenId) (s : State),
      s.hw.yokeSt q = 1 →
      s.hw.is R.YOK_PEN_STATE_ROLE q = true →
      (s.hw.pen q).yoke.bulk = none →
      ∃ t, exec (.bulkCopyDone q) s = .next t ∧
        (t.hw.pen q).yoke.bulk = some (t.hw.pen q).yoke.nextNo ∧
        t.hw.yokeSt q = 1 ∧
        State.BytesBut (fun _ => False) s t ∧
        t.pending = s.pending)

/-- A DIRECT packet whose range is allowed writes its bytes there and no others. A JOURNAL packet for the standby pen is noted and
staged into the half of the STAGE range that its commit's number picks. A COMMIT whose journal is whole is acknowledged:
COMMIT_NO is its number, and a journal of one MEM item writes that item's bytes. A FETCH_REQ is served from the pen's HBM
ranges, or answered FETCH_NAK and counted. The parts of a refetch that are back leave the entry's list, and a FETCH_NAK leaves
the entry to the host. -/
def Obligations.YokeData : Prop :=
  (∀ (l : LinkId) (raw : Bytes) (udpOk : Bool) (ce : Bool) (s : State) (p : Pkt) (q : Nat),
      s.hw.Reads l raw udpOk p →
      s.hw.IsNew p →
      p.typ = 5 →
      s.hw.isYoke l 5 0 p = true →
      p.pen = q →
      s.hw.yoked q = true →
      s.hw.noneWhole = true →
      0 < p.payload.length →
      p.payload.length ≤ 4096 →
      s.hw.directOk p.addr p.payload.length = true →
      (spdBase ≤ p.addr → s.hw.is R.SPD_STATUS_ZEROING ((p.addr - spdBase) / spdSlot) = false) →
      (granulesOf p.addr p.payload.length).all (fun g => !(s.hw.deadGranule g)) = true →
      ∃ t, exec (.direct l raw udpOk ce) s = .next t ∧
        (∀ i, i < p.payload.length → t.devByte (p.addr + i) = p.payload.getD i 0) ∧
        State.BytesBut (fun a => p.addr ≤ a ∧ a < p.addr + p.payload.length) s t ∧
        t.hw.get R.YOK_RX_BYTES_BYTES 0 = min (s.hw.get R.YOK_RX_BYTES_BYTES 0 + p.size) (2 ^ 64 - 1) ∧
        t.pending = s.pending) ∧
  (∀ (l : LinkId) (raw : Bytes) (udpOk : Bool) (ce : Bool) (s : State) (p : Pkt) (q : Nat) (j : Nat),
      s.hw.Reads l raw udpOk p →
      s.hw.IsNew p →
      p.typ = 6 →
      s.hw.isYoke l 6 0 p = true →
      p.pen = q →
      s.hw.yoked q = true →
      s.hw.noneWhole = true →
      s.hw.receives q = true →
      (s.hw.pen q).yoke.fresh p.psn = true →
      s.hw.get R.YOK_COMMIT_NO_COMMIT q < p.commit →
      p.addr + p.payload.length ≤ (s.hw.stageHalf q).2 →
      j = (s.hw.stageHalf q).1 + p.commit % 2 * (s.hw.stageHalf q).2 + p.addr →
      (granulesOf j p.payload.length).all (fun g => !(s.hw.deadGranule g)) = true →
      j + p.payload.length ≤ spdBase →
      ∃ t, exec (.journal l raw udpOk ce) s = .next t ∧
        (∀ i, i < p.payload.length → t.devByte (j + i) = p.payload.getD i 0) ∧
        State.BytesBut (fun a => j ≤ a ∧ a < j + p.payload.length) s t ∧
        ((t.hw.pen q).yoke.rx.any fun x => x.no == p.commit && x.parts.contains (p.addr, p.payload)) = true ∧
        t.hw.get R.YOK_COMMIT_NO_COMMIT q = s.hw.get R.YOK_COMMIT_NO_COMMIT q ∧
        t.pending = s.pending) ∧
  (∀ (l : LinkId) (raw : Bytes) (udpOk : Bool) (ce : Bool) (s : State) (p : Pkt) (q : Nat) (x : RxJournal) (bs : Bytes) (j : JItem),
      s.hw.Reads l raw udpOk p →
      s.hw.IsNew p →
      p.typ = 7 →
      s.hw.isYoke l 7 3 p = true →
      fld p.payload 1 1 = q →
      s.hw.yoked q = true →
      (s.hw.penList.all fun n => n == q || (s.hw.pen n).yoke.rx.all fun j => j.len.isNone) = true →
      s.hw.present q = true →
      s.hw.receives q = true →
      (s.hw.pen q).yoke.fresh p.psn = true →
      (s.hw.taken l raw ce p).holdsAll p.psn = true →
      fld p.payload 4 4 = s.hw.get R.YOK_COMMIT_NO_COMMIT q + 1 →
      (s.hw.pen q).yoke.rx = [x] →
      x.no = fld p.payload 4 4 →
      ({ x with len := some (fld p.payload 0xC 4) } : RxJournal).whole = some bs →
      bs.length ≤ (s.hw.stageHalf q).2 →
      journalItems (bs.length / 16 + 1) bs = [j] →
      j.kind = 1 →
      j.addr + j.bytes.length ≤ spdBase →
      (granulesOf j.addr j.bytes.length).all (fun g => !(s.hw.deadGranule g)) = true →
      ∃ t, exec (.commit l raw udpOk ce) s = .next t ∧
        t.hw.get R.YOK_COMMIT_NO_COMMIT q = fld p.payload 4 4 ∧
        (t.hw.pen q).yoke.rx = [] ∧
        (t.hw.pen q).yoke.posted = max (s.hw.pen q).yoke.posted (fld p.payload 8 4) ∧
        t.hw.yokeSt q = s.hw.yokeSt q ∧
        (∀ i, i < j.bytes.length → t.devByte (j.addr + i) = j.bytes.getD i 0) ∧
        State.BytesBut (fun a => j.addr ≤ a ∧ a < j.addr + j.bytes.length) s t ∧
        t.pending = s.pending) ∧
  (∀ (l : LinkId) (raw : Bytes) (udpOk : Bool) (ce : Bool) (s : State) (p : Pkt) (q : Nat),
      s.hw.Reads l raw udpOk p →
      s.hw.IsNew p →
      p.typ = 7 →
      s.hw.isYoke l 7 5 p = true →
      fld p.payload 1 1 = q →
      s.hw.yoked q = true →
      s.hw.noneWhole = true →
      s.hw.is R.YOK_STATUS_PAIRED = true →
      0 < fld p.payload 0xC 4 →
      fld p.payload 0xC 4 ≤ 0x1000000 →
      fld p.payload 0x10 8 + fld p.payload 0xC 4 ≤ hbmEnd →
      ((s.hw.desc q).any fun d => d.hbm.any fun g => within (fld p.payload 0x10 8) (fld p.payload 0xC 4) (g.start * granule) (g.count * granule)) = true →
      ∃ t, exec (.fetchReq l raw udpOk ce) s = .next t ∧
        t.hw.get R.YOK_FETCH_SERVED 0 = min (s.hw.get R.YOK_FETCH_SERVED 0 + 1) 65535 ∧
        t.hw.get R.YOK_FETCH_NAK 0 = s.hw.get R.YOK_FETCH_NAK 0 ∧
        State.BytesBut (fun _ => False) s t ∧
        t.pending = s.pending) ∧
  (∀ (l : LinkId) (raw : Bytes) (udpOk : Bool) (ce : Bool) (s : State) (p : Pkt) (q : Nat),
      s.hw.Reads l raw udpOk p →
      s.hw.IsNew p →
      p.typ = 7 →
      s.hw.isYoke l 7 5 p = true →
      fld p.payload 1 1 = q →
      s.hw.yoked q = true →
      s.hw.noneWhole = true →
      fld p.payload 0xC 4 = 0 →
      ∃ t, exec (.fetchReq l raw udpOk ce) s = .next t ∧
        t.hw.get R.YOK_FETCH_NAK 0 = min (s.hw.get R.YOK_FETCH_NAK 0 + 1) 65535 ∧
        t.hw.get R.YOK_FETCH_SERVED 0 = s.hw.get R.YOK_FETCH_SERVED 0 ∧
        State.Frame ([] ++ yokeKeys l q) s t) ∧
  (∀ (l : LinkId) (raw : Bytes) (udpOk : Bool) (ce : Bool) (s : State) (p : Pkt) (q : Nat) (u : Nat) (e : Nat) (x : Unavail),
      s.hw.Reads l raw udpOk p →
      s.hw.IsNew p →
      p.typ = 7 →
      s.hw.isYoke l 7 6 p = true →
      fld p.payload 1 1 = q →
      s.hw.yoked q = true →
      s.hw.noneWhole = true →
      s.hw.unavOf (fld p.payload 0x10 8) (fld p.payload 0xC 4) = some (u, e) →
      s.hw.unavAt u e = some x →
      x.need.filter (· != (fld p.payload 0x10 8, fld p.payload 0xC 4)) ≠ [] →
      ∃ t, exec (.fetchDone l raw udpOk ce) s = .next t ∧
        t.hw.unavAt u e = some { x with need := x.need.filter (· != (fld p.payload 0x10 8, fld p.payload 0xC 4)) } ∧
        State.Frame ([] ++ yokeKeys l q) s t) ∧
  (∀ (l : LinkId) (raw : Bytes) (udpOk : Bool) (ce : Bool) (s : State) (p : Pkt) (q : Nat) (u : Nat) (e : Nat) (x : Unavail),
      s.hw.Reads l raw udpOk p →
      s.hw.IsNew p →
      p.typ = 7 →
      s.hw.isYoke l 7 7 p = true →
      fld p.payload 1 1 = q →
      s.hw.yoked q = true →
      s.hw.noneWhole = true →
      s.hw.unavOf (fld p.payload 0x10 8) (fld p.payload 0xC 4) = some (u, e) →
      s.hw.unavAt u e = some x →
      ∃ t, exec (.fetchNak l raw udpOk ce) s = .next t ∧
        t.hw.unavAt u e = some { x with state := 2 } ∧
        State.Frame ([] ++ yokeKeys l q) s t)

/-- A START with the loader idle begins a load of the image that TRS_SRC names; with a load under way it only sets BUSY_REFUSED. An
ABORT cancels a load in FETCH, VERIFY, VALIDATE or PENDING with code 0x11. QUIESCE sets its bit; clearing it clears QUIESCED at
once, but not during a whole-device COMMIT or SCRUB; the device is QUIESCED once it is asked to be, its pens have passed a frame
start, and no pen has work. Nothing else changes. -/
def Obligations.LoadControl : Prop :=
  (∀ (s : State),
      s.hw.hostUp = true →
      s.hw.get R.TRS_STATUS_STATE 0 = 0 →
      ∃ t, exec (.trsStart) s = .next t ∧
        t.hw.get R.TRS_STATUS_STATE 0 = 1 ∧
        t.hw.dev.load = some { len := s.hw.get R.TRS_SRC_LEN_LEN 0, src := s.hw.get R.TRS_SRC_ADDR_LO_ADDR_LO 0 + 2 ^ 32 * s.hw.get R.TRS_SRC_ADDR_HI_ADDR_HI 0 } ∧
        State.Frame ([R.TRS_STATUS_STATE.key 0, R.TRS_CTRL_START.key 0]) s t) ∧
  (∀ (s : State),
      s.hw.hostUp = true →
      s.hw.get R.TRS_STATUS_STATE 0 ≠ 0 →
      ∃ t, exec (.trsStart) s = .next t ∧
        t.hw.get R.TRS_STATUS_BUSY_REFUSED 0 = 1 ∧
        t.hw.dev.load = s.hw.dev.load ∧
        State.Frame ([R.TRS_STATUS_BUSY_REFUSED.key 0, R.TRS_CTRL_START.key 0]) s t) ∧
  (∀ (s : State),
      s.hw.hostUp = true →
      1 ≤ s.hw.get R.TRS_STATUS_STATE 0 →
      s.hw.get R.TRS_STATUS_STATE 0 ≤ 4 →
      ∃ t, exec (.trsAbort) s = .next t ∧
        t.hw.get R.TRS_STATUS_STATE 0 = 0 ∧
        t.hw.get R.TRS_STATUS_FAIL 0 = 1 ∧
        t.hw.get R.TRS_STATUS_ERR_CODE 0 = 0x11 ∧
        t.hw.dev.load = none ∧
        t.hw.get R.TRS_FAIL_COUNT_FAILS 0 = min (s.hw.get R.TRS_FAIL_COUNT_FAILS 0 + 1) 65535 ∧
        t.hw.dev.truss = s.hw.dev.truss ∧
        (∀ l, s.hw.dev.load = some l → State.Frame ([R.TRS_STATUS_STATE.key 0, R.TRS_CTRL_ABORT.key 0, R.TRS_STATUS_FAIL.key 0, R.TRS_STATUS_ERR_CODE.key 0, R.TRS_STATUS_ERR_SECTION.key 0, R.TRS_ERR_DETAIL_OFFSET.key 0, R.TRS_FAIL_COUNT_FAILS.key 0, R.PEN_STATE_LOAD_PENDING.key l.pen, R.PEN_STATE_REFUSING.key l.pen]) s t)) ∧
  (∀ (s : State),
      s.hw.hostUp = true →
      ∃ t, exec (.quiesce) s = .next t ∧
        t.hw.get R.TRS_CTRL_QUIESCE 0 = 1 ∧
        State.Frame ([R.TRS_CTRL_QUIESCE.key 0]) s t) ∧
  (∀ (s : State),
      s.hw.hostUp = true →
      (s.hw.dev.load.any (·.whole) && decide (5 ≤ s.hw.get R.TRS_STATUS_STATE 0)) = false →
      ∃ t, exec (.quiesceClear) s = .next t ∧
        t.hw.get R.TRS_CTRL_QUIESCE 0 = 0 ∧
        t.hw.get R.TRS_STATUS_QUIESCED 0 = 0 ∧
        State.Frame ([R.TRS_CTRL_QUIESCE.key 0, R.TRS_STATUS_QUIESCED.key 0]) s t) ∧
  (∀ (s : State),
      s.hw.is R.TRS_CTRL_QUIESCE 0 = true →
      (s.hw.penList = [] ∨ s.hw.dev.quiet = true) →
      s.hw.penList.all (fun p => (s.hw.pen p).frames.isEmpty && (s.hw.pen p).bound.isEmpty && (s.hw.pen p).deferred.isEmpty) = true →
      ∃ t, exec (.quiesced) s = .next t ∧
        t.hw.get R.TRS_STATUS_QUIESCED 0 = 1 ∧
        State.Frame ([R.TRS_STATUS_QUIESCED.key 0]) s t)

/-- A fetch that lies in the PF's windows copies the image into the staging area and enters VERIFY. VERIFY of an image read without
poison whose format, compatibility and serial are good enters VALIDATE if its signature verifies, and otherwise ends the load
with code 0x01. VALIDATE of an image, read without poison, whose sections are good stops the tick and enters COMMIT for the
whole device, or is PENDING for one pen. COMMIT puts the new image and its serials in force, starts the zero-fill of every stall
whose owner changes, and enters SCRUB; its end zeroes the scrubbed granules, sets IN_FORCE and DONE and lets the tick run. A
heavy per-pen commit discards the pen's contexts and plans. -/
def Obligations.TrussLoads : Prop :=
  (∀ (s : State) (l : Load),
      s.hw.dev.load = some l →
      s.hw.get R.TRS_STATUS_STATE 0 = 1 →
      512 ≤ l.len →
      l.len ≤ 0x1000000 →
      l.src % 8 = 0 →
      s.hw.dmaOk 0 l.src l.len false = true →
      (granulesOf 0 l.len).all (fun g => !(s.hw.deadGranule g)) = true →
      ∃ t, exec (.trussFetchDone .ok) s = .next t ∧
        t.hw.get R.TRS_STATUS_STATE 0 = 2 ∧
        (∀ i, i < l.len → t.devByte i = s.hostByte (l.src + i)) ∧
        State.BytesBut (fun a => a < l.len) s t ∧
        (t.hw.dev.load.map (·.keys)) = some s.hw.mgt.keys ∧
        t.pending = s.pending) ∧
  (∀ (s : State) (l : Load) (b : Bytes),
      s.hw.dev.load = some l →
      s.hw.get R.TRS_STATUS_STATE 0 = 2 →
      b = (List.range l.len).map (fun i => s.devByte i) →
      (Run.memRead ⟨s.hw, s.mem, []⟩ .device 0 l.len).2.1 = 0 →
      checkFormat b l.len = none →
      s.hw.checkCompat b = none →
      s.hw.checkSerial b = none →
      (fld b 0xC 1 = 0 → s.hw.is R.TRS_STATUS_QUIESCED 0 = true) →
      Tbl.get [] (fld b 0x34 4) l.keys ≠ [] →
      ∃ t, exec (.trussVerifyDone) s = .next t ∧
        (if Config.ed448Verify true (Tbl.get [] (fld b 0x34 4) l.keys) (imageDigest b) (b.drop (l.len - 114)) = true
        then t.hw.get R.TRS_STATUS_STATE 0 = 3 ∧ t.hw.get R.TRS_STATUS_FAIL 0 = s.hw.get R.TRS_STATUS_FAIL 0
        else t.hw.get R.TRS_STATUS_STATE 0 = 0 ∧ t.hw.get R.TRS_STATUS_FAIL 0 = 1 ∧ t.hw.get R.TRS_STATUS_ERR_CODE 0 = 0x01) ∧
        State.BytesBut (fun _ => False) s t ∧
        t.pending = s.pending) ∧
  (∀ (s : State) (l : Load) (b : Bytes),
      s.hw.dev.load = some l →
      s.hw.get R.TRS_STATUS_STATE 0 = 3 →
      b = (List.range l.len).map (fun i => s.devByte i) →
      (Run.memRead ⟨s.hw, s.mem, []⟩ .device 0 l.len).2.1 = 0 →
      l.whole = true →
      s.hw.is R.TRS_STATUS_QUIESCED 0 = true →
      s.hw.checkSections b (wholeTruss b) = none →
      ∃ t, exec (.trussValidateDone) s = .next t ∧
        t.hw.get R.TRS_STATUS_STATE 0 = 5 ∧
        (t.hw.dev.load.bind (·.next)) = some (wholeTruss b) ∧
        t.hw.clk.running = false ∧
        t.hw.dev.truss = s.hw.dev.truss ∧
        State.BytesBut (fun _ => False) s t ∧
        t.pending = s.pending ∧
        Hw.FieldsBut (memFlds ++ [R.TRS_STATUS_STATE, R.TRS_STATUS_SKIPPED]) s.hw t.hw) ∧
  (∀ (s : State) (l : Load) (b : Bytes) (o : Truss),
      s.hw.dev.load = some l →
      s.hw.get R.TRS_STATUS_STATE 0 = 3 →
      b = (List.range l.len).map (fun i => s.devByte i) →
      (Run.memRead ⟨s.hw, s.mem, []⟩ .device 0 l.len).2.1 = 0 →
      l.whole = false →
      l.pen < 16 →
      s.hw.dev.truss = some o →
      s.hw.checkSections b (penTruss o b) = none →
      ∃ t, exec (.trussValidateDone) s = .next t ∧
        t.hw.get R.TRS_STATUS_STATE 0 = 4 ∧
        t.hw.get R.PEN_STATE_LOAD_PENDING l.pen = 1 ∧
        (t.hw.dev.load.bind (·.next)) = some (penTruss o b) ∧
        (t.hw.dev.load.bind (·.pending)) = some s.hw.clk.now ∧
        t.hw.dev.truss = some o ∧
        State.BytesBut (fun _ => False) s t ∧
        t.pending = s.pending ∧
        Hw.FieldsBut (memFlds ++ [R.TRS_STATUS_STATE, R.TRS_STATUS_SKIPPED, R.PEN_STATE_LOAD_PENDING]) s.hw t.hw) ∧
  (∀ (s : State) (l : Load) (n : Truss),
      s.hw.dev.load = some l →
      s.hw.get R.TRS_STATUS_STATE 0 = 5 →
      l.whole = true →
      l.next = some n →
      ∃ t, exec (.trussCommitDone) s = .next t ∧
        t.hw.get R.TRS_STATUS_STATE 0 = 6 ∧
        t.hw.dev.truss = some n ∧
        t.hw.get R.TRS_SERIAL_SERIAL 0 = l.serial % 2 ^ 64 ∧
        t.hw.get R.TRS_BASE_SERIAL_BASE 0 = l.serial % 2 ^ 64 ∧
        (∀ p ∈ s.hw.penList, (t.hw.pen p).ctxs = [] ∧ (t.hw.pen p).plans = [] ∧ (t.hw.pen p).frames = []) ∧
        t.hw.get R.TRS_TIMING_T_FRAME_US 0 = n.tFrame % 2 ^ 14 ∧
        (∀ m ∈ scrubStalls s.hw.dev.truss n none, t.hw.get R.SPD_STATUS_ZEROING m = 1) ∧
        t.hw.clk = s.hw.clk ∧
        t.pending = s.pending) ∧
  (∀ (s : State) (l : Load),
      s.hw.dev.load = some l →
      s.hw.get R.TRS_STATUS_STATE 0 = 6 →
      l.whole = true →
      ((List.range 192).any fun n => s.hw.is R.SPD_STATUS_ZEROING n) = false →
      s.hw.yokeCfg = none →
      ∃ t, exec (.trussScrubDone) s = .next t ∧
        t.hw.get R.TRS_STATUS_STATE 0 = 0 ∧
        t.hw.get R.TRS_STATUS_IN_FORCE 0 = 1 ∧
        t.hw.get R.TRS_STATUS_DONE 0 = 1 ∧
        t.hw.get R.TRS_STATUS_ERR_CODE 0 = 0 ∧
        t.hw.get R.TRS_STATUS_QUIESCED 0 = 0 ∧
        t.hw.get R.TRS_CTRL_QUIESCE 0 = 0 ∧
        t.hw.get R.TRS_COMMIT_FRAME_FRAME 0 = (s.hw.clk.frame + 1) % 2 ^ 64 ∧
        t.hw.dev.load = none ∧
        t.hw.clk = { s.hw.clk with running := true, due := s.hw.clk.now } ∧
        (∀ g ∈ l.scrub, ∀ a, g.start * granule ≤ a → a < (g.start + g.count) * granule → t.devByte a = 0#8) ∧
        State.BytesBut (fun a => ∃ g ∈ l.scrub, g.start * granule ≤ a ∧ a < (g.start + g.count) * granule) s t ∧
        Hw.RegsBut ([R.TRS_STATUS_STATE.key 0, R.TRS_STATUS_IN_FORCE.key 0, R.TRS_STATUS_DONE.key 0, R.TRS_STATUS_ERR_CODE.key 0, R.TRS_STATUS_QUIESCED.key 0, R.TRS_CTRL_QUIESCE.key 0, R.TRS_COMMIT_FRAME_FRAME.key 0]) s.hw t.hw) ∧
  (∀ (s : State) (l : Load) (n : Truss) (o : Truss),
      s.hw.dev.load = some l →
      s.hw.dev.truss = some o →
      l.next = some n →
      s.hw.mayCommit l.pen = true →
      ∃ t, exec (.penHeavyCommit) s = .next t ∧
        t.hw.get R.TRS_STATUS_STATE 0 = 6 ∧
        t.hw.dev.truss = some { n with route := o.route } ∧
        (t.hw.pen l.pen).ctxs = [] ∧
        (t.hw.pen l.pen).plans = [] ∧
        (t.hw.pen l.pen).frames = [] ∧
        t.hw.get R.PEN_SERIAL_SERIAL l.pen = l.serial % 2 ^ 64 ∧
        t.hw.get R.TRS_SERIAL_SERIAL 0 = l.serial % 2 ^ 64 ∧
        t.hw.get R.TRS_BASE_SERIAL_BASE 0 = s.hw.get R.TRS_BASE_SERIAL_BASE 0 ∧
        t.pending = s.pending)

/-- A valid retirement write retires its page: VALID is 1, PAGE shows it, the stack's count of entries is shown; a refused one sets
REFUSED and leaves VALID at 0, and an entry whose VALID is 1 ignores the write. A patrol pass leaves no line of its memory in
error, counts each rewrite, and marks each uncorrectable line as poisoned; no byte changes. A GO whose reads lie in the PF's
windows starts the host refetch of the selected entry; its end writes the range from the host's copy, and the block then leaves
the list or is FAILED. An entry listed for eight frames is FAILED. -/
def Obligations.RetireScrubRefetch : Prop :=
  (∀ (k : Fin 16) (e : Fin 1024) (v : BitVec 32) (s : State),
      s.hw.hostUp = true →
      s.hw.is R.MHB_RET_ENTRY_VALID (k.val * 1024 + e.val) = false →
      bit v.toNat 31 = true →
      v.toNat % 2 ^ 15 < 24576 →
      ¬(k.val = 0 ∧ v.toNat % 2 ^ 15 < 16) →
      ((List.range 1024).any fun j => s.hw.is R.MHB_RET_ENTRY_VALID (k.val * 1024 + j) && s.hw.get R.MHB_RET_ENTRY_PAGE (k.val * 1024 + j) == v.toNat % 2 ^ 15) = false →
      ∃ t, exec (.retirePage k e v) s = .next t ∧
        t.hw.get R.MHB_RET_ENTRY_VALID (k.val * 1024 + e.val) = 1 ∧
        t.hw.get R.MHB_RET_ENTRY_PAGE (k.val * 1024 + e.val) = v.toNat % 2 ^ 15 ∧
        t.hw.deadGranule (k.val * 24576 + v.toNat % 2 ^ 15) = true ∧
        State.Frame ([R.MHB_RET_ENTRY_VALID.key (k.val * 1024 + e.val), R.MHB_RET_ENTRY_PAGE.key (k.val * 1024 + e.val), R.MHB_RET_STATUS_USED0.key (k.val / 2), R.MHB_RET_STATUS_USED1.key (k.val / 2)] ++ s.hw.countKeys) s t) ∧
  (∀ (k : Fin 16) (e : Fin 1024) (v : BitVec 32) (s : State),
      s.hw.hostUp = true →
      s.hw.is R.MHB_RET_ENTRY_VALID (k.val * 1024 + e.val) = false →
      bit v.toNat 31 = true →
      (24576 ≤ v.toNat % 2 ^ 15 ∨ (k.val = 0 ∧ v.toNat % 2 ^ 15 < 16)) →
      ∃ t, exec (.retirePage k e v) s = .next t ∧
        t.hw.get R.MHB_RET_ENTRY_VALID (k.val * 1024 + e.val) = 0 ∧
        t.hw.get R.MHB_RET_STATUS_REFUSED (k.val / 2) = 1 ∧
        State.Frame ([R.MHB_RET_ENTRY_PAGE.key (k.val * 1024 + e.val), R.MHB_RET_STATUS_REFUSED.key (k.val / 2)]) s t) ∧
  (∀ (k : Fin 16) (e : Fin 1024) (v : BitVec 32) (s : State),
      s.hw.hostUp = true →
      s.hw.is R.MHB_RET_ENTRY_VALID (k.val * 1024 + e.val) = true →
      exec (.retirePage k e v) s = .next s) ∧
  (∀ (e : Fin 4096) (v : BitVec 32) (s : State),
      s.hw.hostUp = true →
      s.hw.is R.MHB_LOFT_RET_ENTRY_VALID e = false →
      bit v.toNat 31 = true →
      v.toNat % 2 ^ 20 < (loftEnd s.hw.loftTib - loftBase) / granule →
      s.hw.loftRetired.contains (v.toNat % 2 ^ 20) = false →
      ∃ t, exec (.loftRetire e v) s = .next t ∧
        t.hw.get R.MHB_LOFT_RET_ENTRY_VALID e = 1 ∧
        t.hw.get R.MHB_LOFT_RET_ENTRY_GRANULE e = v.toNat % 2 ^ 20 ∧
        t.hw.get R.MHB_LOFT_RET_STATUS_USED 0 = (s.hw.loftRetired.length + 1) % 2 ^ 13 ∧
        t.hw.deadGranule (loftBase / granule + v.toNat % 2 ^ 20) = true ∧
        State.Frame ([R.MHB_LOFT_RET_ENTRY_VALID.key e, R.MHB_LOFT_RET_ENTRY_GRANULE.key e, R.MHB_LOFT_RET_STATUS_USED.key 0] ++ s.hw.countKeys) s t) ∧
  (∀ (u : ScrubUnit) (ups : List Upset) (s : State),
      s.hw.mgt.phase = .run →
      (s.hw.upset ups).dev.soft.all (fun kv => !(Machine.ScrubUnit.holds u kv.1) || decide (kv.1 * 64 < loftEnd s.hw.loftTib)) = true →
      ∃ t, exec (.patrolScrub u ups) s = .next t ∧
        (t.hw.dev.soft.filter (fun kv => Machine.ScrubUnit.holds u kv.1)) = [] ∧
        (∀ kv ∈ (s.hw.upset ups).dev.soft, Machine.ScrubUnit.holds u kv.1 = true → kv.2 ≠ 1 → bit (t.lineMark kv.1) 0 = true) ∧
        (∀ m, u = .hub m → t.hw.get R.MHB_ECC_UE_PATROL_FIX m =
        min (s.hw.get R.MHB_ECC_UE_PATROL_FIX m + ((s.hw.upset ups).dev.soft.filter (fun kv => Machine.ScrubUnit.holds u kv.1 && kv.2 == 1)).length) 65535) ∧
        State.BytesBut (fun _ => False) s t ∧
        t.pending = s.pending) ∧
  (∀ (s : State) (x : Unavail),
      s.hw.hostUp = true →
      s.hw.unavAt (s.hw.get R.ERR_RF_SEL_HUB 0) (s.hw.get R.ERR_RF_SEL_ENTRY 0) = some x →
      x.state = 2 →
      x.src = none →
      x.need.all (fun n => s.hw.dmaOk 0 (s.hw.get R.ERR_RF_SRC_ADDR 0 + n.1 - x.hdr) n.2 false) = true →
      ∃ t, exec (.refetchGo) s = .next t ∧
        t.hw.unavAt (s.hw.get R.ERR_RF_SEL_HUB 0) (s.hw.get R.ERR_RF_SEL_ENTRY 0) = some { x with src := some (s.hw.get R.ERR_RF_SRC_ADDR 0) } ∧
        State.Frame ([]) s t) ∧
  (∀ (m : HubId) (e : Fin 64) (s : State) (x : Unavail) (src : Nat),
      s.hw.unavAt m e = some x →
      x.src = some src →
      x.need.all (fun n => decide (x.hdr ≤ n.1) && decide (n.1 + n.2 ≤ hbmEnd) && (granulesOf n.1 n.2).all (fun g => !(s.hw.deadGranule g))) = true →
      ∃ t, exec (.hostRefetchDone m e .ok) s = .next t ∧
        (∀ n ∈ x.need, ∀ i, i < n.2 → t.devByte (n.1 + i) = s.hostByte (src + n.1 - x.hdr + i)) ∧
        State.BytesBut (fun a => ∃ n ∈ x.need, n.1 ≤ a ∧ a < n.1 + n.2) s t ∧
        (if (({ hw := t.hw, mem := t.mem } : Run).blockGood x.hdr x.block).2 = true
        then t.hw.get R.ERR_RF_DONE_DONE 0 = min (s.hw.get R.ERR_RF_DONE_DONE 0 + 1) 65535
        else t.hw.get R.ERR_RF_DONE_FAILED 0 = min (s.hw.get R.ERR_RF_DONE_FAILED 0 + 1) 65535 ∧
          t.hw.unavAt m e = some { x with need := [], src := none, state := 3 }) ∧
        t.pending = s.pending) ∧
  (∀ (m : HubId) (e : Fin 64) (s : State) (x : Unavail),
      s.hw.unavAt m e = some x →
      x.state ≠ 3 →
      x.listed + 8 ≤ s.hw.clk.frame →
      ∃ t, exec (.refetchTimeout m e) s = .next t ∧
        t.hw.get R.ERR_RF_DONE_FAILED 0 = min (s.hw.get R.ERR_RF_DONE_FAILED 0 + 1) 65535 ∧
        t.hw.unavAt m e = some { x with state := 3, src := none } ∧
        State.Frame ([R.ERR_RF_DONE_FAILED.key 0] ++ logKeys) s t)

/-- POWER_MEASURE shows voltage, current and power, lowers the running minimum of the voltage, and steps the loop target down by two
where the power is above the limit. POWER_ESTIMATE shows gain times raw energy and takes the loop decision of its microsecond: a
step down above the limit, a step up after 50 microseconds in a row at or below 97 %. POWER_CALIBRATE moves the gain a quarter
of the way to the measured one where that lies in 0.75 to 1.5, and leaves it otherwise. Quotients whose rounding the spec does
not state are openDiv (the model, log 20). No command changes memory, the queue or any other register. -/
def Obligations.MeasureAndEstimate : Prop :=
  (∀ (vin : Fin 65536) (iin : Fin 65536) (mw : Nat) (s : State),
      s.hw.lit = true →
      ∃ t, exec (.powerMeasure vin iin mw) s = .next t ∧
        t.hw.get R.PWR_VIN_VIN 0 = vin.val ∧
        t.hw.get R.PWR_IIN_IIN 0 = iin.val ∧
        t.hw.get R.PWR_PIN_P_MEAS 0 = min (openDiv mw 1000) 0xFFFF ∧
        t.hw.get R.PWR_SAG_MIN_VIN 0 = min (s.hw.get R.PWR_SAG_MIN_VIN 0) vin.val ∧
        t.hw.get R.PWR_STATUS_ACLK_MHZ 0 = (if s.hw.diesUp = true ∧ s.hw.is R.PWR_STATUS_CLAMP = false ∧
          (if s.hw.is R.PWR_STATUS_SAG_WARN = true then s.hw.get R.PWR_SAG_ILIM_ILIM_A * vin.val * 10 else s.hw.get R.PWR_CAP_CAP_W * 1000) < mw
        then max (if s.hw.is R.PWR_STATUS_SAG_WARN = true then 650 else 1300) (s.hw.get R.PWR_STATUS_ACLK_MHZ - 50) % 2048
        else s.hw.get R.PWR_STATUS_ACLK_MHZ) ∧
        State.Frame ([R.PWR_VIN_VIN.key 0, R.PWR_IIN_IIN.key 0, R.PWR_PIN_P_MEAS.key 0, R.PWR_SAG_MIN_VIN.key 0, R.PWR_STATUS_ACLK_MHZ.key 0, R.PWR_STATUS_CAP_HELD.key 0]) s t) ∧
  (∀ (counts : List ActCount) (s : State),
      s.hw.diesUp = true →
      ∃ t, exec (.powerEstimate counts) s = .next t ∧
        t.hw.get R.PWR_PIN_P_EST 0 = min (openDiv (s.hw.rawEnergy counts * s.hw.get R.PWR_CAL_GAIN) (1000 * milliwatt)) 0xFFFF ∧
        t.hw.get R.PWR_STATUS_ACLK_MHZ 0 = (
        let e := s.hw.rawEnergy counts * s.hw.get R.PWR_CAL_GAIN
        let limit := (if s.hw.is R.PWR_STATUS_SAG_WARN = true then s.hw.get R.PWR_SAG_ILIM_ILIM_A * s.hw.get R.PWR_VIN_VIN * 10
          else s.hw.get R.PWR_CAP_CAP_W * 1000) * milliwatt
        let old := s.hw.get R.PWR_STATUS_ACLK_MHZ
        let top := if s.hw.is R.PWR_STATUS_SAG_WARN = true then 1300 else 1500
        if s.hw.is R.PWR_STATUS_CLAMP = true then old
        else if limit < e then max (if s.hw.is R.PWR_STATUS_SAG_WARN = true then 650 else 1300) (old - 25) % 2048
        else if 100 * e ≤ 97 * limit ∧ 50 ≤ s.hw.mgt.pwr.lowUs + 1 ∧ old < top then min top (old + 25) % 2048
        else old) ∧
        State.Frame ([R.PWR_PIN_P_EST.key 0, R.PWR_STATUS_ACLK_MHZ.key 0, R.PWR_STATUS_CAP_HELD.key 0]) s t) ∧
  (∀ (s : State),
      s.hw.diesUp = true →
      s.hw.mgt.sdgUp = true →
      0 < s.hw.mgt.pwr.raw →
      3 * s.hw.mgt.pwr.raw ≤ 4 * s.hw.mgt.pwr.meas →
      2 * s.hw.mgt.pwr.meas ≤ 3 * s.hw.mgt.pwr.raw →
      ∃ t, exec (.powerCalibrate) s = .next t ∧
        t.hw.get R.PWR_CAL_GAIN 0 =
        openDiv (3 * s.hw.get R.PWR_CAL_GAIN * s.hw.mgt.pwr.raw + s.hw.mgt.pwr.meas * 2 ^ 14) (4 * s.hw.mgt.pwr.raw) % 65536 ∧
        t.hw.get R.PWR_STATUS_CAL_VALID 0 = 1 ∧
        t.hw.mgt.pwr.raw = 0 ∧
        t.hw.mgt.pwr.meas = 0 ∧
        State.Frame ([R.PWR_CAL_GAIN.key 0, R.PWR_STATUS_CAL_VALID.key 0]) s t) ∧
  (∀ (s : State),
      s.hw.diesUp = true →
      s.hw.mgt.sdgUp = true →
      (4 * s.hw.mgt.pwr.meas < 3 * s.hw.mgt.pwr.raw ∨ 3 * s.hw.mgt.pwr.raw < 2 * s.hw.mgt.pwr.meas) →
      ∃ t, exec (.powerCalibrate) s = .next t ∧
        t.hw.mgt.pwr.raw = 0 ∧
        t.hw.mgt.pwr.meas = 0 ∧
        State.Frame ([] ++ logKeys) s t)

/-- CAP_WRITE holds the written watts within 2,900 to 3,200. POWER_CAP_HELD, once the estimate has been above the cap for 100
microseconds at 1,300 MHz, sets CAP_HELD and counts it. POWER_CLAMP sets CLAMP, counts it, and no stall then runs above 1,300
MHz; CLAMP_RELEASE, 100 microseconds after its start at the earliest, clears it and the loop resumes from 1,300 MHz.
DROOP_STRETCH counts the stretched cycles. Nothing else changes but the error log and, for conditions, the cause bits of pens. -/
def Obligations.CapAndClamp : Prop :=
  (∀ (value : BitVec 32) (s : State),
      s.hw.hostUp = true →
      ∃ t, exec (.capWrite value) s = .next t ∧
        t.hw.get R.PWR_CAP_CAP_W 0 = min (max (value.toNat % 4096) 2900) 3200 ∧
        State.Frame ([R.PWR_CAP_CAP_W.key 0]) s t) ∧
  (∀ (s : State),
      s.hw.diesUp = true →
      100 ≤ s.hw.mgt.pwr.overUs →
      s.hw.is R.PWR_STATUS_CAP_HELD = false →
      ∃ t, exec (.powerCapHeld) s = .next t ∧
        t.hw.get R.PWR_STATUS_CAP_HELD 0 = 1 ∧
        t.hw.get R.PWR_COUNTS_CAP_HELD 0 = min (s.hw.get R.PWR_COUNTS_CAP_HELD + 1) 65535 ∧
        State.Frame ([R.PWR_STATUS_CAP_HELD.key 0, R.PWR_COUNTS_CAP_HELD.key 0] ++ logKeys) s t) ∧
  (∀ (s : State),
      s.hw.diesUp = true →
      s.hw.is R.PWR_STATUS_CLAMP = false →
      ∃ t, exec (.powerClamp) s = .next t ∧
        t.hw.get R.PWR_STATUS_CLAMP 0 = 1 ∧
        t.hw.get R.PWR_COUNTS_CLAMP 0 = min (s.hw.get R.PWR_COUNTS_CLAMP + 1) 65535 ∧
        (∀ n, t.hw.aclk n ≤ 1300) ∧
        t.hw.mgt.pwr.clampAt = some s.hw.clk.now ∧
        State.Frame ([R.PWR_STATUS_CLAMP.key 0, R.PWR_COUNTS_CLAMP.key 0] ++ logKeys) s t) ∧
  (∀ (t0 : Nat) (s : State),
      s.hw.is R.PWR_STATUS_CLAMP = true →
      s.hw.mgt.pwr.clampAt = some t0 →
      ∃ t, exec (.clampRelease) s = .next t ∧
        t.hw.get R.PWR_STATUS_CLAMP 0 = 0 ∧
        t.hw.get R.PWR_STATUS_ACLK_MHZ 0 = 1300 ∧
        t.hw.clk.now = max s.hw.clk.now (t0 + 10000) ∧
        State.Frame ([R.PWR_STATUS_CLAMP.key 0, R.PWR_STATUS_ACLK_MHZ.key 0]) s t) ∧
  (∀ (d : Fin 24) (cycles : Fin 33) (s : State),
      s.hw.diesUp = true →
      ∃ t, exec (.droopStretch d cycles) s = .next t ∧
        t.hw.get R.PWR_DROOP_STRETCHED d = min (s.hw.get R.PWR_DROOP_STRETCHED d + cycles.val) (2 ^ 32 - 1) ∧
        (Tbl.get {} d.val t.hw.mgt.pwr.droop).win = (Tbl.get {} d.val s.hw.mgt.pwr.droop).win + cycles.val ∧
        State.Frame ([R.PWR_DROOP_STRETCHED.key d]) s t)

/-- SAG_WARN sets the state with its cause, counts it, takes a target above 1,300 MHz down to 1,300 and suspends every present pen
with SUSP_SAG. While it is in force a further dip only restarts the release timer: it logs nothing and counts nothing. After the
release time the module releases SAG_N and samples it for 2 microseconds; a line that is low keeps SAG_WARN with cause 1, one
that is high ends it; once the module has released the line, a rise of it starts the release timer again. INPUT_RELEASE_LEVEL
notes since when the input is on the release side of a level. Nothing else changes but the error log, the ACLK target and the
cause bits of pens. -/
def Obligations.SagWarning : Prop :=
  (∀ (ext : Bool) (s : State),
      s.hw.lit = true →
      (ext && s.hw.drivesSagN) = false →
      s.hw.is R.PWR_STATUS_SAG_WARN = false →
      ∃ t, exec (.sagWarn ext) s = .next t ∧
        t.hw.get R.PWR_STATUS_SAG_WARN 0 = 1 ∧
        t.hw.get R.PWR_STATUS_SAG_CAUSE 0 = (if ext then 1 else 0) ∧
        t.hw.get R.PWR_SAG_WARN 0 = min (s.hw.get R.PWR_SAG_WARN + 1) 65535 ∧
        t.hw.get R.PWR_STATUS_ACLK_MHZ 0 = min (s.hw.get R.PWR_STATUS_ACLK_MHZ) 1300 ∧
        (∀ p ∈ s.hw.penList, t.hw.get R.FSQ_STATE_SUSP_SAG p = 1 ∧ t.hw.get R.FSQ_STATE_SUSPENDED p = 1) ∧
        State.Frame ([R.PWR_STATUS_SAG_WARN.key 0, R.PWR_STATUS_SAG_CAUSE.key 0, R.PWR_SAG_WARN.key 0, R.PWR_STATUS_ACLK_MHZ.key 0, R.PWR_STATUS_CAP_HELD.key 0] ++ logKeys ++ s.hw.suspKeys) s t) ∧
  (∀ (ext : Bool) (s : State),
      s.hw.lit = true →
      (ext && s.hw.drivesSagN) = false →
      s.hw.is R.PWR_STATUS_SAG_WARN = true →
      ∃ t, exec (.sagWarn ext) s = .next t ∧
        t.hw.mgt.pwr.sagFrom = s.hw.clk.now ∧
        t.hw.mgt.pwr.sample = none ∧
        t.hw.mgt.log = s.hw.mgt.log ∧
        State.Frame ([]) s t) ∧
  (∀ (t0 : Nat) (s : State),
      s.hw.lit = true →
      s.hw.is R.PWR_STATUS_SAG_WARN = true →
      s.hw.mgt.pwr.sample = none →
      s.hw.mgt.pwr.sagExt = false →
      s.hw.mgt.pwr.sagFree = false →
      s.hw.mgt.pwr.in52 = some t0 →
      ∃ t, exec (.sagWarnRelease) s = .next t ∧
        t.hw.clk.now = max s.hw.clk.now (max s.hw.mgt.pwr.sagFrom t0 + 100000) ∧
        t.hw.mgt.pwr.sample = some t.hw.clk.now ∧
        t.hw.get R.PWR_STATUS_SAG_WARN 0 = s.hw.get R.PWR_STATUS_SAG_WARN 0 ∧
        State.Frame ([]) s t) ∧
  (∀ (t0 : Nat) (s : State),
      s.hw.lit = true →
      s.hw.is R.PWR_STATUS_SAG_WARN = true →
      s.hw.mgt.pwr.sample = none →
      s.hw.mgt.pwr.sagExt = false →
      s.hw.mgt.pwr.sagFree = true →
      s.hw.mgt.pwr.in52 = some t0 →
      ∃ t, exec (.sagWarnRelease) s = .next t ∧
        t.hw.clk.now = max s.hw.clk.now (max s.hw.mgt.pwr.sagFrom t0 + 100000) ∧
        t.hw.get R.PWR_STATUS_SAG_WARN 0 = 0 ∧
        t.hw.get R.PWR_STATUS_ACLK_MHZ 0 = max (s.hw.get R.PWR_STATUS_ACLK_MHZ) 1300 ∧
        State.Frame ([R.PWR_STATUS_SAG_WARN.key 0, R.PWR_STATUS_ACLK_MHZ.key 0] ++ s.hw.suspKeys) s t) ∧
  (∀ (t0 : Nat) (s : State),
      s.hw.lit = true →
      s.hw.mgt.pwr.sample = some t0 →
      ∃ t, exec (.sagNSampleEnd true) s = .next t ∧
        t.hw.clk.now = max s.hw.clk.now (t0 + 200) ∧
        t.hw.mgt.pwr.sagExt = true ∧
        t.hw.get R.PWR_STATUS_SAG_CAUSE 0 = 1 ∧
        t.hw.drivesSagN = (s.hw.mgt.phase == .reset && s.hw.mgt.rst.sag && !t.hw.inputHeld) ∧
        State.Frame ([R.PWR_STATUS_SAG_CAUSE.key 0]) s t) ∧
  (∀ (t0 : Nat) (s : State),
      s.hw.lit = true →
      s.hw.mgt.pwr.sample = some t0 →
      ∃ t, exec (.sagNSampleEnd false) s = .next t ∧
        t.hw.clk.now = max s.hw.clk.now (t0 + 200) ∧
        t.hw.get R.PWR_STATUS_SAG_WARN 0 = 0 ∧
        t.hw.get R.PWR_STATUS_ACLK_MHZ 0 = max (s.hw.get R.PWR_STATUS_ACLK_MHZ) 1300 ∧
        State.Frame ([R.PWR_STATUS_SAG_WARN.key 0, R.PWR_STATUS_ACLK_MHZ.key 0] ++ s.hw.suspKeys) s t) ∧
  (∀ (s : State),
      s.hw.lit = true →
      s.hw.is R.PWR_STATUS_SAG_WARN = true →
      s.hw.mgt.pwr.sagExt = true →
      ∃ t, exec (.sagNRise) s = .next t ∧
        t.hw.mgt.pwr.sagExt = false ∧
        t.hw.mgt.pwr.sagFrom = s.hw.clk.now ∧
        State.Frame ([]) s t) ∧
  (∀ (l : InLevel) (ok : Bool) (s : State),
      s.hw.lit = true →
      ∃ t, exec (.inputReleaseLevel l ok) s = .next t ∧
        (match l with | .v52 => t.hw.mgt.pwr.in52 | .v48 => t.hw.mgt.pwr.in48 | .v65 => t.hw.mgt.pwr.in65) =
        (if ok then some ((match l with | .v52 => s.hw.mgt.pwr.in52 | .v48 => s.hw.mgt.pwr.in48 | .v65 => s.hw.mgt.pwr.in65).getD s.hw.clk.now) else none) ∧
        State.Frame ([]) s t)

/-- A CT sample shows the highest of the four sensors and, outside a trip, the level that the tracked samples give; a zone sample
shows its three sensors and the highest of them, and the hot-refresh bit of a stack at 85 degrees or more is 1, below 82 it is
0. A trip is held, counted in its unit, shown in THM_STATUS and on the pin THERM_N, and writes THM_TRIP_FRAME; it leaves after
its 100 samples (10 ms for a unit whose samples no command shows: the model). DROOP_EXCESS, above 1 % of the cycles, is set and
counted and suspends every pen with a stall on the die. Nothing else changes but the error log and the cause bits of pens. -/
def Obligations.ThermalConditions : Prop :=
  (∀ (d : Fin 24) (t0 : Fin 256) (t1 : Fin 256) (t2 : Fin 256) (t3 : Fin 256) (s : State),
      s.hw.lit = true →
      s.hw.tripped (.ct d) = false →
      ∃ t, exec (.ctTempSample d t0 t1 t2 t3) s = .next t ∧
        t.hw.get R.THM_CT_TEMP_C d = max (max t0.val t1.val) (max t2.val t3.val) ∧
        t.hw.therm (.ct d) = (s.hw.therm (.ct d)).sample (max (max t0.val t1.val) (max t2.val t3.val)) 95 100 108 ∧
        (t.hw.get R.THM_CT_LEVEL d = (t.hw.therm (.ct d)).level ∨ t.hw.get R.THM_CT_LEVEL d = (t.hw.therm (.ct d)).level % 8) ∧
        t.hw.get R.THM_CT_COUNT_C2 d = (if (s.hw.therm (.ct d)).level < 2 ∧ (t.hw.therm (.ct d)).level = 2
        then min (s.hw.get R.THM_CT_COUNT_C2 d + 1) 65535 else s.hw.get R.THM_CT_COUNT_C2 d) ∧
        State.Frame ([R.THM_CT_TEMP_C.key d, R.THM_CT_LEVEL.key d, R.THM_CT_COUNT_C2.key d] ++ s.hw.suspKeys) s t) ∧
  (∀ (m : HubId) (a : Fin 256) (b : Fin 256) (h : Fin 256) (s : State),
      s.hw.lit = true →
      ∃ t, exec (.zoneSample m a b h) s = .next t ∧
        t.hw.get R.MHB_TEMP_STACK0_C m = a.val ∧
        t.hw.get R.MHB_TEMP_STACK1_C m = b.val ∧
        t.hw.get R.MHB_TEMP_HUB_C m = h.val ∧
        t.hw.get R.MHB_TEMP_ZONE_C m = max (max a.val b.val) h.val ∧
        t.hw.get R.MHB_STATUS_HOT_REFRESH0 m = (if 85 ≤ a.val then 1 else if a.val < 82 then 0 else s.hw.get R.MHB_STATUS_HOT_REFRESH0 m) ∧
        t.hw.get R.MHB_STATUS_HOT_REFRESH1 m = (if 85 ≤ b.val then 1 else if b.val < 82 then 0 else s.hw.get R.MHB_STATUS_HOT_REFRESH1 m) ∧
        t.hw.therm (.zone m) = (s.hw.therm (.zone m)).sample (max (max a.val b.val) h.val) 88 92 98 ∧
        ((s.hw.therm (.zone m)).level ≠ (t.hw.therm (.zone m)).level →
        t.hw.get R.MHB_STATUS_THR_LEVEL m = (t.hw.therm (.zone m)).level % 4 ∧
        t.hw.get R.MHB_STATUS_ACLK_CAP m = if (t.hw.therm (.zone m)).level = 2 then 1 else 0) ∧
        State.Frame ([R.MHB_TEMP_STACK0_C.key m, R.MHB_TEMP_STACK1_C.key m, R.MHB_TEMP_HUB_C.key m, R.MHB_TEMP_ZONE_C.key m, R.MHB_STATUS_HOT_REFRESH0.key m, R.MHB_STATUS_HOT_REFRESH1.key m, R.MHB_THR_TIME_US.key m, R.MHB_THR_COUNT_L1.key m, R.MHB_THR_COUNT_L2.key m, R.MHB_STATUS_THR_LEVEL.key m, R.MHB_STATUS_ACLK_CAP.key m] ++ s.hw.suspKeys) s t) ∧
  (∀ (u : ThermUnit) (s : State),
      s.hw.lit = true →
      s.hw.tripped u = false →
      ∃ t, exec (.thermalTrip u) s = .next t ∧
        t.hw.tripped u = true ∧
        t.hw.get R.THM_STATUS_TRIP_ANY 0 = 1 ∧
        t.hw.drivesThermN = true ∧
        t.hw.get R.THM_TRIP_FRAME_FRAME 0 = s.hw.clk.frame % 2 ^ 64 ∧
        t.hw.get (tripCount u).1 (tripCount u).2 = min (s.hw.get (tripCount u).1 (tripCount u).2 + 1) 65535 ∧
        (∀ p ∈ s.hw.penList, t.hw.penTripped p = true → t.hw.get R.FSQ_STATE_SUSP_THERMAL p = 1 ∧ t.hw.get R.FSQ_STATE_SUSPENDED p = 1) ∧
        State.Frame ([(tripFlag u).1.key (tripFlag u).2, (tripCount u).1.key (tripCount u).2, R.THM_STATUS_TRIP_ANY.key 0,
        R.THM_TRIP_FRAME_FRAME.key 0] ++ logKeys ++ s.hw.suspKeys) s t) ∧
  (∀ (u : ThermUnit) (s : State),
      s.hw.lit = true →
      s.hw.tripped u = true →
      ((match u with | .ct _ => true | .zone _ => true | _ => false) = true → 100 ≤ (s.hw.therm u).cool) →
      ∃ t, exec (.tripRelease u) s = .next t ∧
        t.hw.get (tripFlag u).1 (tripFlag u).2 = (match u with | .ct _ => (s.hw.therm u).level % 8 | _ => 0) ∧
        ((match u with | .ct _ => true | .zone _ => true | _ => false) = false → t.hw.clk.now = max s.hw.clk.now ((s.hw.therm u).trip + 1000000)) ∧
        State.Frame ([(tripFlag u).1.key (tripFlag u).2, R.THM_STATUS_TRIP_ANY.key 0] ++ s.hw.suspKeys) s t) ∧
  (∀ (d : Fin 24) (aclk : Nat) (s : State),
      s.hw.diesUp = true →
      aclk < (Tbl.get {} d.val s.hw.mgt.pwr.droop).win * 100 →
      s.hw.is R.PWR_DROOP_EXCESS_ACTIVE d = false →
      ∃ t, exec (.droopWindow d aclk) s = .next t ∧
        t.hw.get R.PWR_DROOP_EXCESS_ACTIVE d = 1 ∧
        t.hw.get R.PWR_DROOP_EXCESS d = min (s.hw.get R.PWR_DROOP_EXCESS d + 1) 65535 ∧
        (∀ p ∈ s.hw.penList, (s.hw.penStalls p).any (fun n => dieOf n == d.val) = true →
        t.hw.get R.FSQ_STATE_SUSP_OTHER p = 1 ∧ t.hw.get R.FSQ_STATE_SUSPENDED p = 1) ∧
        State.Frame ([R.PWR_DROOP_EXCESS_ACTIVE.key d, R.PWR_DROOP_EXCESS.key d] ++ logKeys ++ s.hw.suspKeys) s t) ∧
  (∀ (d : Fin 24) (aclk : Nat) (s : State),
      s.hw.diesUp = true →
      (Tbl.get {} d.val s.hw.mgt.pwr.droop).win * 100 ≤ aclk →
      ∃ t, exec (.droopWindow d aclk) s = .next t ∧
        t.hw.get R.PWR_DROOP_EXCESS_ACTIVE d = (if 10 ≤ (Tbl.get {} d.val s.hw.mgt.pwr.droop).calm + 1 then 0 else s.hw.get R.PWR_DROOP_EXCESS_ACTIVE d) ∧
        State.Frame ([R.PWR_DROOP_EXCESS_ACTIVE.key d] ++ s.hw.suspKeys) s t)

/-- For entry temperatures e1 below e2 and a level of at most 2: a sample at or above e2 gives level 2, one at or above e1 gives at
least level 1, a level is never raised below its entry, and a level stays unless ten samples in a row lay more than 3 degrees
below its entry. -/
def Obligations.LevelTracking : Prop :=
  ∀ (x : Therm) (c e1 e2 trip : Nat), e1 < e2 → x.level ≤ 2 →
    (e2 ≤ c → (x.sample c e1 e2 trip).level = 2) ∧
    (e1 ≤ c → 1 ≤ (x.sample c e1 e2 trip).level) ∧
    (x.level < (x.sample c e1 e2 trip).level → (if (x.sample c e1 e2 trip).level = 2 then e2 else e1) ≤ c) ∧
    ((x.sample c e1 e2 trip).level < x.level → 10 ≤ if x.level = 2 then (x.sample c e1 e2 trip).low2 else (x.sample c e1 e2 trip).low1) ∧
    (c + 3 < e1 → (x.sample c e1 e2 trip).low1 = x.low1 + 1) ∧ (e1 ≤ c + 3 → (x.sample c e1 e2 trip).low1 = 0)

/-- While the dies have power each of SAG_RESET, OV_RESET, POWER_OVERCURRENT and THERMAL_CRITICAL leaves the device in reset with
cause 1, 2, 3, 4; an uncorrectable error on a port of a die other than a CT die and a fatal error of an MH, LK, TD or HX die
start the crash capture with cause 5; a host reset does so with cause 6, or boots at once with NO_DUMP; PERST_N on port 0, an
FLR of the PF and a CXL reset of port 0 boot at once with cause 7. In each case no device state is left but the levels of the
port pins, the tick does not run, every byte of device memory reads 0, every register outside those that outlive a device reset
is at its reset value, and host memory, the truss key store and the queue stay. -/
def Obligations.DeviceResets : Prop :=
  (∀ (s : State),
      s.hw.diesUp = true →
      ∃ t, exec (.sagReset) s = .next t ∧
        t.hw.mgt.phase = .reset ∧
        t.hw.get R.ERR_STATUS_LAST_DEV_RESET 0 = 1 ∧
        t.hw.dev = { ports := s.hw.dev.ports } ∧
        t.hw.clk = { now := t.hw.clk.now } ∧
        t.hw.mgt.keys = s.hw.mgt.keys ∧
        t.pending = s.pending ∧
        (∀ a, a < 2 ^ 48 → t.devByte a = 0#8) ∧
        (∀ a, t.hostByte a = s.hostByte a) ∧
        (∀ d k, keptId (k / 65536) = false → Tbl.get d k t.hw.regs = d)) ∧
  (∀ (s : State),
      s.hw.diesUp = true →
      ∃ t, exec (.ovReset) s = .next t ∧
        t.hw.mgt.phase = .reset ∧
        t.hw.get R.ERR_STATUS_LAST_DEV_RESET 0 = 2 ∧
        t.hw.dev = { ports := s.hw.dev.ports } ∧
        t.hw.clk = { now := t.hw.clk.now } ∧
        t.hw.mgt.keys = s.hw.mgt.keys ∧
        t.pending = s.pending ∧
        (∀ a, a < 2 ^ 48 → t.devByte a = 0#8) ∧
        (∀ a, t.hostByte a = s.hostByte a) ∧
        (∀ d k, keptId (k / 65536) = false → Tbl.get d k t.hw.regs = d)) ∧
  (∀ (t0 : Nat) (s : State),
      s.hw.diesUp = true →
      s.hw.is R.PWR_STATUS_CLAMP = true →
      s.hw.mgt.pwr.clampAt = some t0 →
      ∃ t, exec (.powerOvercurrent) s = .next t ∧
        t.hw.mgt.phase = .reset ∧
        t.hw.get R.ERR_STATUS_LAST_DEV_RESET 0 = 3 ∧
        t.hw.dev = { ports := s.hw.dev.ports } ∧
        t.hw.clk = { now := t.hw.clk.now } ∧
        t.hw.mgt.keys = s.hw.mgt.keys ∧
        t.pending = s.pending ∧
        (∀ a, a < 2 ^ 48 → t.devByte a = 0#8) ∧
        (∀ a, t.hostByte a = s.hostByte a) ∧
        (∀ d k, keptId (k / 65536) = false → Tbl.get d k t.hw.regs = d)) ∧
  (∀ (u : ThermUnit) (s : State),
      s.hw.diesUp = true →
      ∃ t, exec (.thermalCritical u) s = .next t ∧
        t.hw.mgt.phase = .reset ∧
        t.hw.get R.ERR_STATUS_LAST_DEV_RESET 0 = 4 ∧
        t.hw.dev = { ports := s.hw.dev.ports } ∧
        t.hw.clk = { now := t.hw.clk.now } ∧
        t.hw.mgt.keys = s.hw.mgt.keys ∧
        t.pending = s.pending ∧
        (∀ a, a < 2 ^ 48 → t.devByte a = 0#8) ∧
        (∀ a, t.hostByte a = s.hostByte a) ∧
        (∀ d k, keptId (k / 65536) = false → Tbl.get d k t.hw.regs = d)) ∧
  (∀ (d : Fin 40) (s : State),
      s.hw.diesUp = true →
      24 ≤ d.val →
      ∃ t, exec (.fabricUe d) s = .next t ∧
        t.hw.mgt.phase = .capture ∧
        t.hw.get R.ERR_STATUS_LAST_DEV_RESET 0 = 5 ∧
        t.hw.dev = { ports := s.hw.dev.ports } ∧
        t.hw.clk = { now := t.hw.clk.now } ∧
        t.hw.mgt.keys = s.hw.mgt.keys ∧
        t.pending = s.pending ∧
        (∀ a, a < 2 ^ 48 → t.devByte a = 0#8) ∧
        (∀ a, t.hostByte a = s.hostByte a) ∧
        (∀ d k, keptId (k / 65536) = false → Tbl.get d k t.hw.regs = d)) ∧
  (∀ (d : Fin 40) (s : State),
      s.hw.diesUp = true →
      24 ≤ d.val →
      d.val < 39 →
      ∃ t, exec (.dieFatal d) s = .next t ∧
        t.hw.mgt.phase = .capture ∧
        t.hw.get R.ERR_STATUS_LAST_DEV_RESET 0 = 5 ∧
        t.hw.dev = { ports := s.hw.dev.ports } ∧
        t.hw.clk = { now := t.hw.clk.now } ∧
        t.hw.mgt.keys = s.hw.mgt.keys ∧
        t.pending = s.pending ∧
        (∀ a, a < 2 ^ 48 → t.devByte a = 0#8) ∧
        (∀ a, t.hostByte a = s.hostByte a) ∧
        (∀ d k, keptId (k / 65536) = false → Tbl.get d k t.hw.regs = d)) ∧
  (∀ (n : Bool) (s : State),
      s.hw.hostUp = true →
      ∃ t, exec (.hostReset n) s = .next t ∧
        t.hw.mgt.phase = (if n then .boot else .capture) ∧
        t.hw.get R.ERR_STATUS_LAST_DEV_RESET 0 = 6 ∧
        t.hw.dev = { ports := s.hw.dev.ports } ∧
        t.hw.clk = { now := t.hw.clk.now } ∧
        t.hw.mgt.keys = s.hw.mgt.keys ∧
        t.pending = s.pending ∧
        (∀ a, a < 2 ^ 48 → t.devByte a = 0#8) ∧
        (∀ a, t.hostByte a = s.hostByte a) ∧
        (∀ d k, keptId (k / 65536) = false → Tbl.get d k t.hw.regs = d)) ∧
  (∀ (s : State),
      s.hw.diesUp = true →
      s.hw.dev.ports.contains 0 = true →
      ∃ t, exec (.perstAssert 0) s = .next t ∧
        t.hw.mgt.phase = .boot ∧
        t.hw.get R.ERR_STATUS_LAST_DEV_RESET 0 = 7 ∧
        t.hw.dev = { ports := s.hw.dev.ports.filter (· ≠ 0) } ∧
        t.hw.clk = { now := t.hw.clk.now } ∧
        t.hw.mgt.keys = s.hw.mgt.keys ∧
        t.pending = s.pending ∧
        (∀ a, a < 2 ^ 48 → t.devByte a = 0#8) ∧
        (∀ a, t.hostByte a = s.hostByte a) ∧
        (∀ d k, keptId (k / 65536) = false → Tbl.get d k t.hw.regs = d)) ∧
  (∀ (s : State),
      s.hw.portUp 0 = true →
      ∃ t, exec (.flr .pf) s = .next t ∧
        t.hw.mgt.phase = .boot ∧
        t.hw.get R.ERR_STATUS_LAST_DEV_RESET 0 = 7 ∧
        t.hw.dev = { ports := s.hw.dev.ports } ∧
        t.hw.clk = { now := t.hw.clk.now } ∧
        t.hw.mgt.keys = s.hw.mgt.keys ∧
        t.pending = s.pending ∧
        (∀ a, a < 2 ^ 48 → t.devByte a = 0#8) ∧
        (∀ a, t.hostByte a = s.hostByte a) ∧
        (∀ d k, keptId (k / 65536) = false → Tbl.get d k t.hw.regs = d)) ∧
  (∀ (s : State),
      s.hw.portUp 0 = true →
      ∃ t, exec (.cxlReset 0) s = .next t ∧
        t.hw.mgt.phase = .boot ∧
        t.hw.get R.ERR_STATUS_LAST_DEV_RESET 0 = 7 ∧
        t.hw.dev = { ports := s.hw.dev.ports } ∧
        t.hw.clk = { now := t.hw.clk.now } ∧
        t.hw.mgt.keys = s.hw.mgt.keys ∧
        t.pending = s.pending ∧
        (∀ a, a < 2 ^ 48 → t.devByte a = 0#8) ∧
        (∀ a, t.hostByte a = s.hostByte a) ∧
        (∀ d k, keptId (k / 65536) = false → Tbl.get d k t.hw.regs = d))

/-- A host fence, an overrun frame, an uncorrectable error on a port of a CT die and an engine reset that does not end put each pen
they cover, if it is in RUN, into DRAINING with the domain fenced, count the fence, record the LOG_SEQ of the one record, and
empty the queues of the pen's engines. No memory changes but the scratchpads of the CT die that are in no pen, which are zero-
filled. -/
def Obligations.FencesStart : Prop :=
  (∀ (p : PenId) (s : State),
      s.hw.hostUp = true →
      s.hw.present p = true →
      s.hw.get R.ERR_PEN_STATE_STATE p = 0 →
      ∃ t, exec (.hostFence p) s = .next t ∧
        t.hw.get R.ERR_PEN_STATE_STATE p = 1 ∧
        t.hw.get R.ERR_PEN_STATE_DOMAIN p = 2 ∧
        t.hw.get R.ERR_PEN_COUNT_FENCES p = min (s.hw.get R.ERR_PEN_COUNT_FENCES p + 1) 65535 ∧
        t.hw.get R.ERR_PEN_LAST_LOG_SEQ p = t.hw.get R.ERR_LOG_SEQ_NEWEST % 2 ^ 32 ∧
        (∀ e, s.hw.engOf p e = true → (t.hw.eng e).u0 = [] ∧ (t.hw.eng e).lap = [] ∧ (t.hw.eng e).main = []) ∧
        (t.hw.pen p).inst = none ∧
        State.Frame ([R.ERR_PEN_CTRL_FENCE.key p] ++ logKeys ++ fenceKeys p) s t) ∧
  (∀ (p : PenId) (f : Nat) (x : PenFrame) (t0 : Nat) (s : State),
      (s.hw.pen p).frames.find? (fun y => y.frame == f) = some x →
      s.hw.penRun p = true →
      s.hw.present p = true →
      s.hw.is R.FSQ_STATE_SUSPENDED p = false →
      s.hw.startOf (f + 1) = some t0 →
      (x.tailDone || (x.tailOk && x.bodyDone)) = false →
      ∃ t, exec (.frameOverrun p f) s = .next t ∧
        t.hw.clk.now = max s.hw.clk.now (t0 + 100 * s.hw.get R.TRS_TIMING_LAP_US) ∧
        t.hw.get R.FSQ_OVERRUN_COUNT_OVERRUN p = min (s.hw.get R.FSQ_OVERRUN_COUNT_OVERRUN p + 1) 65535 ∧
        t.hw.get R.ERR_PEN_STATE_STATE p = 1 ∧
        t.hw.get R.ERR_PEN_STATE_DOMAIN p = 2 ∧
        State.Frame ([R.FSQ_OVERRUN_COUNT_OVERRUN.key p] ++ logKeys ++ fenceKeys p) s t) ∧
  (∀ (p : PenId) (f : Nat) (x : PenFrame) (t0 : Nat) (s : State),
      (s.hw.pen p).frames.find? (fun y => y.frame == f) = some x →
      s.hw.penRun p = true →
      s.hw.present p = true →
      s.hw.is R.FSQ_STATE_SUSPENDED p = true →
      s.hw.startOf (f + 4) = some t0 →
      (x.tailDone || (x.tailOk && x.bodyDone)) = false →
      ∃ t, exec (.frameOverrun p f) s = .next t ∧
        t.hw.clk.now = max s.hw.clk.now t0 ∧
        t.hw.get R.FSQ_OVERRUN_COUNT_OVERRUN p = min (s.hw.get R.FSQ_OVERRUN_COUNT_OVERRUN p + 1) 65535 ∧
        t.hw.get R.ERR_PEN_STATE_STATE p = 1 ∧
        t.hw.get R.ERR_PEN_STATE_DOMAIN p = 2 ∧
        State.Frame ([R.FSQ_OVERRUN_COUNT_OVERRUN.key p] ++ logKeys ++ fenceKeys p) s t) ∧
  (∀ (d : Fin 40) (s : State),
      s.hw.diesUp = true →
      d.val < 24 →
      ∃ t, exec (.fabricUe d) s = .next t ∧
        (∀ p ∈ s.hw.penList, s.hw.get R.ERR_PEN_STATE_STATE p = 0 → (s.hw.penStalls p).any (fun n => n / 8 == d.val) = true →
        t.hw.get R.ERR_PEN_STATE_STATE p = 1 ∧ t.hw.get R.ERR_PEN_STATE_DOMAIN p = 3) ∧
        (∀ n : StallId, n.val / 8 = d.val → s.hw.penOf n = none → t.hw.get R.SPD_STATUS_ZEROING n = 1 ∧ (t.hw.stl n).slots = [] ∧ (t.hw.stl n).cvd = []) ∧
        State.BytesBut (fun a => ∃ n, n / 8 = d.val ∧ s.hw.penOf n = none ∧ spdAddr n ≤ a ∧ a < spdAddr n + spdSize) s t) ∧
  (∀ (n : StallId) (e : EngKind) (p : Nat) (s : State),
      engNum e < 7 →
      (s.hw.eng (Eng.key (.stall n e))).reset = true →
      s.hw.penOf n = some p →
      s.hw.get R.ERR_PEN_STATE_STATE p = 0 →
      ∃ t, exec (.stallHang (.stall n e)) s = .next t ∧
        t.hw.clk.now = max s.hw.clk.now ((s.hw.eng (Eng.key (.stall n e))).resetAt + 200) ∧
        t.hw.get R.ERR_PEN_STATE_STATE p = 1 ∧
        t.hw.get R.ERR_PEN_STATE_DOMAIN p = 1 ∧
        (t.hw.pen p).fenceStl = 2 ^ n.val ∧
        State.Frame ([] ++ logKeys ++ fenceKeys p) s t) ∧
  (∀ (m : HubId) (e : EngKind) (p : PenId) (s : State),
      7 ≤ engNum e →
      (s.hw.eng (Eng.key (.hub m e p))).reset = true →
      s.hw.present p = true →
      s.hw.get R.ERR_PEN_STATE_STATE p = 0 →
      ∃ t, exec (.stallHang (.hub m e p)) s = .next t ∧
        t.hw.clk.now = max s.hw.clk.now ((s.hw.eng (Eng.key (.hub m e p))).resetAt + 200) ∧
        t.hw.get R.ERR_PEN_STATE_STATE p = 1 ∧
        t.hw.get R.ERR_PEN_STATE_DOMAIN p = 2 ∧
        State.Frame ([] ++ logKeys ++ fenceKeys p) s t)

/-- At the end of a drain the pen is in RESET with no frame and no swap, the answered requests are counted, and each fenced stall is
filled with zeros; at 100 microseconds the engines still running are stopped. At reset completion the pen is HELD when HOLD is
set, otherwise it is to run at the first frame start at least 10 microseconds later, and a yoked pen is UNPAIRED without a role;
a RESUME write lets a HELD pen run from the next frame start. A watchdog stops the running command and resets the engine; the
engine then starts the oldest ready command of its first queue that holds one. The end of a function's drain clears DISABLING,
and after a truss-driven disable or a demotion it raises vector 0 of the VF (R398). -/
def Obligations.FencesGoOn : Prop :=
  (∀ (p : PenId) (s : State),
      s.hw.get R.ERR_PEN_STATE_STATE p = 1 →
      s.hw.runningOf p = [] →
      (s.hw.pen p).u0Swaps = false →
      ∃ t, exec (.drainEnd p) s = .next t ∧
        t.hw.get R.ERR_PEN_STATE_STATE p = 2 ∧
        (t.hw.pen p).frames = [] ∧
        (t.hw.pen p).swap = [] ∧
        (∀ n ∈ s.hw.fenceStalls p, ∀ a, spdAddr n ≤ a → a < spdAddr n + spdSize → t.devByte a = 0#8) ∧
        (∀ n ∈ s.hw.fenceStalls p, t.hw.get R.SPD_STATUS_ZEROING n = 1) ∧
        t.hw.get R.ERR_PEN_DRAIN_ANSWERED p = min (s.hw.get R.ERR_PEN_DRAIN_ANSWERED p + ((s.hw.pen p).bound.length + (s.hw.pen p).deferred.length)) 65535 ∧
        t.pending = s.pending) ∧
  (∀ (p : PenId) (s : State),
      s.hw.get R.ERR_PEN_STATE_STATE p = 1 →
      ∃ t, exec (.drainTimeout p) s = .next t ∧
        t.hw.clk.now = max s.hw.clk.now ((s.hw.pen p).fenceAt + 10000) ∧
        (∀ x ∈ s.hw.runningOf p, (t.hw.eng x.1).run = none) ∧
        t.pending = s.pending ∧
        t.mem = s.mem) ∧
  (∀ (p : PenId) (s : State),
      s.hw.get R.ERR_PEN_STATE_STATE p = 2 →
      (s.hw.pen p).runAt = none →
      s.hw.is R.ERR_PEN_CTRL_HOLD p = true →
      s.hw.yoked p = false →
      ∃ t, exec (.penResetDone p) s = .next t ∧
        t.hw.get R.ERR_PEN_STATE_STATE p = 3 ∧
        State.Frame ([R.ERR_PEN_STATE_STATE.key p]) s t) ∧
  (∀ (p : PenId) (s : State),
      s.hw.get R.ERR_PEN_STATE_STATE p = 2 →
      (s.hw.pen p).runAt = none →
      s.hw.is R.ERR_PEN_CTRL_HOLD p = false →
      s.hw.yoked p = false →
      ∃ t, exec (.penResetDone p) s = .next t ∧
        (t.hw.pen p).runAt = some (s.hw.clk.now + 1000) ∧
        State.Frame ([]) s t) ∧
  (∀ (p : PenId) (s : State),
      s.hw.get R.ERR_PEN_STATE_STATE p = 2 →
      (s.hw.pen p).runAt = none →
      s.hw.yoked p = true →
      ∃ t, exec (.penResetDone p) s = .next t ∧
        t.hw.get R.ERR_PEN_STATE_STATE p = (if s.hw.is R.ERR_PEN_CTRL_HOLD p = true then 3 else 2) ∧
        (t.hw.pen p).runAt = (if s.hw.is R.ERR_PEN_CTRL_HOLD p = true then none else some (s.hw.clk.now + 1000)) ∧
        t.hw.get R.YOK_PEN_STATE_STATE p = 0 ∧
        t.hw.get R.YOK_PEN_STATE_ROLE p = 0 ∧
        t.hw.get R.YOK_PEN_STATE_MISSED p = 0 ∧
        (t.hw.pen p).yoke = {} ∧
        t.pending = s.pending ∧
        t.mem = s.mem) ∧
  (∀ (p : PenId) (s : State),
      s.hw.hostUp = true →
      s.hw.get R.ERR_PEN_STATE_STATE p = 3 →
      ∃ t, exec (.penResume p) s = .next t ∧
        (t.hw.pen p).runAt = some s.hw.clk.now ∧
        State.Frame ([R.ERR_PEN_CTRL_RESUME.key p]) s t) ∧
  (∀ (e : Eng) (q : QCmd) (s : State),
      (s.hw.eng (Eng.key e)).run = some q →
      ((s.hw.eng (Eng.key e)).wdogF == some s.hw.clk.frame) = false →
      ∃ t, exec (.cmdWatchdog e) s = .next t ∧
        (t.hw.eng (Eng.key e)).run = none ∧
        (t.hw.eng (Eng.key e)).reset = true ∧
        (t.hw.eng (Eng.key e)).resetAt = s.hw.clk.now ∧
        (t.hw.eng (Eng.key e)).wdogF = some s.hw.clk.frame ∧
        t.pending = s.pending) ∧
  (∀ (e : Eng) (q : QCmd) (s : State),
      (s.hw.eng (Eng.key e)).run = some q →
      ((s.hw.eng (Eng.key e)).wdogF == some s.hw.clk.frame) = false →
      s.hw.penRun q.pen = false →
      q.pen < 16 →
      ∃ t, exec (.cmdWatchdog e) s = .next t ∧
        t.hw.get R.FSQ_WDOG_COUNT_COUNT q.pen = min (s.hw.get R.FSQ_WDOG_COUNT_COUNT q.pen + 1) 65535 ∧
        t.hw.get R.ERR_PEN_COUNT_ENGINE_RESETS q.pen = min (s.hw.get R.ERR_PEN_COUNT_ENGINE_RESETS q.pen + 1) 65535 ∧
        State.BytesBut (fun _ => False) s t ∧
        t.pending = s.pending ∧
        Hw.RegsBut ([R.FSQ_WDOG_COUNT_COUNT.key q.pen, R.ERR_PEN_COUNT_ENGINE_RESETS.key q.pen] ++ logKeys) s.hw t.hw) ∧
  (∀ (e : Eng) (s : State),
      (s.hw.eng (Eng.key e)).reset = true →
      (match e with | .stall n _ => s.hw.is R.SPD_STATUS_ZEROING n | .hub _ _ _ => false) = false →
      (match e with | .stall _ k => decide (engNum k < 7) | .hub _ k _ => decide (7 ≤ engNum k)) = true →
      ∃ t, exec (.engineResetDone e) s = .next t ∧
        (t.hw.eng (Eng.key e)).reset = false ∧
        (t.hw.eng (Eng.key e)).run = (s.hw.nextCmd (Eng.key e)).orElse (fun _ => (s.hw.eng (Eng.key e)).run) ∧
        State.Frame ([]) s t) ∧
  (∀ (f : FnId) (s : State),
      s.hw.is R.ERR_FN_STATUS_DISABLING f = true →
      (s.hw.dev.engs.all fun kv => kv.2.run.isNone) = true →
      ∃ t, exec (.functionDrainEnd f) s = .next t ∧
        t.hw.get R.ERR_FN_STATUS_DISABLING f = 0 ∧
        (s.hw.demotedPens f = [] → ∀ x ∈ s.hw.endingTenants f, (t.hw.ten x).disabling = none) ∧
        t.pending = s.pending) ∧
  (∀ (f : FnId) (s : State),
      s.hw.is R.ERR_FN_STATUS_DISABLING f = true →
      (s.hw.dev.engs.all fun kv => kv.2.run.isNone) = true →
      s.hw.tellsVf f = true →
      ∃ t, exec (.functionDrainEnd f) s = .next t ∧
        (f.val ∉ t.hw.dev.fnOff → t.hw.mgt.phase = .run →
        (t.hw.msixEntry f 0).pending = true ∨ t.hw.out.head? = some (.msi f 0 (t.hw.msixEntry f 0).addr (t.hw.msixEntry f 0).data)))

/-- The capture of a crash ends in the dump phase; the written dump then lies in a slot, DUMP_NEW is set, and the device boots. A
dump copy whose destination is page-aligned and inside the PF's windows becomes busy, and its end puts the dump's bytes into
host memory and sets COPY_DONE. The oldest record not in the flash log is written with the timestamp; the oldest unreported
record leaves as an event, or is dropped where the transmit queue is full. A unit whose corrected count of a second exceeds the
threshold is counted and logged once for that second. A sheepdog reset empties the sheepdog's own state and touches no device
state. -/
def Obligations.LogAndDumps : Prop :=
  (∀ (s : State),
      s.hw.mgt.phase = .capture →
      exec (.crashCaptureDone) s = .next { s with hw.mgt.phase := .dump }) ∧
  (∀ (d : Dump) (s : State),
      s.hw.mgt.phase = .dump →
      s.hw.mgt.rst.cap = some d →
      s.hw.is R.SEC_FW_PENDING_PENDING = false →
      ∃ t, exec (.dumpWriteDone) s = .next t ∧
        t.hw.mgt.phase = .boot ∧
        t.hw.mgt.rst.cap = none ∧
        t.hw.get R.ERR_STATUS_DUMP_NEW 0 = 1 ∧
        (if d.full then t.hw.mgt.dumps = Tbl.insert (dumpSlot 2 s.hw.mgt.dumps) d s.hw.mgt.dumps
        else t.hw.mgt.shorts = Tbl.insert (dumpSlot 4 s.hw.mgt.shorts) d s.hw.mgt.shorts) ∧
        State.Frame ([R.ERR_STATUS_DUMP_NEW.key 0, R.ERR_DUMP_STATUS_VALID.key 0, R.ERR_DUMP_STATUS_SHORT_VALID.key 0]) s t) ∧
  (∀ (d : Dump) (s : State),
      s.hw.hostUp = true →
      s.hw.mgt.sdgUp = true →
      s.hw.mgt.copy = none →
      s.hw.dumpOf (s.hw.get R.ERR_DUMP_CTRL_SOURCE) = some d →
      s.hw.get R.ERR_DUMP_DST_ADDR % 4096 = 0 →
      s.hw.dmaOk 0 (s.hw.get R.ERR_DUMP_DST_ADDR) d.size true = true →
      ∃ t, exec (.dumpCopy) s = .next t ∧
        t.hw.mgt.copy = some (s.hw.get R.ERR_DUMP_CTRL_SOURCE, s.hw.get R.ERR_DUMP_DST_ADDR) ∧
        t.hw.get R.ERR_DUMP_STATUS_BUSY 0 = 1 ∧
        State.Frame ([R.ERR_DUMP_STATUS_BUSY.key 0, R.ERR_DUMP_CTRL_COPY.key 0]) s t) ∧
  (∀ (src : Nat) (dst : Nat) (d : Dump) (s : State),
      s.hw.mgt.copy = some (src, dst) →
      s.hw.dumpOf src = some d →
      ∃ t, exec (.dumpCopyDone) s = .next t ∧
        t.hw.get R.ERR_DUMP_STATUS_BUSY 0 = 0 ∧
        t.hw.get R.ERR_DUMP_STATUS_COPY_DONE 0 = 1 ∧
        t.hw.mgt.copy = none ∧
        (∀ i, i < d.size → t.hostByte (dst + i) = d.byte i) ∧
        (∀ a, a < dst ∨ dst + d.size ≤ a → t.hostByte a = s.hostByte a) ∧
        t.mem.dev = s.mem.dev ∧
        t.mem.mark = s.mem.mark ∧
        t.pending = s.pending ∧
        Hw.RegsBut [R.ERR_DUMP_STATUS_BUSY.key 0, R.ERR_DUMP_STATUS_COPY_DONE.key 0] s.hw t.hw) ∧
  (∀ (x : Rec) (rest : List Rec) (s : State),
      s.hw.mgt.sdgUp = true →
      s.hw.mgt.log.toFl = x :: rest →
      ∃ t, exec (.flashLogWrite) s = .next t ∧
        t.hw.mgt.log.flash = ((x, s.hw.timestamp) :: s.hw.mgt.log.flash).take 65536 ∧
        t.hw.mgt.log.toFl = rest ∧
        State.Frame ([]) s t) ∧
  (∀ (room : Bool) (x : Rec) (rest : List Rec) (s : State),
      s.hw.mgt.sdgUp = true →
      s.hw.mgt.log.events = x :: rest →
      ∃ t, exec (.platformEventSend room) s = .next t ∧
        t.hw.out = (if room then [Out.msg 1 0x0A 0 x.bytes] else []) ++ s.hw.out ∧
        t.hw.mgt.log.events = rest ∧
        State.Frame ([]) s t) ∧
  (∀ (kd : Fin 8) (u : Fin 192) (fec : Nat) (x : CeCount) (s : State),
      s.hw.diesUp = true →
      s.hw.ceOf kd.val u.val fec = x →
      x.logged = false →
      s.hw.get R.ERR_CE_THRESH_PER_S < x.count →
      ∃ t, exec (.ceStorm kd u fec) s = .next t ∧
        t.hw.get R.ERR_COUNTS2_CE_STORM 0 = min (s.hw.get R.ERR_COUNTS2_CE_STORM 0 + 1) 65535 ∧
        Tbl.get {} (256 * kd.val + u.val) t.hw.dev.ce = { x with logged := true } ∧
        State.Frame ([R.ERR_COUNTS2_CE_STORM.key 0] ++ logKeys) s t) ∧
  (∀ (kd : Fin 8) (u : Fin 192) (fec : Nat) (x : CeCount) (s : State),
      s.hw.diesUp = true →
      s.hw.ceOf kd.val u.val fec = x →
      (x.logged = true ∨ x.count ≤ s.hw.get R.ERR_CE_THRESH_PER_S) →
      exec (.ceStorm kd u fec) s = .next s) ∧
  (∀ (s : State),
      s.hw.mgt.sdgUp = true →
      ∃ t, exec (.sdgReset) s = .next t ∧
        t.hw.get R.SDG_STATUS_STATE 0 = 2 ∧
        t.hw.get R.SDG_STATUS_RESETS 0 = min (s.hw.get R.SDG_STATUS_RESETS 0 + 1) 65535 ∧
        t.hw.mgt.sdgUp = false ∧
        t.hw.mgt.update = none ∧
        t.hw.mgt.spdm = [] ∧
        t.hw.mgt.keys = s.hw.mgt.keys ∧
        t.hw.clk = s.hw.clk ∧
        t.hw.dev.truss = s.hw.dev.truss ∧
        t.hw.dev.pens = s.hw.dev.pens ∧
        t.hw.dev.stls = s.hw.dev.stls ∧
        State.Frame ([R.SDG_STATUS_STATE.key 0, R.SDG_STATUS_EID_VALID.key 0, R.SDG_MGMT_MODE.key 0, R.SDG_MGMT_I3C_DA.key 0, R.SDG_MGMT_EID.key 0, R.SDG_STATUS_RESETS.key 0, R.ERR_DUMP_STATUS_BUSY.key 0, R.SEC_KEY_CTRL_APPLY.key 0] ++ logKeys) s t)

/-- SUPPLY_ON takes a dark module into reset; INRUSH_DONE notes that its capacitance is charged; a thermal cooldown starts the
release time; DEVICE_RELEASE, 10 ms after the last of its conditions, lets the device boot. A sheepdog boot counts, tries the
pending or the active bank, shows STATE, REASON and bank, and clears the pending flag. The end of the device boot starts the
zero-fill of every stall and the tick at frame 0; a die image that changed gives LIMITED with reason DIGEST. A trained CXL port
shows its width and rate, a deasserted PERST_N[0] samples HOST_BIFUR, and a loss of supply leaves flash and fuses alone. -/
def Obligations.BootSequence : Prop :=
  (∀ (s : State),
      s.hw.mgt.phase = .dark →
      ∃ t, exec (.supplyOn) s = .next t ∧
        t.hw.mgt.phase = .reset ∧
        t.hw.mgt.pwr.charged = none ∧
        t.hw.mgt.rst.cause = s.hw.mgt.rst.cause ∧
        t.hw.mgt.rst.clear = some s.hw.clk.now ∧
        State.Frame ([]) s t) ∧
  (∀ (s : State),
      s.hw.lit = true →
      s.hw.mgt.pwr.charged = none →
      ∃ t, exec (.inrushDone) s = .next t ∧
        t.hw.mgt.pwr.charged = some s.hw.clk.now ∧
        State.Frame ([]) s t) ∧
  (∀ (s : State),
      s.hw.mgt.phase = .reset →
      s.hw.mgt.rst.hot = true →
      ∃ t, exec (.criticalCooldown) s = .next t ∧
        t.hw.mgt.rst.clear = some s.hw.clk.now ∧
        t.hw.mgt.rst.hot = false ∧
        t.hw.mgt.phase = .reset ∧
        State.Frame ([]) s t) ∧
  (∀ (a : Nat) (b : Nat) (c : Nat) (d : Nat) (s : State),
      s.hw.mgt.phase = .reset →
      s.hw.mgt.pwr.charged = some a →
      s.hw.mgt.pwr.in48 = some b →
      s.hw.mgt.pwr.in65 = some c →
      s.hw.mgt.rst.clear = some d →
      ∃ t, exec (.deviceRelease) s = .next t ∧
        t.hw.mgt.phase = .boot ∧
        t.hw.clk.now = max s.hw.clk.now (max (max a b) (max c d) + 1000000) ∧
        State.Frame ([]) s t) ∧
  (∀ (ad : Fin 4) (s : State),
      s.hw.lit = true →
      s.hw.mgt.sdgUp = false →
      s.hw.rom = false →
      ∃ t, exec (.sheepdogBoot ad) s = .next t ∧
        t.hw.get R.SDG_BOOT_COUNT_BOOT 0 = min (s.hw.get R.SDG_BOOT_COUNT_BOOT 0 + 1) (2 ^ 32 - 1) ∧
        t.hw.mgt.sdgUp = ((s.hw.romBoot (if s.hw.is R.SEC_FW_PENDING_PENDING then s.hw.get R.SEC_FW_PENDING_BANK else s.hw.mgt.active)).2.2.1 != 2) ∧
        t.hw.get R.SEC_BOOT_STATUS_STATE 0 =
        (s.hw.romBoot (if s.hw.is R.SEC_FW_PENDING_PENDING then s.hw.get R.SEC_FW_PENDING_BANK else s.hw.mgt.active)).2.2.1 % 4 ∧
        t.hw.get R.SEC_BOOT_STATUS_REASON 0 =
        (s.hw.romBoot (if s.hw.is R.SEC_FW_PENDING_PENDING then s.hw.get R.SEC_FW_PENDING_BANK else s.hw.mgt.active)).2.2.2 % 256 ∧
        t.hw.get R.SEC_FW_PENDING_PENDING 0 = 0 ∧
        t.hw.get R.SDG_MGMT_SMB_ADDR 0 = 0x58 + ad.val ∧
        t.hw.mgt.bootAt = s.hw.clk.now ∧
        t.pending = s.pending ∧
        t.mem = s.mem) ∧
  (∀ (ok : Bool) (s : State),
      s.hw.mgt.phase = .boot →
      (s.hw.mgt.sdgUp || s.hw.rom) = true →
      ∃ t, exec (.deviceBootComplete ok) s = .next t ∧
        t.hw.mgt.phase = .run ∧
        (∀ n : StallId, t.hw.get R.SPD_STATUS_ZEROING n = 1) ∧
        t.hw.clk.running = true ∧
        t.hw.clk.frame = 0 ∧
        t.hw.clk.frameStart = s.hw.clk.now ∧
        (s.hw.get R.SEC_BOOT_STATUS_STATE = 0 → ok = false → t.hw.get R.SEC_BOOT_STATUS_STATE = 1 ∧ t.hw.get R.SEC_BOOT_STATUS_REASON = 4) ∧
        t.pending = s.pending ∧
        t.mem = s.mem) ∧
  (∀ (port : Fin 2) (lanes : Fin 17) (rate : Fin 3) (s : State),
      s.hw.mgt.phase = .run →
      s.hw.dev.ports.contains port.val = true →
      (port.val = 1 → s.hw.is R.HIF_PORT_BIFUR = true) →
      (lanes.val ∈ [2, 4, 8] ∨ (lanes.val = 16 ∧ s.hw.is R.HIF_PORT_BIFUR = false)) →
      rate.val ≠ 0 →
      ∃ t, exec (.cxlLinkTrained port lanes rate) s = .next t ∧
        (port.val = 0 → t.hw.get R.HIF_PORT_P0_UP = 1 ∧ t.hw.get R.HIF_PORT_P0_WIDTH = lanes.val ∧ t.hw.get R.HIF_PORT_P0_RATE = rate.val) ∧
        (port.val = 1 → t.hw.get R.HIF_PORT_P1_UP = 1 ∧ t.hw.get R.HIF_PORT_P1_WIDTH = lanes.val ∧ t.hw.get R.HIF_PORT_P1_RATE = rate.val) ∧
        State.Frame (if port.val = 0 then [R.HIF_PORT_P0_UP.key 0, R.HIF_PORT_P0_WIDTH.key 0, R.HIF_PORT_P0_RATE.key 0]
        else [R.HIF_PORT_P1_UP.key 0, R.HIF_PORT_P1_WIDTH.key 0, R.HIF_PORT_P1_RATE.key 0]) s t) ∧
  (∀ (port : Fin 2) (bifur : Bool) (s : State),
      s.hw.lit = true →
      s.hw.dev.ports.contains port.val = false →
      ∃ t, exec (.perstDeassert port bifur) s = .next t ∧
        t.hw.dev.ports = port.val :: s.hw.dev.ports ∧
        (port.val = 0 → t.hw.is R.HIF_PORT_BIFUR = bifur) ∧
        State.Frame (if port.val = 0 then [R.HIF_PORT_BIFUR.key 0] else []) s t) ∧
  (∀ (s : State),
      s.hw.lit = true →
      ∃ t, exec (.supplyLoss) s = .next t ∧
        t.hw.mgt.phase = .dark ∧
        t.hw.dev = {} ∧
        t.hw.mgt.sdgUp = false ∧
        t.hw.mgt.keys = s.hw.mgt.keys ∧
        t.hw.mgt.dumps = s.hw.mgt.dumps ∧
        t.hw.mgt.shorts = s.hw.mgt.shorts ∧
        t.hw.mgt.log = { flash := s.hw.mgt.log.flash } ∧
        t.hw.mgt.active = s.hw.mgt.active ∧
        t.hw.get R.SEC_ARC_ARC 0 = s.hw.get R.SEC_ARC_ARC 0 ∧
        t.hw.get R.SDG_BOOT_COUNT_BOOT 0 = s.hw.get R.SDG_BOOT_COUNT_BOOT 0 ∧
        (∀ a, a < 2 ^ 48 → t.devByte a = 0#8) ∧
        (∀ a, t.hostByte a = s.hostByte a) ∧
        (∀ d k, (flashFlds.any fun f => f.id == k / 65536) = false → Tbl.get d k t.hw.regs = d) ∧
        t.pending = s.pending)

/-- Over an up link, with no update in progress, each mailbox command is answered and raises vector 7 (the numbers of answers are
the model's, log 39): Get FW Info with the active and the pending slot, Get Timestamp with the running timestamp, Set Timestamp
sets it, the log commands with the one log. Transfer FW takes a whole package into the bank that is not running; its end checks
the bank and leaves it empty where the check fails; Activate FW makes a bank that passed pending. An update idle for 60 s is
forgotten. -/
def Obligations.MailboxAnswers : Prop :=
  (∀ (s : State),
      s.hw.hostUp = true →
      s.hw.mgt.sdgUp = true →
      s.hw.mgt.update = none →
      exec (.getFwInfo) s = .next { s with hw := s.hw.mbAnswer 0x0200 Ans.ok (leBytes 1 2 ++ leBytes 1 (s.hw.get R.SEC_BOOT_STATUS_BANK + 1) ++ leBytes 1 (if s.hw.is R.SEC_FW_PENDING_PENDING then s.hw.get R.SEC_FW_PENDING_BANK + 1 else 0)) }) ∧
  (∀ (s : State),
      s.hw.hostUp = true →
      s.hw.mgt.sdgUp = true →
      s.hw.mgt.update = none →
      exec (.getTimestamp) s = .next { s with hw := s.hw.mbAnswer 0x0300 Ans.ok (leBytes 8 (s.hw.mgt.stamp.1 + (s.hw.clk.now - s.hw.mgt.stamp.2) * 10)) }) ∧
  (∀ (v : BitVec 64) (s : State),
      s.hw.hostUp = true →
      s.hw.mgt.sdgUp = true →
      s.hw.mgt.update = none →
      exec (.setTimestamp v) s = .next { s with hw := (s.hw.modMgt fun m => { m with stamp := (v.toNat, s.hw.clk.now) }).mbAnswer 0x0301 Ans.ok [] }) ∧
  (∀ (s : State),
      s.hw.hostUp = true →
      s.hw.mgt.sdgUp = true →
      s.hw.mgt.update = none →
      exec (.getSupportedLogs) s = .next { s with hw := s.hw.mbAnswer 0x0400 Ans.ok (leBytes 2 1) }) ∧
  (∀ (s : State),
      s.hw.hostUp = true →
      s.hw.mgt.sdgUp = true →
      s.hw.mgt.update = none →
      exec (.getLog) s = .next { s with hw := s.hw.mbAnswer 0x0401 Ans.ok ([0x0200, 0x0201, 0x0202, 0x0300, 0x0301, 0x0400, 0x0401].flatMap fun op => leBytes 2 op ++ leBytes 2 (Config.pick 43 op 0)) }) ∧
  (∀ (slot : Fin 256) (p : FwPackage) (s : State),
      s.hw.hostUp = true →
      s.hw.mgt.sdgUp = true →
      s.hw.mgt.update = none →
      (slot.val = 1 ∨ slot.val = 2) →
      slot.val - 1 ≠ s.hw.get R.SEC_BOOT_STATUS_BANK →
      fwWhole p = true →
      ∃ t, exec (.transferFw slot p) s = .next t ∧
        t.hw.mgt.update = some ⟨false, slot.val - 1, p, true, s.hw.clk.now⟩ ∧
        Tbl.find? (slot.val - 1) t.hw.mgt.banks = none ∧
        (slot.val - 1 ∉ t.hw.mgt.passed) ∧
        t.hw.out.contains (.msg 0 0x0201 Ans.started []) = true ∧
        t.hw.mgt.active = s.hw.mgt.active ∧
        State.Frame ([]) s t) ∧
  (∀ (slot : Fin 256) (p : FwPackage) (s : State),
      s.hw.hostUp = true →
      s.hw.mgt.sdgUp = true →
      s.hw.mgt.update = none →
      (slot.val = 0 ∨ 2 < slot.val ∨ slot.val - 1 = s.hw.get R.SEC_BOOT_STATUS_BANK) →
      ∃ t, exec (.transferFw slot p) s = .next t ∧
        t.hw = s.hw.mbAnswer 0x0201 Ans.invalidSlot [] ∧
        t.mem = s.mem ∧
        t.pending = s.pending) ∧
  (∀ (u : Update) (s : State),
      s.hw.mgt.update = some u →
      u.busy = true →
      u.pldm = false →
      ∃ t, exec (.transferFwDone) s = .next t ∧
        t.hw.mgt.banks = (if s.hw.bankVerifies u.pkg = true ∧ s.hw.compatReason u.pkg = 0 then Tbl.insert u.slot u.pkg s.hw.mgt.banks else s.hw.mgt.banks) ∧
        t.hw.mgt.passed = (if s.hw.bankVerifies u.pkg = true ∧ s.hw.compatReason u.pkg = 0 then u.slot :: s.hw.mgt.passed else s.hw.mgt.passed) ∧
        t.hw.out.contains (.msg 0 0x0201 (if s.hw.bankVerifies u.pkg = false then Ans.corrupt else if s.hw.compatReason u.pkg ≠ 0 then Ans.invalidImage else Ans.ok) []) = true ∧
        State.Frame ([]) s t) ∧
  (∀ (slot : Fin 256) (s : State),
      s.hw.hostUp = true →
      s.hw.mgt.sdgUp = true →
      s.hw.mgt.update = none →
      slot.val ≠ 0 →
      s.hw.mgt.passed.contains (slot.val - 1) = true →
      ∃ t, exec (.activateFw slot false) s = .next t ∧
        t.hw.get R.SEC_FW_PENDING_PENDING 0 = 1 ∧
        t.hw.get R.SEC_FW_PENDING_BANK 0 = (slot.val - 1) % 2 ∧
        t.hw.mgt.update = none ∧
        t.hw.out.contains (.msg 0 0x0202 Ans.ok []) = true ∧
        State.Frame ([R.SEC_FW_PENDING_PENDING.key 0, R.SEC_FW_PENDING_BANK.key 0]) s t) ∧
  (∀ (slot : Fin 256) (s : State),
      s.hw.hostUp = true →
      s.hw.mgt.sdgUp = true →
      s.hw.mgt.update = none →
      exec (.activateFw slot true) s = .next { s with hw := s.hw.mbAnswer 0x0202 Ans.unsupported [] }) ∧
  (∀ (u : Update) (s : State),
      s.hw.mgt.update = some u →
      u.busy = false →
      ∃ t, exec (.updateIdleTimeout) s = .next t ∧
        t.hw.mgt.update = none ∧
        t.hw.clk.now = max s.hw.clk.now (u.seen + 60 * second) ∧
        State.Frame ([]) s t)

/-- A trial that has run 60 s in NORMAL without a spoiling event makes its bank the active one. An ARC commit with the key, in
NORMAL and outside a trial, burns towards COMMIT_TARGET; any other is discarded and sets REJECT; each burn raises ARC by one
fuse. An APPLY write submits the key record at SEC_KEYREC_ADDR unless one is under way; its end sets DONE with the new keys and
counter, or FAIL with the code of the first failing check and the key store unchanged. A debug token is kept for the next boot. -/
def Obligations.FirmwareTrust : Prop :=
  (∀ (t0 : Nat) (s : State),
      s.hw.mgt.sdgUp = true →
      s.hw.mgt.spoilt = false →
      s.hw.get R.SEC_BOOT_STATUS_STATE = 0 →
      s.hw.mgt.trial = some t0 →
      ∃ t, exec (.fwTrialConfirm) s = .next t ∧
        t.hw.mgt.active = s.hw.get R.SEC_BOOT_STATUS_BANK ∧
        t.hw.mgt.trial = none ∧
        t.hw.clk.now = max s.hw.clk.now (t0 + 60 * second) ∧
        t.hw.get R.SEC_FW_PENDING_TRY 0 = 0 ∧
        State.Frame ([R.SEC_FW_PENDING_TRY.key 0]) s t) ∧
  (∀ (s : State),
      s.hw.hostUp = true →
      s.hw.mgt.sdgUp = true →
      s.hw.get R.SEC_BOOT_STATUS_STATE = 0 →
      s.hw.is R.SEC_FW_PENDING_TRY = false →
      s.hw.get R.SEC_ARC_ARC < s.hw.get R.SEC_ARC_COMMIT_TARGET →
      ∃ t, exec (.arcCommit 0x4B41#16) s = .next t ∧
        t.hw.mgt.arcTo = some (s.hw.get R.SEC_ARC_COMMIT_TARGET) ∧
        State.Frame ([]) s t) ∧
  (∀ (key : BitVec 16) (s : State),
      s.hw.hostUp = true →
      (key ≠ 0x4B41#16 ∨ s.hw.mgt.sdgUp = false ∨ s.hw.get R.SEC_BOOT_STATUS_STATE ≠ 0 ∨ s.hw.is R.SEC_FW_PENDING_TRY = true) →
      ∃ t, exec (.arcCommit key) s = .next t ∧
        t.hw.get R.SEC_ARC_REJECT 0 = 1 ∧
        t.hw.mgt = s.hw.mgt ∧
        State.Frame ([R.SEC_ARC_REJECT.key 0]) s t) ∧
  (∀ (g : Nat) (s : State),
      s.hw.mgt.arcTo = some g →
      s.hw.get R.SEC_ARC_ARC < g →
      ∃ t, exec (.arcFuseBurn) s = .next t ∧
        t.hw.get R.SEC_ARC_ARC 0 = min (s.hw.get R.SEC_ARC_ARC 0 + 1) 63 ∧
        State.Frame ([R.SEC_ARC_ARC.key 0]) s t) ∧
  (∀ (s : State),
      s.hw.hostUp = true →
      s.hw.mgt.sdgUp = true →
      s.hw.mgt.keyRec = none →
      ∃ t, exec (.keyRecordApply) s = .next t ∧
        t.hw.mgt.keyRec = some (s.hw.get R.SEC_KEYREC_ADDR_ADDR) ∧
        t.hw.get R.SEC_KEY_CTRL_APPLY 0 = 1 ∧
        State.Frame ([R.SEC_KEY_CTRL_APPLY.key 0]) s t) ∧
  (∀ (s : State),
      s.hw.hostUp = true →
      s.hw.mgt.keyRec.isSome = true →
      exec (.keyRecordApply) s = .next s) ∧
  (∀ (a : Nat) (res : Completion) (s : State),
      s.hw.mgt.keyRec = some a →
      (a % 8 ≠ 0 ∨ s.hw.dmaOk 0 a 210 false = false ∨ res ≠ .ok) →
      ∃ t, exec (.keyRecordDone res) s = .next t ∧
        t.hw.get R.SEC_KEY_CTRL_FAIL 0 = 1 ∧
        t.hw.get R.SEC_KEY_CTRL_ERR 0 = 1 ∧
        t.hw.get R.SEC_KEY_CTRL_APPLY 0 = 0 ∧
        t.hw.mgt.keys = s.hw.mgt.keys ∧
        t.hw.get R.SEC_KEY_COUNTER_COUNTER 0 = s.hw.get R.SEC_KEY_COUNTER_COUNTER 0 ∧
        t.hw.mgt.keyRec = none ∧
        t.mem = s.mem ∧
        t.pending = s.pending) ∧
  (∀ (a : Nat) (b : Bytes) (s : State),
      s.hw.mgt.keyRec = some a →
      a % 8 = 0 →
      s.hw.dmaOk 0 a 210 false = true →
      b = (List.range 210).map (fun i => s.hostByte (a + i)) →
      ∃ t, exec (.keyRecordDone .ok) s = .next t ∧
        t.hw.get R.SEC_KEY_CTRL_ERR = s.hw.keyRecordCode b % 256 ∧
        (s.hw.keyRecordCode b = 0 → t.hw.get R.SEC_KEY_CTRL_DONE = 1 ∧ t.hw.get R.SEC_KEY_COUNTER_COUNTER = fld b 8 4 % 2 ^ 32 ∧ t.hw.mgt.keys = keysAfter b s.hw.mgt.keys) ∧
        (s.hw.keyRecordCode b ≠ 0 → t.hw.get R.SEC_KEY_CTRL_FAIL = 1 ∧ t.hw.get R.SEC_KEY_COUNTER_COUNTER = s.hw.get R.SEC_KEY_COUNTER_COUNTER ∧ t.hw.mgt.keys = s.hw.mgt.keys) ∧
        t.hw.mgt.keyRec = none ∧
        t.mem = s.mem ∧
        t.pending = s.pending) ∧
  (∀ (b : Bus) (tk : DebugTok) (s : State),
      s.hw.hearsBus b = true →
      ∃ t, exec (.debugToken b tk) s = .next t ∧
        t.hw.mgt.token = some tk ∧
        t.hw.get R.SEC_BOOT_STATUS_DEBUG 0 = s.hw.get R.SEC_BOOT_STATUS_DEBUG 0 ∧
        State.Frame ([R.SDG_MGMT_MODE.key 0, R.SDG_OOB_COUNTS_MCTP_RX.key 0]) s t)

/-- A message that arrives in the mode in force, or the first one, which sets the mode, is counted and answered: event receiver, cap
effecter, sensors, FRU data, file transfer, endpoint and dynamic address, update and activation. (The message numbers are the
model's, log 39.) A coolant temperature that crosses a threshold is sent as a sensor event once events are enabled, and no
record is logged. -/
def Obligations.ManagementPair : Prop :=
  (∀ (b : Bus) (on : Bool) (s : State),
      s.hw.hearsBus b = true →
      exec (.setEventReceiver b on) s = .next { s with hw := ((s.hw.heard b).modMgt fun m => { m with events := on }).pairAnswer 0x04 Ans.ok [] }) ∧
  (∀ (b : Bus) (w : Nat) (s : State),
      s.hw.hearsBus b = true →
      exec (.effecterWrite b 1 w) s = .next { s with hw := ((s.hw.heard b).set R.PWR_CAP_CAP_W 0 (min (max w 2900) 3200)).pairAnswer 0x31 Ans.ok [] }) ∧
  (∀ (b : Bus) (id : Nat) (w : Nat) (s : State),
      s.hw.hearsBus b = true →
      id ≠ 1 →
      exec (.effecterWrite b id w) s = .next { s with hw := (s.hw.heard b).pairAnswer 0x31 Ans.invalid [] }) ∧
  (∀ (b : Bus) (id : Nat) (now : Fin 256) (v : Nat) (s : State),
      s.hw.hearsBus b = true →
      (id ≤ 48 ∨ id = 57 ∨ id = 58 ∨ id = 59 ∨ id = 62) →
      s.hw.sensor id = some v →
      exec (.sensorRead b id now) s = .next { s with hw := (s.hw.heard b).pairAnswer 0x11 Ans.ok (leBytes 4 v) }) ∧
  (∀ (b : Bus) (id : Nat) (now : Fin 256) (s : State),
      s.hw.hearsBus b = true →
      49 ≤ id →
      id ≤ 56 →
      exec (.sensorRead b id now) s = .next { s with hw := ((s.hw.heard b).set R.THM_DIE_TEMP_C (id - 49) now.val).pairAnswer 0x11 Ans.ok (leBytes 4 now.val) }) ∧
  (∀ (b : Bus) (s : State),
      s.hw.hearsBus b = true →
      exec (.fruRead b) s = .next { s with hw := (s.hw.heard b).pairAnswer 0x02 Ans.ok (leBytes 1 (s.hw.get R.HIF_MODULE_ID_VARIANT) ++ leBytes 1 (s.hw.get R.HIF_MODULE_ID_STEPPING) ++ leBytes 1 (s.hw.get R.HIF_MODULE_ID_LOFT_TIB) ++ Config.serialNumber) }) ∧
  (∀ (b : Bus) (off : Nat) (len : Nat) (s : State),
      s.hw.hearsBus b = true →
      exec (.pldmFileRead b .log off len) s = .next { s with hw := (s.hw.heard b).pairAnswer 0x20 Ans.ok (slice (s.hw.mgt.log.flash.reverse.flatMap fun x => x.1.bytes) off len) }) ∧
  (∀ (b : Bus) (off : Nat) (len : Nat) (s : State),
      s.hw.hearsBus b = true →
      exec (.pldmFileRead b .certs off len) s = .next { s with hw := (s.hw.heard b).pairAnswer 0x20 Ans.ok (slice Config.certChain off len) }) ∧
  (∀ (b : Bus) (eid : BitVec 8) (s : State),
      s.hw.hearsBus b = true →
      exec (.mctpEidAssign b eid) s = .next { s with hw := (((s.hw.heard b).set R.SDG_MGMT_EID 0 eid.toNat).set R.SDG_STATUS_EID_VALID 0 1).pairAnswer 0x01 Ans.ok [] }) ∧
  (∀ (ad : BitVec 7) (s : State),
      s.hw.hearsBus .i3c = true →
      ∃ t, exec (.dynamicAddressAssign ad) s = .next t ∧
        t.hw.get R.SDG_MGMT_MODE 0 = 2 ∧
        t.hw.get R.SDG_MGMT_I3C_DA 0 = ad.toNat ∧
        State.Frame ([R.SDG_MGMT_MODE.key 0, R.SDG_MGMT_I3C_DA.key 0]) s t) ∧
  (∀ (b : Bus) (p : FwPackage) (s : State),
      s.hw.hearsBus b = true →
      s.hw.mgt.update = none →
      fwWhole p = true →
      exec (.requestUpdate b p) s = .next { s with hw := ((s.hw.heard b).transfer true (1 - s.hw.get R.SEC_BOOT_STATUS_BANK) p).pairAnswer 0x10 Ans.ok [] }) ∧
  (∀ (b : Bus) (u : Update) (s : State),
      s.hw.hearsBus b = true →
      s.hw.mgt.update = some u →
      u.pldm = true →
      u.busy = false →
      s.hw.mgt.passed.contains u.slot = true →
      exec (.activateFirmware b) s = .next { s with hw := ((s.hw.heard b).activate u.slot).pairAnswer 0x1A Ans.ok [] }) ∧
  (∀ (out : Bool) (c : Fin 256) (s : State),
      s.hw.mgt.sdgUp = true →
      s.hw.mgt.events = true →
      coolantRange out (s.hw.get (if out then R.SDG_COOLANT_OUTLET_C else R.SDG_COOLANT_INLET_C)) ≠ coolantRange out c.val →
      ∃ t, exec (.coolantThreshold out c) s = .next t ∧
        t.hw.get (if out then R.SDG_COOLANT_OUTLET_C else R.SDG_COOLANT_INLET_C) = c.val ∧
        t.hw.out.head? = some (.msg 1 0x0A Ans.ok (leBytes 2 (if out then 61 else 60) ++
        leBytes 1 (coolantRange out (s.hw.get (if out then R.SDG_COOLANT_OUTLET_C else R.SDG_COOLANT_INLET_C))) ++ leBytes 1 (coolantRange out c.val))) ∧
        t.hw.mgt.log = s.hw.mgt.log ∧
        State.Frame [(if out then R.SDG_COOLANT_OUTLET_C else R.SDG_COOLANT_INLET_C).key 0] s t)

/-- Each request in its order is answered on its own transport, and the stage and the session of the other transport stay. Slot 0
alone holds a certificate chain; signatures are refused while debug is open and their bytes are otherwise free values of the
model (log 33). Sessions exist on DOE only, and with a finished one CXL_IDE_KM programs a key of a port's stream and takes it
into and out of use. -/
def Obligations.SpdmResponder : Prop :=
  (∀ (p : SpdmPort) (s : State),
      s.hw.hearsSpdm p = true →
      exec (.getVersion p) s = .next { s with hw := ((s.hw.heardSpdm p).setSpdm p { s.hw.spdmSt p with stage := 1 }).spdmAnswer p 0x84 Ans.ok (leBytes 1 0x13) }) ∧
  (∀ (p : SpdmPort) (s : State),
      s.hw.hearsSpdm p = true →
      1 ≤ (s.hw.spdmSt p).stage →
      exec (.getCapabilities p) s = .next { s with hw := ((s.hw.heardSpdm p).setSpdm p { s.hw.spdmSt p with stage := 2 }).spdmAnswer p 0xE1 Ans.ok (leBytes 1 (if p = .doe then 0xF else 0x7)) }) ∧
  (∀ (p : SpdmPort) (s : State),
      s.hw.hearsSpdm p = true →
      2 ≤ (s.hw.spdmSt p).stage →
      exec (.negotiateAlgorithms p true) s = .next { s with hw := ((s.hw.heardSpdm p).setSpdm p { s.hw.spdmSt p with stage := 3 }).spdmAnswer p 0xE3 Ans.ok [] }) ∧
  (∀ (p : SpdmPort) (s : State),
      s.hw.hearsSpdm p = true →
      3 ≤ (s.hw.spdmSt p).stage →
      exec (.getDigests p) s = .next { s with hw := (s.hw.heardSpdm p).spdmAnswer p 0x81 Ans.ok (sha3_512 Config.certChain) }) ∧
  (∀ (p : SpdmPort) (off : Nat) (len : Nat) (s : State),
      s.hw.hearsSpdm p = true →
      3 ≤ (s.hw.spdmSt p).stage →
      exec (.getCertificate p 0 off len) s = .next { s with hw := (s.hw.heardSpdm p).spdmAnswer p 0x82 Ans.ok (slice Config.certChain off len) }) ∧
  (∀ (p : SpdmPort) (sl : Fin 8) (off : Nat) (len : Nat) (s : State),
      s.hw.hearsSpdm p = true →
      3 ≤ (s.hw.spdmSt p).stage →
      sl.val ≠ 0 →
      exec (.getCertificate p sl off len) s = .next { s with hw := (s.hw.heardSpdm p).spdmAnswer p 0x82 Ans.invalid [] }) ∧
  (∀ (p : SpdmPort) (s : State),
      s.hw.hearsSpdm p = true →
      3 ≤ (s.hw.spdmSt p).stage →
      s.hw.is R.SEC_BOOT_STATUS_DEBUG = false →
      exec (.challenge p 0) s = .next { s with hw := (s.hw.heardSpdm p).draw.2.spdmAnswer p 0x83 Ans.ok (sha3_512 Config.certChain ++ leBytes 114 (s.hw.heardSpdm p).draw.1) }) ∧
  (∀ (p : SpdmPort) (s : State),
      s.hw.hearsSpdm p = true →
      3 ≤ (s.hw.spdmSt p).stage →
      s.hw.is R.SEC_BOOT_STATUS_DEBUG = true →
      exec (.challenge p 0) s = .next { s with hw := (s.hw.heardSpdm p).spdmAnswer p 0x83 Ans.denied [] }) ∧
  (∀ (p : SpdmPort) (i : Fin 256) (s : State),
      s.hw.hearsSpdm p = true →
      3 ≤ (s.hw.spdmSt p).stage →
      1 ≤ i.val →
      i.val ≤ 9 →
      exec (.getMeasurements p i false) s = .next { s with hw := (s.hw.heardSpdm p).spdmAnswer p 0xE0 Ans.ok (s.hw.measurement i.val) }) ∧
  (∀ (s : State),
      s.hw.hearsSpdm .doe = true →
      3 ≤ (s.hw.spdmSt .doe).stage →
      s.hw.is R.SEC_BOOT_STATUS_DEBUG = false →
      exec (.keyExchange) s = .next { s with hw := (s.hw.setSpdm .doe { s.hw.spdmSt .doe with session := 1 }).signed .doe 0xE4 [] }) ∧
  (∀ (s : State),
      s.hw.hearsSpdm .doe = true →
      3 ≤ (s.hw.spdmSt .doe).stage →
      (s.hw.spdmSt .doe).session = 1 →
      exec (.finish) s = .next { s with hw := (s.hw.setSpdm .doe { s.hw.spdmSt .doe with session := 2 }).spdmAnswer .doe 0xE5 Ans.ok [] }) ∧
  (∀ (s : State),
      s.hw.hearsSpdm .doe = true →
      3 ≤ (s.hw.spdmSt .doe).stage →
      (s.hw.spdmSt .doe).session = 2 →
      exec (.endSession) s = .next { s with hw := (s.hw.setSpdm .doe { s.hw.spdmSt .doe with session := 0 }).spdmAnswer .doe 0xEC Ans.ok [] }) ∧
  (∀ (port : Fin 2) (stream : Fin 2) (key : Bytes) (s : State),
      s.hw.hearsSpdm .doe = true →
      (s.hw.spdmSt .doe).session = 2 →
      (port.val = 1 → s.hw.is R.HIF_PORT_BIFUR = true) →
      exec (.cxlIdeKm port stream (.prog key)) s = .next { s with hw := ({ s.hw with dev.ide := Tbl.insert (2 * port.val + stream.val) ⟨key, false⟩ s.hw.dev.ide }).spdmAnswer .doe 0x00 Ans.ok [] }) ∧
  (∀ (port : Fin 2) (stream : Fin 2) (on : Bool) (x : IdeKey) (s : State),
      s.hw.hearsSpdm .doe = true →
      (s.hw.spdmSt .doe).session = 2 →
      (port.val = 1 → s.hw.is R.HIF_PORT_BIFUR = true) →
      Tbl.find? (2 * port.val + stream.val) s.hw.dev.ide = some x →
      exec (.cxlIdeKm port stream (if on then .start else .stop)) s = .next { s with hw := ({ s.hw with dev.ide := Tbl.insert (2 * port.val + stream.val) { x with act := on } s.hw.dev.ide }).spdmAnswer .doe 0x00 Ans.ok [] })

/-- An FLR of a VF in service disables it: its host DMA windows read 0 and no longer pass any access, its MSI-X is as after reset
and not enabled, it raises no vector, and DISABLING reads 1 while its tenants drain. The same holds of every function of port 1
of two after a reset, a CXL reset or an FLR of its carrier function, of every function of a port whose link has been down, of
the VFs in service after VF_DISABLE, and of every function after D3hot. VF_ENABLE brings at most as many VFs into service as the
port has. -/
def Obligations.FunctionsAndPorts : Prop :=
  (∀ (f : FnId) (s : State),
      s.hw.portUp (s.hw.portOfFn f) = true →
      s.hw.vfOn f = true →
      ∃ t, exec (.flr (.vf f)) s = .next t ∧
        t.hw.dev.fnOff.contains f.val = true ∧
        (∀ w : Fin 8, t.hw.winRegs f.val w = (0, 0)) ∧
        (∀ v, t.hw.msixEntry f.val v = {}) ∧
        t.hw.dev.msixEn.contains f.val = false ∧
        t.hw.get R.ERR_FN_STATUS_DISABLING f.val = 1 ∧
        (s.hw.dev.engs = [] → t.mem = s.mem) ∧
        t.pending = s.pending) ∧
  (∀ (s : State),
      s.hw.portUp 1 = true →
      s.hw.is R.HIF_PORT_BIFUR 0 = true →
      ∃ t, exec (.flr .cf) s = .next t ∧
        (∀ f : Fin 64, 32 ≤ f.val →
        t.hw.dev.fnOff.contains f.val = true ∧ (∀ w : Fin 8, t.hw.winRegs f w = (0, 0)) ∧ t.hw.dev.msixEn.contains f.val = false ∧
          t.hw.get R.ERR_FN_STATUS_DISABLING f = 1) ∧
        (s.hw.dev.engs = [] → t.mem = s.mem) ∧
        t.pending = s.pending) ∧
  (∀ (s : State),
      s.hw.portUp 1 = true →
      s.hw.is R.HIF_PORT_BIFUR 0 = true →
      ∃ t, exec (.cxlReset 1) s = .next t ∧
        (∀ f : Fin 64, 32 ≤ f.val →
        t.hw.dev.fnOff.contains f.val = true ∧ (∀ w : Fin 8, t.hw.winRegs f w = (0, 0)) ∧ t.hw.dev.msixEn.contains f.val = false ∧
          t.hw.get R.ERR_FN_STATUS_DISABLING f = 1) ∧
        (s.hw.dev.engs = [] → t.mem = s.mem) ∧
        t.pending = s.pending) ∧
  (∀ (s : State),
      s.hw.dev.ports.contains 1 = true →
      s.hw.is R.HIF_PORT_BIFUR 0 = true →
      ∃ t, exec (.perstAssert 1) s = .next t ∧
        (∀ f : Fin 64, 32 ≤ f.val →
        t.hw.dev.fnOff.contains f.val = true ∧ (∀ w : Fin 8, t.hw.winRegs f w = (0, 0)) ∧ t.hw.dev.msixEn.contains f.val = false ∧
          t.hw.get R.ERR_FN_STATUS_DISABLING f = 1) ∧
        (s.hw.dev.engs = [] → t.mem = s.mem) ∧
        t.pending = s.pending ∧
        t.hw.dev.ports.contains 1 = false ∧
        t.hw.get R.HIF_PORT_P1_UP 0 = 0 ∧
        t.hw.mgt.phase = s.hw.mgt.phase) ∧
  (∀ (port : Fin 2) (s : State),
      s.hw.portUp port = true →
      ∃ t, exec (.cxlLinkDownTimeout port) s = .next t ∧
        (∀ f : Fin 64, s.hw.portOfFn f = port.val →
        t.hw.dev.fnOff.contains f.val = true ∧ (∀ w : Fin 8, t.hw.winRegs f w = (0, 0)) ∧ t.hw.dev.msixEn.contains f.val = false ∧
          t.hw.get R.ERR_FN_STATUS_DISABLING f = 1) ∧
        (s.hw.dev.engs = [] → t.mem = s.mem) ∧
        t.pending = s.pending ∧
        t.hw.portUp port = false) ∧
  (∀ (port : Fin 2) (s : State),
      s.hw.portUp port = true →
      ∃ t, exec (.vfDisable port) s = .next t ∧
        (∀ f : Fin 64, s.hw.portOfFn f = port.val ∧ s.hw.vfOn f = true →
        t.hw.dev.fnOff.contains f.val = true ∧ (∀ w : Fin 8, t.hw.winRegs f w = (0, 0)) ∧ t.hw.dev.msixEn.contains f.val = false ∧
          t.hw.get R.ERR_FN_STATUS_DISABLING f = 1) ∧
        (s.hw.dev.engs = [] → t.mem = s.mem) ∧
        t.pending = s.pending ∧
        (∀ f : Fin 64, s.hw.portOfFn f = port.val → t.hw.vfOn f = false)) ∧
  (∀ (s : State),
      s.hw.hostUp = true →
      ∃ t, exec (.d3hot) s = .next t ∧
        (∀ f : Fin 64, True →
        t.hw.dev.fnOff.contains f.val = true ∧ (∀ w : Fin 8, t.hw.winRegs f w = (0, 0)) ∧ t.hw.dev.msixEn.contains f.val = false ∧
          t.hw.get R.ERR_FN_STATUS_DISABLING f = 1) ∧
        (s.hw.dev.engs = [] → t.mem = s.mem) ∧
        t.pending = s.pending) ∧
  (∀ (port : Fin 2) (num : Fin 64) (s : State),
      s.hw.portUp port = true →
      ∃ t, exec (.vfEnable port num) s = .next t ∧
        Tbl.get 0 port t.hw.dev.vfs = min num.val (if port.val = 1 then 32 else if s.hw.is R.HIF_PORT_BIFUR 0 then 31 else 63) ∧
        (∀ f : Fin 64, s.hw.portOfFn f = port.val → t.hw.vfOn f = true → t.hw.dev.fnOff.contains f.val = false) ∧
        (s.hw.dev.fnOff = [] → t.mem = s.mem) ∧
        t.pending = s.pending)

/-- A 4 B read of PF BAR0 answers its word, clears the RC fields in it and no other register; of a 64-bit register the low word
latches the high one. A write to a window register takes effect on checks a microsecond later. An unmasked vector that is
pending and enabled is sent. A write stores RW fields, clears W1C fields where it is 1, and discards the rest. A host write
inside one line of the trough that the port may reach stores those bytes, poisoned or not, and no others; a read answers them; a
snoop finds no line. -/
def Obligations.HostAccesses : Prop :=
  (∀ (a : Nat) (s : State),
      s.hw.hostUp = true →
      s.hw.responds a = true →
      a % 4 = 0 →
      highWord a = false →
      highWord (a + 4) = false →
      ∃ t, exec (.rcFieldRead .bar0 a 4) s = .next t ∧
        t.hw.out = .reg .bar0 a ((s.hw.refresh a).word 0 a) :: s.hw.out ∧
        (∀ x ∈ fieldsAt a, x.1.acc = .RC → x.1 ≠ R.PWR_SAG_MIN_VIN → t.hw.get x.1 x.2.1 = 0) ∧
        State.Frame ((fieldsAt a).map fun x => x.1.key x.2.1) s t) ∧
  (∀ (a : Nat) (s : State),
      s.hw.hostUp = true →
      s.hw.responds a = true →
      s.hw.responds (a + 4) = true →
      a % 4 = 0 →
      highWord a = false →
      highWord (a + 4) = true →
      ∃ t, exec (.lowWordRead .bar0 a) s = .next t ∧
        t.hw.out = .reg .bar0 a (((s.hw.refresh a).refresh (a + 4)).word 0 a) :: s.hw.out ∧
        Tbl.find? (a + 4) t.hw.latch = some (((s.hw.refresh a).refresh (a + 4)).word 0 (a + 4)) ∧
        State.Frame ((fieldsAt a ++ fieldsAt (a + 4)).map fun x => x.1.key x.2.1) s t) ∧
  (∀ (f : FnId) (w : Fin 8) (limit : Bool) (value : BitVec 64) (s : State),
      s.hw.hostUp = true →
      ∃ t, exec (.dmaWindowWrite f w limit value) s = .next t ∧
        t.hw.winRegs f w = (if limit then ((s.hw.winRegs f w).1, value.toNat &&& (2 ^ 64 - 4096)) else (value.toNat &&& (2 ^ 64 - 4096 + 7), (s.hw.winRegs f w).2)) ∧
        t.hw.effWin f w = s.hw.effWin f w ∧
        ({ t.hw with clk.now := s.hw.clk.now + 100 } : Hw).effWin f w = t.hw.winRegs f w ∧
        (∀ g : FnId, ∀ v : Fin 8, ¬(g = f ∧ v = w) → t.hw.winRegs g v = s.hw.winRegs g v) ∧
        State.Frame ([]) s t) ∧
  (∀ (f : FnId) (v : Fin 2048) (s : State),
      s.hw.portUp (s.hw.portOfFn f) = true →
      ((f.val == 0) || s.hw.vfOn f) = true →
      v.val < vectors f →
      (s.hw.msixEntry f v).pending = true →
      s.hw.dev.msixEn.contains f.val = true →
      s.hw.dev.fnOff.contains f.val = false →
      ∃ t, exec (.msixUnmask f v) s = .next t ∧
        t.hw.out = .msi f v (s.hw.msixEntry f v).addr (s.hw.msixEntry f v).data :: s.hw.out ∧
        (t.hw.msixEntry f v).pending = false ∧
        (t.hw.msixEntry f v).masked = false ∧
        State.Frame ([]) s t) ∧
  (∀ (v : BitVec 32) (s : State),
      s.hw.hostUp = true →
      s.hw.get R.SEC_BOOT_STATUS_STATE 0 = 0 →
      ∃ t, exec (.registerWrite .bar0 0x10010 4 v.toNat) s = .next t ∧
        t.hw.get R.TRS_SRC_LEN_LEN 0 = v.toNat ∧
        State.Frame ([R.TRS_SRC_LEN_LEN.key 0]) s t) ∧
  (∀ (v : BitVec 32) (s : State),
      s.hw.hostUp = true →
      s.hw.get R.SEC_BOOT_STATUS_STATE 0 = 0 →
      s.hw.get R.TRS_STATUS_DONE 0 ≤ 1 →
      ∃ t, exec (.registerWrite .bar0 0x10018 4 v.toNat) s = .next t ∧
        (bit v.toNat 6 = true → t.hw.get R.TRS_STATUS_DONE 0 = 0) ∧
        (bit v.toNat 6 = false → t.hw.get R.TRS_STATUS_DONE 0 = s.hw.get R.TRS_STATUS_DONE 0) ∧
        State.Frame ([R.TRS_STATUS_DONE.key 0, R.TRS_STATUS_FAIL.key 0, R.TRS_STATUS_SKIPPED.key 0, R.TRS_STATUS_BUSY_REFUSED.key 0]) s t) ∧
  (∀ (v : BitVec 32) (s : State),
      s.hw.hostUp = true →
      s.hw.get R.SEC_BOOT_STATUS_STATE 0 = 0 →
      exec (.registerWrite .bar0 0 4 v.toNat) s = .next s) ∧
  (∀ (port : Fin 2) (off : Nat) (b : Bytes) (poison : Bool) (s : State),
      s.hw.portUp port = true →
      off + b.length ≤ troughSize →
      off % 64 + b.length ≤ 64 →
      s.hw.hdmReach port (troughBase + off) b.length = true →
      ∃ t, exec (.hdmWrite port off b poison []) s = .next t ∧
        (∀ i, i < b.length → t.devByte (troughBase + off + i) = b.getD i 0) ∧
        State.BytesBut (fun a => troughBase + off ≤ a ∧ a < troughBase + off + b.length) s t ∧
        (poison = true → b ≠ [] → bit (t.lineMark ((troughBase + off) / 64)) 0 = true) ∧
        (poison = false → b.length = 64 → t.lineMark ((troughBase + off) / 64) = 0) ∧
        t.pending = s.pending ∧
        Hw.RegsBut logKeys s.hw t.hw) ∧
  (∀ (port : Fin 2) (off : Nat) (len : Nat) (s : State),
      s.hw.portUp port = true →
      off + len ≤ troughSize →
      off % 64 + len ≤ 64 →
      s.hw.hdmReach port (troughBase + off) len = true →
      s.hw.dev.soft = [] →
      ∃ t, exec (.hdmRead port off len []) s = .next t ∧
        t.hw.out = .hdm ((List.range len).map fun i => s.devByte (troughBase + off + i)) (decide (0 < len) && bit (s.lineMark ((troughBase + off) / 64)) 0) :: s.hw.out ∧
        State.Frame ([]) s t) ∧
  (∀ (port : Fin 2) (a : Nat) (s : State),
      s.hw.portUp port = true →
      exec (.hostSnoop port a) s = .next { s with hw := s.hw.emit (.snoop a) })

/-- A SCARF_PACK that is not malformed runs to its end: counted, its pieces written from DST on and nowhere else, its slot FULL; a
matrix whose header is bad gives one piece whose header is 64 zero bytes, raises the counter once and is one tile. A CDE_CMD
that is not malformed and touches no unpopulated address runs to its end, is counted and shown: UNPACK, KV_ENC and KV_DEC write
only from DST on, 4,096 bytes a block, 18 and 64 bytes a KV-45 block; PACK writes only index entries and stored data of its
stream, up to its limit. No register outside the engine, the memory path and the slots changes. -/
def Obligations.ScarfAndCompressionEngines : Prop :=
  (∀ (m : HubId) (p : PenId) (i : Issue) (cmd : Bytes) (s : State) (h : Hx) (n : Nat),
      s.hw.hx m p 8 i = some h →
      (ScarfPack.of cmd).bad s.hw p cmd = false →
      unpopFirst s.hw.loftTib (ScarfPack.of cmd).src 32 = none →
      s.hw.penSpd p (ScarfPack.of cmd).dst = some n →
      s.hw.is R.SPD_STATUS_ZEROING n = false →
      unpopFirst s.hw.loftTib (ScarfPack.of cmd).dst ((ScarfPack.of cmd).tiles * pieceSize) = none →
      ∃ t, exec (.scarfPack m p i cmd) s = .next t ∧
        t.hw.get R.MHB_SCF_CMDS_CMDS m = min (s.hw.get R.MHB_SCF_CMDS_CMDS m + 1) (2 ^ 32 - 1) ∧
        t.hw.get R.MHB_SCF_STATUS_PEN m = p.val % 16 ∧
        Hw.slotWritten s.hw t.hw n (ScarfPack.of cmd).slotO ∧
        State.BytesBut (fun a => (ScarfPack.of cmd).dst ≤ a ∧ a < (ScarfPack.of cmd).dst + (ScarfPack.of cmd).tiles * pieceSize) s t ∧
        t.pending = s.pending ∧
        Hw.FieldsBut (memFlds ++ slotFlds ++ portFlds ++ scarfFlds) s.hw t.hw) ∧
  (∀ (m : HubId) (p : PenId) (i : Issue) (cmd : Bytes) (s : State) (h : Hx) (n : Nat),
      s.hw.hx m p 8 i = some h →
      (ScarfPack.of cmd).bad s.hw p cmd = false →
      unpopFirst s.hw.loftTib (ScarfPack.of cmd).src 32 = none →
      s.hw.penSpd p (ScarfPack.of cmd).dst = some n →
      s.hw.is R.SPD_STATUS_ZEROING n = false →
      unpopFirst s.hw.loftTib (ScarfPack.of cmd).dst ((ScarfPack.of cmd).tiles * pieceSize) = none →
      Run.crbHdr { hw := s.hw, mem := s.mem } (ScarfPack.of cmd).src = none →
      (s.hw.stl n).waits = [] →
      ∃ t, exec (.scarfPack m p i cmd) s = .next t ∧
        t.leAt (ScarfPack.of cmd).dst 64 = 0 ∧
        t.hw.arr n (ScarfPack.of cmd).ctr = (s.hw.arr n (ScarfPack.of cmd).ctr + 1) % 2 ^ 32 ∧
        t.hw.get R.MHB_SCF_TILES_TILES m = min (s.hw.get R.MHB_SCF_TILES_TILES m + 1) (2 ^ 32 - 1)) ∧
  (∀ (m : HubId) (p : PenId) (i : Issue) (cmd : Bytes) (s : State) (h : Hx) (xs : List (Nat × Nat)),
      s.hw.hx m p 7 i = some h →
      Run.cdeCheck { hw := s.hw, mem := s.mem } p (CdeCmd.of cmd) cmd = (false, xs) →
      xs.all (fun x => (unpopFirst s.hw.loftTib x.1 x.2).isNone) = true →
      (CdeCmd.of cmd).op ≠ 1 →
      ∃ t, exec (.cdeCmd m p i cmd) s = .next t ∧
        t.hw.get R.CDE_CMDS_CMDS m = min (s.hw.get R.CDE_CMDS_CMDS m + 1) (2 ^ 32 - 1) ∧
        t.hw.get R.CDE_STATUS_PEN m = p.val % 16 ∧
        t.hw.get R.CDE_STATUS_OP m = (CdeCmd.of cmd).op ∧
        State.BytesBut (fun a => (CdeCmd.of cmd).dst ≤ a ∧ a < (CdeCmd.of cmd).dst + (if (CdeCmd.of cmd).op = 0 then 4096 else if (CdeCmd.of cmd).op = 2 then 18 else 64) * (CdeCmd.of cmd).count) s t ∧
        t.pending = s.pending ∧
        Hw.FieldsBut (memFlds ++ slotFlds ++ portFlds ++ cdeFlds) s.hw t.hw) ∧
  (∀ (m : HubId) (p : PenId) (i : Issue) (cmd : Bytes) (s : State) (h : Hx) (xs : List (Nat × Nat)) (hd : CwHdr) (o : Nat),
      s.hw.hx m p 7 i = some h →
      Run.cdeCheck { hw := s.hw, mem := s.mem } p (CdeCmd.of cmd) cmd = (false, xs) →
      xs.all (fun x => (unpopFirst s.hw.loftTib x.1 x.2).isNone) = true →
      (CdeCmd.of cmd).op = 1 →
      hd = CwHdr.of (Run.read ({ hw := s.hw, mem := s.mem } : Run) (CdeCmd.of cmd).dst 256) →
      o = s.leAt ((CdeCmd.of cmd).dst + hd.idx + 4 * (CdeCmd.of cmd).first) 4 % 2 ^ 31 →
      ∃ t, exec (.cdeCmd m p i cmd) s = .next t ∧
        t.hw.get R.CDE_CMDS_CMDS m = min (s.hw.get R.CDE_CMDS_CMDS m + 1) (2 ^ 32 - 1) ∧
        t.hw.get R.CDE_STATUS_PEN m = p.val % 16 ∧
        t.hw.get R.CDE_STATUS_OP m = (CdeCmd.of cmd).op ∧
        State.BytesBut (fun a => ((CdeCmd.of cmd).dst + hd.idx + 4 * (CdeCmd.of cmd).first ≤ a ∧ a < (CdeCmd.of cmd).dst + hd.idx + 4 * ((CdeCmd.of cmd).first + (CdeCmd.of cmd).count + 1)) ∨
        ((CdeCmd.of cmd).dst + hd.data + 16 * o ≤ a ∧ a < (CdeCmd.of cmd).dst + hd.data + 16 * o + (CdeCmd.of cmd).limit)) s t ∧
        t.pending = s.pending ∧
        Hw.FieldsBut (memFlds ++ slotFlds ++ portFlds ++ cdeFlds) s.hw t.hw)

/-- A LOOKUP for a bind position with no bound sequence, or whose context uses no prefix table, writes 0 blocks reused; one whose
first block is not in the table counts a miss, writes the tokens reused so far with the stop mark, and leaves the context's
chain alone. An INSERT that does not follow the chain counts a skip and writes nothing. KV_RQ DONE takes its ticket off the list
and counts its spans; FETCH with an empty queue writes 64 zero bytes; otherwise, with a free page for a span, it opens a ticket
for the run of queued spans of the oldest context and writes its number. -/
def Obligations.KvHubCommands : Prop :=
  (∀ (m : HubId) (p : PenId) (i : Issue) (cmd : Bytes) (s : State) (h : Hx) (n : Nat),
      s.hw.hx m p 9 i = some h →
      prefixBad s.hw p (match (s.hw.pen p).kv.cfg with | some c => c.gKv | none => 0) cmd = false →
      s.hw.penSpd p (fld cmd 0x10 8) = some n →
      s.hw.is R.SPD_STATUS_ZEROING n = false →
      s.hw.noReclaim p = true →
      fld cmd 1 1 = 0 →
      unpopFirst s.hw.loftTib (fld cmd 0x10 8) 8 = none →
      ((s.hw.pen p).bound.find? fun b => b.frame == h.frame && b.pos == fld cmd 2 1) = none →
      ∃ t, exec (.kvPrefix m p i cmd) s = .next t ∧
        t.leAt (fld cmd 0x10 8) 8 = 0 ∧
        State.BytesBut (fun a => (fld cmd 0x10 8) ≤ a ∧ a < (fld cmd 0x10 8) + 8) s t ∧
        t.pending = s.pending ∧
        Hw.FieldsBut (memFlds ++ slotFlds ++ portFlds ++ kvmFlds) s.hw t.hw) ∧
  (∀ (m : HubId) (p : PenId) (i : Issue) (cmd : Bytes) (s : State) (h : Hx) (n : Nat) (c : KvCfg) (b : Bound),
      s.hw.hx m p 9 i = some h →
      prefixBad s.hw p (match (s.hw.pen p).kv.cfg with | some c => c.gKv | none => 0) cmd = false →
      s.hw.penSpd p (fld cmd 0x10 8) = some n →
      s.hw.is R.SPD_STATUS_ZEROING n = false →
      s.hw.noReclaim p = true →
      fld cmd 1 1 = 0 →
      unpopFirst s.hw.loftTib (fld cmd 0x10 8) 8 = none →
      (s.hw.pen p).kv.cfg = some c →
      ((s.hw.pen p).bound.find? fun b => b.frame == h.frame && b.pos == fld cmd 2 1) = some b →
      ((s.hw.pen p).ctx b.ctx).prefixOn = false →
      ∃ t, exec (.kvPrefix m p i cmd) s = .next t ∧
        t.leAt (fld cmd 0x10 8) 8 = 0 ∧
        State.BytesBut (fun a => (fld cmd 0x10 8) ≤ a ∧ a < (fld cmd 0x10 8) + 8) s t ∧
        t.pending = s.pending ∧
        Hw.FieldsBut (memFlds ++ slotFlds ++ portFlds ++ kvmFlds) s.hw t.hw) ∧
  (∀ (m : HubId) (p : PenId) (i : Issue) (cmd : Bytes) (s : State) (h : Hx) (n : Nat) (c : KvCfg) (b : Bound) (u : Tenant) (prev : Bytes),
      s.hw.hx m p 9 i = some h →
      prefixBad s.hw p (match (s.hw.pen p).kv.cfg with | some c => c.gKv | none => 0) cmd = false →
      s.hw.penSpd p (fld cmd 0x10 8) = some n →
      s.hw.is R.SPD_STATUS_ZEROING n = false →
      s.hw.noReclaim p = true →
      fld cmd 1 1 = 0 →
      unpopFirst s.hw.loftTib (fld cmd 0x10 8) 8 = none →
      (s.hw.pen p).kv.cfg = some c →
      ((s.hw.pen p).bound.find? fun b => b.frame == h.frame && b.pos == fld cmd 2 1) = some b →
      ((s.hw.pen p).ctx b.ctx).prefixOn = true →
      s.hw.tenant b.tenant = some u →
      b.miss = false →
      fld cmd 4 4 ≤ (b.x - 1) / 64 →
      ((s.hw.pen p).ctx b.ctx).chainAt p (fld cmd 4 4) = some prev →
      Run.pfxFind ({ hw := s.hw, mem := s.mem } : Run) p c u.keyId (prefixHash (Tbl.get [] u.keyId s.hw.dev.keys) prev (Run.read ({ hw := s.hw, mem := s.mem } : Run) (c.tokLog b.ctx (fld cmd 4 4 - 1)) 256)) = none →
      ∃ t, exec (.kvPrefix m p i cmd) s = .next t ∧
        t.hw.get R.KVM_PFX_MISS_LOOKUPS p = min (s.hw.get R.KVM_PFX_MISS_LOOKUPS p + 1) (2 ^ 32 - 1) ∧
        t.leAt (fld cmd 0x10 8) 4 = b.prefixT % 2 ^ 32 ∧
        t.leAt ((fld cmd 0x10 8) + 4) 4 = 1 ∧
        (t.hw.pen p).ctx b.ctx = (s.hw.pen p).ctx b.ctx ∧
        ((t.hw.pen p).bound.all fun y => !(y.same b) || y.miss) = true ∧
        (∀ a, t.hostByte a = s.hostByte a) ∧
        t.pending = s.pending ∧
        Hw.FieldsBut (memFlds ++ slotFlds ++ portFlds ++ kvmFlds) s.hw t.hw) ∧
  (∀ (m : HubId) (p : PenId) (i : Issue) (cmd : Bytes) (s : State) (h : Hx) (c : KvCfg) (b : Bound) (u : Tenant),
      s.hw.hx m p 9 i = some h →
      prefixBad s.hw p (match (s.hw.pen p).kv.cfg with | some c => c.gKv | none => 0) cmd = false →
      s.hw.noReclaim p = true →
      fld cmd 1 1 = 1 →
      (s.hw.pen p).kv.cfg = some c →
      ((s.hw.pen p).bound.find? fun b => b.frame == h.frame && b.pos == fld cmd 2 1) = some b →
      ((s.hw.pen p).ctx b.ctx).prefixOn = true →
      s.hw.tenant b.tenant = some u →
      ((s.hw.pen p).ctx b.ctx).chainAt p (fld cmd 4 4) = none →
      ∃ t, exec (.kvPrefix m p i cmd) s = .next t ∧
        t.hw.get R.KVM_PFX_EVICT_SKIP p = min (s.hw.get R.KVM_PFX_EVICT_SKIP p + 1) 65535 ∧
        State.Frame [R.KVM_PFX_EVICT_SKIP.key p, R.KVM_FREE_PAGES.key p, R.KVM_USED_PAGES.key p, R.KVM_LOFT_USED_PAGES.key p] s t) ∧
  (∀ (m : HubId) (p : PenId) (i : Issue) (cmd : Bytes) (s : State) (h : Hx) (k : Ticket),
      s.hw.hx m p 9 i = some h →
      rqBad s.hw p (match (s.hw.pen p).kv.cfg with | some c => c.gKv | none => 0) cmd = false →
      fld cmd 1 1 = 1 →
      ((s.hw.pen p).kv.tickets.find? fun t => t.num == fld cmd 4 4) = some k →
      ∃ t, exec (.kvRq m p i cmd) s = .next t ∧
        (t.hw.pen p).kv.tickets = (s.hw.pen p).kv.tickets.filter (fun x => x.num ≠ k.num) ∧
        t.hw.get R.KVM_RECOMPUTED_SPANS p = min (s.hw.get R.KVM_RECOMPUTED_SPANS p + k.nspan) (2 ^ 32 - 1) ∧
        State.Frame [R.KVM_RECOMPUTED_SPANS.key p] s t) ∧
  (∀ (m : HubId) (p : PenId) (i : Issue) (cmd : Bytes) (s : State) (h : Hx) (c : KvCfg) (n : Nat),
      s.hw.hx m p 9 i = some h →
      rqBad s.hw p (match (s.hw.pen p).kv.cfg with | some c => c.gKv | none => 0) cmd = false →
      fld cmd 1 1 = 0 →
      (s.hw.pen p).kv.cfg = some c →
      unpopFirst s.hw.loftTib (fld cmd 8 8) 64 = none →
      s.hw.penSpd p (fld cmd 8 8) = some n →
      s.hw.is R.SPD_STATUS_ZEROING n = false →
      (s.hw.pen p).kv.recomp = [] →
      ∃ t, exec (.kvRq m p i cmd) s = .next t ∧
        t.leAt (fld cmd 8 8) 64 = 0 ∧
        State.BytesBut (fun a => fld cmd 8 8 ≤ a ∧ a < fld cmd 8 8 + 64) s t ∧
        (t.hw.pen p).kv = (s.hw.pen p).kv ∧
        t.pending = s.pending ∧
        Hw.FieldsBut (slotFlds ++ portFlds) s.hw t.hw) ∧
  (∀ (m : HubId) (p : PenId) (i : Issue) (cmd : Bytes) (s : State) (h : Hx) (c : KvCfg) (n : Nat) (x : Nat) (sp : Nat) (more : List (Nat × Nat)),
      s.hw.hx m p 9 i = some h →
      rqBad s.hw p (match (s.hw.pen p).kv.cfg with | some c => c.gKv | none => 0) cmd = false →
      fld cmd 1 1 = 0 →
      (s.hw.pen p).kv.cfg = some c →
      unpopFirst s.hw.loftTib (fld cmd 8 8) 64 = none →
      s.hw.penSpd p (fld cmd 8 8) = some n →
      s.hw.is R.SPD_STATUS_ZEROING n = false →
      (s.hw.pen p).kv.recomp = (x, sp) :: more →
      0 < c.gKv →
      c.gKv ≤ s.hw.freePages p →
      ∃ t, exec (.kvRq m p i cmd) s = .next t ∧
        (t.hw.pen p).kv.tickets = (s.hw.pen p).kv.tickets ++
        [⟨(s.hw.pen p).kv.nextTkt, x, sp, min (runLength ((x, sp) :: more) x 8 sp) (s.hw.freePages p / c.gKv), s.hw.clk.frame⟩] ∧
        t.leAt (fld cmd 8 8) 4 = (s.hw.pen p).kv.nextTkt % 2 ^ 32 ∧
        (∀ a, t.hostByte a = s.hostByte a) ∧
        t.pending = s.pending ∧
        Hw.FieldsBut (memFlds ++ slotFlds ++ portFlds ++ kvmFlds) s.hw t.hw)

/-- With one page a span and no reclamation: KV_SPILL_SPAN of a span whose page no other holds, its context neither busy nor pinned
and room in the loft, copies the page to a free loft page, makes the entry name it, counts it and ends the move; no other byte
changes. A span whose context is busy or pinned stays as it is, and its move ends. With no span to spill, or no configuration,
nothing changes. -/
def Obligations.KvSpill : Prop :=
  (∀ (p : PenId) (s : State) (c : KvCfg) (mv : SpanMove),
      (s.hw.pen p).kv.cfg = some c →
      c.gKv = 1 →
      ((s.hw.pen p).kv.moves.find? fun m => m.out) = some mv →
      (s.hw.pen p).busy mv.ctx = false →
      ((s.hw.pen p).kv.pins.any fun q => q.1 == mv.ctx) = false →
      0 < s.hw.freeLoft p →
      c.loftPages ≤ 2 ^ 30 →
      s.hw.noReclaim p = true →
      ((s.hw.pen p).ctx mv.ctx).serving ≠ .free →
      mv.span < c.maxSpans →
      pteState (s.leAt (c.pte mv.ctx mv.span 0) 4) = 0 →
      Tbl.get 0 (pteIndex (s.leAt (c.pte mv.ctx mv.span 0) 4)) (s.hw.pen p).kv.refs = 1 →
      c.pte mv.ctx mv.span 0 + 4 ≤ loftBase →
      (granulesOf (c.pte mv.ctx mv.span 0) 4).all (fun g => !(s.hw.deadGranule g)) = true →
      ∃ t, exec (.kvSpillSpan p) s = .next t ∧
        t.hw.get R.KVM_SPILLED_PAGES p = min (s.hw.get R.KVM_SPILLED_PAGES p + 1) (2 ^ 32 - 1) ∧
        mv ∉ (t.hw.pen p).kv.moves ∨ ((s.hw.pen p).ctx mv.ctx).serving = .paused ∧
        (∃ q, q < c.loftPages ∧ t.leAt (c.pte mv.ctx mv.span 0) 4 = 2 ^ 30 + q ∧
        (∀ i, i < pageSize → t.devByte (c.loftPage q + i) = s.devByte (c.page (s.hw.ctxMax p) (pteIndex (s.leAt (c.pte mv.ctx mv.span 0) 4)) + i)) ∧
        State.BytesBut (fun a => (c.pte mv.ctx mv.span 0 ≤ a ∧ a < c.pte mv.ctx mv.span 0 + 4) ∨ (c.loftPage q ≤ a ∧ a < c.loftPage q + pageSize)) s t) ∧
        t.pending = s.pending ∧
        Hw.FieldsBut (memFlds ++ kvmFlds) s.hw t.hw) ∧
  (∀ (p : PenId) (s : State) (c : KvCfg) (mv : SpanMove),
      (s.hw.pen p).kv.cfg = some c →
      ((s.hw.pen p).kv.moves.find? fun m => m.out) = some mv →
      ((s.hw.pen p).busy mv.ctx || (s.hw.pen p).kv.pins.any fun q => q.1 == mv.ctx) = true →
      s.hw.noReclaim p = true →
      ∃ t, exec (.kvSpillSpan p) s = .next t ∧
        (t.hw.pen p).kv.moves = (s.hw.pen p).kv.moves.filter (fun x => x ≠ mv) ∧
        State.Frame [R.KVM_FREE_PAGES.key p, R.KVM_USED_PAGES.key p, R.KVM_LOFT_USED_PAGES.key p] s t) ∧
  (∀ (p : PenId) (s : State),
      ((s.hw.pen p).kv.cfg = none ∨ (s.hw.pen p).kv.moves.all (fun m => !m.out) = true) →
      exec (.kvSpillSpan p) s = .next s)

/-- With one page a span, pages enough and no reclamation, KV_PREFETCH_SPAN copies the loft page of a span to a free HBM page, makes
the entry name it, counts it and ends the move; no other byte changes. While the pages are not free, or with no span to bring
back, nothing changes. -/
def Obligations.KvPrefetch : Prop :=
  (∀ (p : PenId) (s : State) (c : KvCfg) (mv : SpanMove),
      (s.hw.pen p).kv.cfg = some c →
      c.gKv = 1 →
      ((s.hw.pen p).kv.moves.find? fun m => !m.out) = some mv →
      56 * c.lowG < s.hw.freePages p →
      c.pages (s.hw.ctxMax p) ≤ 2 ^ 30 →
      (s.hw.pen p).kv.reclaim = false →
      ((s.hw.pen p).ctx mv.ctx).serving ≠ .free →
      mv.span < c.maxSpans →
      pteState (s.leAt (c.pte mv.ctx mv.span 0) 4) = 1 →
      c.pte mv.ctx mv.span 0 + 4 ≤ (c.pool + c.tblG (s.hw.ctxMax p)) * granule →
      (granulesOf (c.pte mv.ctx mv.span 0) 4).all (fun g => !(s.hw.deadGranule g)) = true →
      (c.pool + c.poolCnt) * granule ≤ hbmEnd →
      ∃ t, exec (.kvPrefetchSpan p) s = .next t ∧
        t.hw.get R.KVM_PREFETCHED_PAGES p = min (s.hw.get R.KVM_PREFETCHED_PAGES p + 1) (2 ^ 32 - 1) ∧
        (t.hw.pen p).kv.moves = (s.hw.pen p).kv.moves.filter (fun x => x ≠ mv) ∧
        (∃ q, q < c.pages (s.hw.ctxMax p) ∧ t.leAt (c.pte mv.ctx mv.span 0) 4 = q ∧
        (∀ i, i < pageSize → t.devByte (c.page (s.hw.ctxMax p) q + i) = s.devByte (c.loftPage (pteIndex (s.leAt (c.pte mv.ctx mv.span 0) 4)) + i)) ∧
        State.BytesBut (fun a => (c.pte mv.ctx mv.span 0 ≤ a ∧ a < c.pte mv.ctx mv.span 0 + 4) ∨ (c.page (s.hw.ctxMax p) q ≤ a ∧ a < c.page (s.hw.ctxMax p) q + pageSize)) s t) ∧
        t.pending = s.pending ∧
        Hw.FieldsBut (memFlds ++ kvmFlds) s.hw t.hw) ∧
  (∀ (p : PenId) (s : State),
      (match (s.hw.pen p).kv.cfg with | some c => (s.hw.pen p).kv.moves.all (fun m => m.out) || decide (s.hw.freePages p < c.gKv) | none => true) = true →
      exec (.kvPrefetchSpan p) s = .next s)

/-- A mode 0 pause whose clock runs and whose instant has come by the next frame start expires there: the context is LOST and has no
expiry any more, the expiry is counted, its page-table entries are all absent, and no other byte changes. A context that is not
paused, whose clock is held, or whose instant comes later stays as it is. (That the command stands for the expiry at the next
frame start is the model's choice, log 2.) -/
def Obligations.PauseExpires : Prop :=
  (∀ (p : PenId) (x : Nat) (s : State) (due : Nat) (c : KvCfg),
      ((s.hw.pen p).ctx x).serving = .paused →
      ((s.hw.pen p).ctx x).expiry = some due →
      ((s.hw.pen p).ctx x).clockHeld = false →
      s.hw.clk.running = true →
      due ≤ s.hw.clk.due →
      (s.hw.pen p).kv.cfg = some c →
      s.hw.tableAlive c x = true →
      ∃ t, exec (.pauseExpiry p x) s = .next t ∧
        ((t.hw.pen p).ctx x).serving = .lost ∧
        ((t.hw.pen p).ctx x).expiry = none ∧
        t.hw.clk.now = max s.hw.clk.now s.hw.clk.due ∧
        t.hw.get R.KVM_TTL_EXPIRED p = min (s.hw.get R.KVM_TTL_EXPIRED p + 1) 65535 ∧
        (∀ sp j, sp < c.maxSpans → j < c.gKv → t.leAt (c.pte x sp j) 4 = pteAbsent) ∧
        State.BytesBut (fun a => ∃ sp j, sp < c.maxSpans ∧ j < c.gKv ∧ c.pte x sp j ≤ a ∧ a < c.pte x sp j + 4) s t ∧
        (∀ q ∈ (t.hw.pen p).kv.moves, q.ctx ≠ x) ∧
        t.pending = s.pending ∧
        Hw.FieldsBut (memFlds ++ [R.KVM_TTL_EXPIRED, R.KVM_FREE_PAGES, R.KVM_USED_PAGES, R.KVM_LOFT_USED_PAGES]) s.hw t.hw) ∧
  (∀ (p : PenId) (x : Nat) (s : State) (due : Nat),
      ((s.hw.pen p).ctx x).serving = .paused →
      ((s.hw.pen p).ctx x).expiry = some due →
      ((s.hw.pen p).ctx x).clockHeld = false →
      s.hw.clk.running = true →
      due ≤ s.hw.clk.due →
      (s.hw.pen p).kv.cfg = none →
      ∃ t, exec (.pauseExpiry p x) s = .next t ∧
        ((t.hw.pen p).ctx x).serving = .lost ∧
        ((t.hw.pen p).ctx x).expiry = none ∧
        t.hw.clk.now = max s.hw.clk.now s.hw.clk.due ∧
        t.hw.get R.KVM_TTL_EXPIRED p = min (s.hw.get R.KVM_TTL_EXPIRED p + 1) 65535 ∧
        State.Frame [R.KVM_TTL_EXPIRED.key p] s t) ∧
  (∀ (p : PenId) (x : Nat) (s : State),
      (((s.hw.pen p).ctx x).serving ≠ .paused ∨ ((s.hw.pen p).ctx x).clockHeld = true ∨ ((s.hw.pen p).ctx x).expiry = none ∨ s.hw.clk.running = false ∨ ((s.hw.pen p).ctx x).expiry.any (fun t => decide (s.hw.clk.due < t)) = true) →
      exec (.pauseExpiry p x) s = .next s)

/-- KVM_APPLY puts an acceptable configuration in force, with no page in use, and shows CONFIGURED; for any other it sets REJECT and
changes nothing else. Of an absent pen it only clears APPLY. -/
def Obligations.KvmApply : Prop :=
  (∀ (p : PenId) (s : State) (d : PenDesc),
      s.hw.hostUp = true →
      s.hw.desc p = some d →
      s.hw.kvmOk p d (s.hw.kvmRegs p) = true →
      ∃ t, exec (.kvmApply p) s = .next t ∧
        (t.hw.pen p).kv.cfg = some (s.hw.kvmRegs p) ∧
        (t.hw.pen p).kv.refs = [] ∧
        (t.hw.pen p).kv.pfxUse = [] ∧
        t.hw.get R.KVM_CTRL_CONFIGURED p = 1 ∧
        t.hw.get R.KVM_CTRL_APPLY p = 0 ∧
        State.Frame [R.KVM_CTRL_APPLY.key p, R.KVM_CTRL_CONFIGURED.key p, R.KVM_FREE_PAGES.key p, R.KVM_USED_PAGES.key p, R.KVM_LOFT_USED_PAGES.key p] s t) ∧
  (∀ (p : PenId) (s : State) (d : PenDesc),
      s.hw.hostUp = true →
      s.hw.desc p = some d →
      s.hw.kvmOk p d (s.hw.kvmRegs p) = false →
      ∃ t, exec (.kvmApply p) s = .next t ∧
        (t.hw.pen p) = (s.hw.pen p) ∧
        t.hw.get R.KVM_CTRL_REJECT p = 1 ∧
        t.hw.get R.KVM_CTRL_APPLY p = 0 ∧
        State.Frame [R.KVM_CTRL_APPLY.key p, R.KVM_CTRL_REJECT.key p] s t) ∧
  (∀ (p : PenId) (s : State),
      s.hw.hostUp = true →
      s.hw.desc p = none →
      ∃ t, exec (.kvmApply p) s = .next t ∧
        (t.hw.pen p) = (s.hw.pen p) ∧
        t.hw.get R.KVM_CTRL_APPLY p = 0 ∧
        State.Frame [R.KVM_CTRL_APPLY.key p] s t)

/-- The tick advances the frame number by one at the instant the last frame start fixed, T_FRAME after it, shows frame and sub-tick
0, turns the order of the sweep on and takes QUIESCE for the frame; a pen with nothing installed runs an idle frame of slot 0,
counted. A sub-tick comes floor(k T / 8) after its frame start. The end of an open frame's tail shows its number in
FSQ_TAIL_DONE and lets a frame with nothing left go. At a command boundary a running command leaves its engine, and an idle
engine starts the oldest ready command of its first queue that holds one. -/
def Obligations.FramesAndBoundaries : Prop :=
  (∀ (s : State),
      s.hw.ticks = true →
      s.hw.dev.load = none →
      ((List.range 16).all fun q => !(s.hw.pen q).trsDone) = true →
      s.hw.is R.LNK_RT_CTRL_COMMIT = false →
      s.hw.dev.truss = none →
      ∃ t, exec (.frameStart) s = .next t ∧
        t.hw.clk.frame = s.hw.clk.frame + 1 ∧
        t.hw.clk.frameStart = s.hw.clk.due ∧
        t.hw.clk.due = s.hw.clk.due + 100 * s.hw.get R.TRS_TIMING_T_FRAME_US 0 ∧
        t.hw.clk.now = max s.hw.clk.now s.hw.clk.due ∧
        t.hw.clk.subtick = 0 ∧
        t.hw.get R.FSQ_FRAME_FRAME 0 = (s.hw.clk.frame + 1) % 2 ^ 64 ∧
        t.hw.get R.FSQ_TICK_SUBTICK 0 = 0 ∧
        t.hw.dev.sweep0 = (s.hw.dev.sweep0 + 1) % 64 ∧
        t.hw.dev.quiet = s.hw.is R.TRS_CTRL_QUIESCE ∧
        t.mem = s.mem ∧
        t.pending = s.pending ∧
        Hw.FieldsBut ([R.PWR_DEV_ENERGY_UJ, R.PWR_ENERGY_FRAME_FRAME, R.PWR_PEN_ENERGY_UJ, R.PWR_TEN_ENERGY_UJ, R.FSQ_FRAME_FRAME, R.FSQ_TICK_SUBTICK]) s.hw t.hw) ∧
  (∀ (s : State) (p : Nat) (tr : Truss),
      s.hw.ticks = true →
      s.hw.dev.load = none →
      ((List.range 16).all fun q => !(s.hw.pen q).trsDone) = true →
      s.hw.is R.LNK_RT_CTRL_COMMIT = false →
      s.hw.dev.truss = some tr →
      tr.tenants = [] →
      tr.yoke = none →
      s.hw.penList = [p] →
      s.hw.pen p = {} →
      ∃ t, exec (.frameStart) s = .next t ∧
        t.hw.clk.frame = s.hw.clk.frame + 1 ∧
        t.hw.clk.frameStart = s.hw.clk.due ∧
        t.hw.clk.due = s.hw.clk.due + 100 * s.hw.get R.TRS_TIMING_T_FRAME_US 0 ∧
        t.hw.clk.now = max s.hw.clk.now s.hw.clk.due ∧
        t.hw.clk.subtick = 0 ∧
        t.hw.get R.FSQ_FRAME_FRAME 0 = (s.hw.clk.frame + 1) % 2 ^ 64 ∧
        t.hw.get R.FSQ_TICK_SUBTICK 0 = 0 ∧
        t.hw.dev.sweep0 = (s.hw.dev.sweep0 + 1) % 64 ∧
        t.hw.dev.quiet = s.hw.is R.TRS_CTRL_QUIESCE ∧
        t.hw.get R.FSQ_STATE_SLOT_SEL p = 0 ∧
        t.hw.get R.FSQ_STATE_IDLE_FRAME p = 1 ∧
        t.hw.get R.FSQ_STATE_SLIPPED p = 0 ∧
        t.hw.get R.FSQ_FRAME_COUNTS_IDLE_FRAMES p = min (s.hw.get R.FSQ_FRAME_COUNTS_IDLE_FRAMES p + 1) 65535 ∧
        (t.hw.pen p).frames = [] ∧
        t.mem = s.mem ∧
        t.pending = s.pending ∧
        Hw.FieldsBut ([R.PWR_DEV_ENERGY_UJ, R.PWR_ENERGY_FRAME_FRAME, R.PWR_PEN_ENERGY_UJ, R.PWR_TEN_ENERGY_UJ, R.FSQ_FRAME_FRAME, R.FSQ_TICK_SUBTICK, R.FSQ_STATE_SLOT_SEL, R.FSQ_STATE_IDLE_FRAME, R.FSQ_STATE_SLIPPED, R.FSQ_STATE_SUSPENDED,
          R.FSQ_STATE_SUSP_THERMAL, R.FSQ_STATE_SUSP_SAG, R.FSQ_STATE_SUSP_OTHER, R.FSQ_STATE_RESIDENT, R.FSQ_STATE_BLOCKED, R.FSQ_FRAME_COUNTS_IDLE_FRAMES,
          R.FSQ_PLAN_STATUS_READY_MASK, R.FSQ_PLAN_STATUS_STALE_MASK, R.KVM_RECOMP_Q_HELD, R.YOK_REPLAY_PENDING]) s.hw t.hw) ∧
  (∀ (s : State),
      s.hw.ticks = true →
      s.hw.clk.subtick < 7 →
      s.hw.dev.truss = none →
      ∃ t, exec (.subtick) s = .next t ∧
        t.hw.clk.subtick = s.hw.clk.subtick + 1 ∧
        t.hw.get R.FSQ_TICK_SUBTICK 0 = s.hw.clk.subtick + 1 ∧
        t.hw.clk.now = max s.hw.clk.now (s.hw.clk.frameStart + (s.hw.clk.subtick + 1) * (100 * s.hw.get R.TRS_TIMING_T_FRAME_US 0) / 8) ∧
        t.hw.clk.frame = s.hw.clk.frame ∧
        State.Frame ([R.FSQ_TICK_SUBTICK.key 0]) s t) ∧
  (∀ (p : PenId) (f : Nat) (s : State) (x : PenFrame),
      (s.hw.pen p).frames = [x] →
      x.frame = f →
      x.tailDone = false →
      x.tailOk = true →
      x.bodyDone = true →
      s.hw.penRun p = true →
      x.left = [] →
      (s.hw.pen p).bound = [] →
      (s.hw.pen p).old = [] →
      s.hw.yoked p = false →
      s.hw.mirroring p = false →
      ∃ t, exec (.frameTailDone p f) s = .next t ∧
        t.hw.get R.FSQ_TAIL_DONE_FRAME p = max f (s.hw.get R.FSQ_TAIL_DONE_FRAME p) % 2 ^ 64 ∧
        (t.hw.pen p).frames = [] ∧
        State.Frame ([R.FSQ_TAIL_DONE_FRAME.key p, R.FSQ_STATE_RESIDENT.key p, R.FSQ_STATE_BLOCKED.key p, R.TRS_STATUS_STATE.key 0]) s t) ∧
  (∀ (e : Eng) (s : State) (q : QCmd),
      (s.hw.eng (Eng.key e)).reset = false →
      s.hw.waitsLocal (Eng.key e) = false →
      (s.hw.eng (Eng.key e)).run = none →
      s.hw.nextCmd (Eng.key e) = some q →
      ((stallOfKey (Eng.key e)).any fun n => s.hw.is R.SPD_STATUS_ZEROING n) = false →
      ∃ t, exec (.commandBoundary e) s = .next t ∧
        (t.hw.eng (Eng.key e)).run = some q ∧
        (t.hw.eng (Eng.key e)).u0 = (s.hw.eng (Eng.key e)).u0.erase q ∧
        (t.hw.eng (Eng.key e)).lap = (s.hw.eng (Eng.key e)).lap.erase q ∧
        (t.hw.eng (Eng.key e)).main = (s.hw.eng (Eng.key e)).main.erase q ∧
        State.Frame ([]) s t) ∧
  (∀ (e : Eng) (s : State) (q : QCmd),
      (s.hw.eng (Eng.key e)).reset = false →
      s.hw.waitsLocal (Eng.key e) = false →
      (s.hw.eng (Eng.key e)).run = some q →
      (s.hw.eng (Eng.key e)).u0 = [] →
      (s.hw.eng (Eng.key e)).lap = [] →
      (s.hw.eng (Eng.key e)).main = [] →
      (s.hw.pen q.pen).frames = [] →
      ∃ t, exec (.commandBoundary e) s = .next t ∧
        (t.hw.eng (Eng.key e)).run = none ∧
        State.Frame ([R.FSQ_STATE_RESIDENT.key q.pen, R.FSQ_STATE_BLOCKED.key q.pen]) s t)

/-- A swap-out done leaves the context DEFINED; a swap-in done with a good record puts the record's header where it is told and the
context IDLE, counted, and one with a bad record FAULTED, counted and logged. PLAN_START with a good place opens an installation
in FETCH, with a bad one fails with PLACEMENT, and is refused while another runs. PLAN_ABORT fails it with ABORTED before
staging. Its copy puts the host's bytes into HBM and nothing else; its digest is 64 bytes of SHAKE256; its check stages it or
fails with the code of the first failing check. ROTA_APPLY captures the entries for the next frame start. -/
def Obligations.SwapsAndPlans : Prop :=
  (∀ (p : PenId) (met : Ports) (s : State) (x : Nat) (u : Bool) (d : PenDesc),
      (s.hw.pen p).swap = [⟨x, false, u, false⟩] →
      ((s.hw.pen p).ctxs.all fun kv => !kv.2.wake) = true →
      (s.hw.pen p).frames = [] →
      s.hw.desc p = some d →
      ∃ t, exec (.swapSetDone p ⟨[], met⟩) s = .next t ∧
        ((t.hw.pen p).ctx x).res = .defined ∧
        (t.hw.pen p).swap = [] ∧
        t.pending = s.pending ∧
        (∀ a, t.hostByte a = s.hostByte a) ∧
        State.BytesBut (fun b => (d.saveBase + x * 0x100000 ≤ b ∧ b < d.saveBase + x * 0x100000 + 0x100000) ∨ ((s.hw.recAddr p x) ≤ b ∧ b < (s.hw.recAddr p x) + 64)) s t ∧
        Hw.FieldsBut (memFlds ++ portFlds ++ [R.FSQ_SWAP_MAX_MAX, R.FSQ_STATE_RESIDENT, R.FSQ_STATE_BLOCKED, R.TRS_STATUS_STATE]) s.hw t.hw) ∧
  (∀ (p : PenId) (met : Ports) (s : State) (x : Nat) (u : Bool) (a : Nat) (n : Nat),
      (s.hw.pen p).swap = [⟨x, true, u, false⟩] →
      ((s.hw.pen p).ctxs.all fun kv => !kv.2.wake) = true →
      (s.hw.pen p).frames = [] →
      ((s.hw.pen p).ctx x).res = .swapIn →
      (s.hw.pen p).busy x = false →
      s.leAt ((s.hw.recAddr p x) + 8) 4 = 64 →
      s.hw.placeOk p a 64 = true →
      s.hw.penSpd p a = some n →
      s.hw.is R.SPD_STATUS_ZEROING n = false →
      Run.recordOk (Run.fetch { hw := s.hw, mem := s.mem } (.pen p) (s.hw.recAddr p x) 64) p x (s.hw.recAddr p x) = true →
      ∃ t, exec (.swapSetDone p ⟨[a], met⟩) s = .next t ∧
        ((t.hw.pen p).ctx x).res = .idle ∧
        ((t.hw.pen p).ctx x).addr = a ∧
        (t.hw.pen p).swap = [] ∧
        t.hw.get R.FSQ_SWAP_COUNT_SWAPS p = min (s.hw.get R.FSQ_SWAP_COUNT_SWAPS p + 1) (2 ^ 32 - 1) ∧
        (∀ j, j < 64 → t.devByte (a + j) = s.devByte ((s.hw.recAddr p x) + j)) ∧
        State.BytesBut (fun b => a ≤ b ∧ b < a + 64) s t ∧
        t.pending = s.pending ∧
        Hw.FieldsBut (memFlds ++ portFlds ++ [R.FSQ_SWAP_COUNT_SWAPS, R.FSQ_SWAP_MAX_MAX, R.FSQ_STATE_RESIDENT, R.FSQ_STATE_BLOCKED, R.TRS_STATUS_STATE]) s.hw t.hw) ∧
  (∀ (p : PenId) (met : Ports) (s : State) (x : Nat) (u : Bool) (a : Nat),
      (s.hw.pen p).swap = [⟨x, true, u, false⟩] →
      ((s.hw.pen p).ctxs.all fun kv => !kv.2.wake) = true →
      (s.hw.pen p).frames = [] →
      (s.hw.pen p).bound = [] →
      s.hw.placeOk p a (min 0x100000 (s.leAt ((s.hw.recAddr p x) + 8) 4)) = true →
      s.leAt (s.hw.recAddr p x) 4 ≠ 0x5854434B →
      ∃ t, exec (.swapSetDone p ⟨[a], met⟩) s = .next t ∧
        ((t.hw.pen p).ctx x).res = .faulted ∧
        (t.hw.pen p).swap = [] ∧
        t.hw.get R.FSQ_SWAP_ABORT_CTX_BAD p = min (s.hw.get R.FSQ_SWAP_ABORT_CTX_BAD p + 1) 65535 ∧
        State.BytesBut (fun _ => False) s t ∧
        t.pending = s.pending ∧
        Hw.FieldsBut (memFlds ++ portFlds ++ [R.FSQ_SWAP_ABORT_CTX_BAD, R.FSQ_SWAP_MAX_MAX, R.FSQ_STATE_RESIDENT, R.FSQ_STATE_BLOCKED, R.TRS_STATUS_STATE]) s.hw t.hw) ∧
  (∀ (p : PenId) (slot : Fin 8) (s : State),
      s.hw.hostUp = true →
      s.hw.present p = true →
      s.hw.get R.FSQ_PLAN_STATUS_STATE p = 0 →
      s.hw.is R.PEN_STATE_LOAD_PENDING p = false →
      s.hw.placed p (s.hw.get R.FSQ_PLAN_DST_DST p) (s.hw.get R.FSQ_PLAN_LEN_LEN p) = true →
      ∃ t, exec (.planStart p slot) s = .next t ∧
        (t.hw.pen p).inst = some ⟨slot, s.hw.get R.FSQ_PLAN_SRC_SRC p, s.hw.get R.FSQ_PLAN_DST_DST p, s.hw.get R.FSQ_PLAN_LEN_LEN p, false, [], none, 0⟩ ∧
        t.hw.get R.FSQ_PLAN_STATUS_STATE p = 1 ∧
        t.hw.get R.FSQ_PLAN_CMD_START p = 0 ∧
        State.Frame ([R.FSQ_PLAN_CMD_SLOT.key p, R.FSQ_PLAN_CMD_START.key p, R.FSQ_PLAN_STATUS_STATE.key p]) s t) ∧
  (∀ (p : PenId) (slot : Fin 8) (s : State),
      s.hw.hostUp = true →
      s.hw.present p = true →
      s.hw.get R.FSQ_PLAN_STATUS_STATE p = 0 →
      s.hw.is R.PEN_STATE_LOAD_PENDING p = false →
      s.hw.placed p (s.hw.get R.FSQ_PLAN_DST_DST p) (s.hw.get R.FSQ_PLAN_LEN_LEN p) = false →
      ∃ t, exec (.planStart p slot) s = .next t ∧
        (t.hw.pen p).inst = (s.hw.pen p).inst ∧
        t.hw.get R.FSQ_PLAN_STATUS_FAIL p = 1 ∧
        t.hw.get R.FSQ_PLAN_STATUS_ERR_CODE p = 6 ∧
        t.hw.get R.FSQ_PLAN_STATUS_STATE p = 0 ∧
        State.Frame ([R.FSQ_PLAN_CMD_SLOT.key p, R.FSQ_PLAN_CMD_START.key p, R.FSQ_PLAN_STATUS_FAIL.key p, R.FSQ_PLAN_STATUS_ERR_CODE.key p]) s t) ∧
  (∀ (p : PenId) (slot : Fin 8) (s : State),
      s.hw.hostUp = true →
      s.hw.present p = true →
      (s.hw.get R.FSQ_PLAN_STATUS_STATE p ≠ 0 ∨ s.hw.is R.PEN_STATE_LOAD_PENDING p = true) →
      ∃ t, exec (.planStart p slot) s = .next t ∧
        (t.hw.pen p).inst = (s.hw.pen p).inst ∧
        t.hw.get R.FSQ_PLAN_STATUS_BUSY_REFUSED p = 1 ∧
        State.Frame ([R.FSQ_PLAN_CMD_SLOT.key p, R.FSQ_PLAN_CMD_START.key p, R.FSQ_PLAN_STATUS_BUSY_REFUSED.key p]) s t) ∧
  (∀ (p : PenId) (s : State) (i : Inst),
      s.hw.hostUp = true →
      s.hw.present p = true →
      (s.hw.pen p).inst = some i →
      s.hw.get R.FSQ_PLAN_STATUS_STATE p ≠ 4 →
      ∃ t, exec (.planAbort p) s = .next t ∧
        (t.hw.pen p).inst = none ∧
        t.hw.get R.FSQ_PLAN_STATUS_STATE p = 0 ∧
        t.hw.get R.FSQ_PLAN_STATUS_FAIL p = 1 ∧
        t.hw.get R.FSQ_PLAN_STATUS_ERR_CODE p = 8 ∧
        State.Frame ([R.FSQ_PLAN_CMD_ABORT.key p, R.FSQ_PLAN_STATUS_STATE.key p, R.FSQ_PLAN_STATUS_FAIL.key p, R.FSQ_PLAN_STATUS_ERR_CODE.key p]) s t) ∧
  (∀ (p : PenId) (res : Completion) (s : State) (i : Inst),
      (s.hw.pen p).inst = some i →
      s.hw.get R.FSQ_PLAN_STATUS_STATE p = 1 →
      i.src % 8 = 0 →
      s.hw.dmaOk 0 i.src i.len false = true →
      ((granulesOf i.dst i.len).any s.hw.deadGranule) = false →
      ∃ t, exec (.planFetchDone p res) s = .next t ∧
        t.hw.get R.FSQ_PLAN_STATUS_STATE p = 2 ∧
        (t.hw.pen p).inst = some { i with bad := decide (res ≠ .ok) } ∧
        (res = .ok → ∀ j, j < i.len → t.devByte (i.dst + j) = s.hostByte (i.src + j)) ∧
        State.BytesBut (fun a => i.dst ≤ a ∧ a < i.dst + i.len) s t ∧
        t.pending = s.pending ∧
        Hw.FieldsBut (memFlds ++ [R.FSQ_PLAN_STATUS_STATE, R.HIF_CPL_ERR_ERR, R.HIF_CPL_ERR_TIMEOUT]) s.hw t.hw) ∧
  (∀ (p : PenId) (s : State) (i : Inst),
      (s.hw.pen p).inst = some i →
      s.hw.get R.FSQ_PLAN_STATUS_STATE p = 2 →
      ∃ t, exec (.planDigestDone p) s = .next t ∧
        t.hw.get R.FSQ_PLAN_STATUS_STATE p = 3 ∧
        (t.hw.pen p).inst = some { i with digest := (shake256 ((List.range i.len).map fun j => s.devByte (i.dst + j)) 64).take 64 } ∧
        State.BytesBut (fun _ => False) s t ∧
        t.pending = s.pending ∧
        Hw.FieldsBut (memFlds ++ [R.FSQ_PLAN_STATUS_STATE]) s.hw t.hw) ∧
  (∀ (p : PenId) (tasks : List Task) (s : State) (i : Inst) (code : Nat),
      (s.hw.pen p).inst = some i →
      s.hw.get R.FSQ_PLAN_STATUS_STATE p = 3 →
      Run.planCheck { hw := s.hw, mem := s.mem } p i (Run.read { hw := s.hw, mem := s.mem } i.dst 128) (Run.slotTable { hw := s.hw, mem := s.mem } (i.dst + fld (Run.read { hw := s.hw, mem := s.mem } i.dst 128) 0x4C 4) (fld (Run.read { hw := s.hw, mem := s.mem } i.dst 128) 0x14 4)) tasks = some code →
      ∃ t, exec (.planCheckDone p tasks) s = .next t ∧
        (t.hw.pen p).inst = none ∧
        t.hw.get R.FSQ_PLAN_STATUS_STATE p = 0 ∧
        t.hw.get R.FSQ_PLAN_STATUS_FAIL p = 1 ∧
        t.hw.get R.FSQ_PLAN_STATUS_ERR_CODE p = code % 256 ∧
        State.Frame ([R.FSQ_PLAN_STATUS_STATE.key p, R.FSQ_PLAN_STATUS_FAIL.key p, R.FSQ_PLAN_STATUS_ERR_CODE.key p]) s t) ∧
  (∀ (p : PenId) (tasks : List Task) (s : State) (i : Inst),
      (s.hw.pen p).inst = some i →
      s.hw.get R.FSQ_PLAN_STATUS_STATE p = 3 →
      Run.planCheck { hw := s.hw, mem := s.mem } p i (Run.read { hw := s.hw, mem := s.mem } i.dst 128) (Run.slotTable { hw := s.hw, mem := s.mem } (i.dst + fld (Run.read { hw := s.hw, mem := s.mem } i.dst 128) 0x4C 4) (fld (Run.read { hw := s.hw, mem := s.mem } i.dst 128) 0x14 4)) tasks = none →
      tasks.length = fld (Run.read { hw := s.hw, mem := s.mem } i.dst 128) 0x10 4 →
      ∃ t, exec (.planCheckDone p tasks) s = .next t ∧
        (t.hw.pen p).inst = some { i with plan := some (planOf i (Run.read { hw := s.hw, mem := s.mem } i.dst 128) tasks (Run.slotTable { hw := s.hw, mem := s.mem } (i.dst + fld (Run.read { hw := s.hw, mem := s.mem } i.dst 128) 0x4C 4) (fld (Run.read { hw := s.hw, mem := s.mem } i.dst 128) 0x14 4))), staged := s.hw.clk.now } ∧
        t.hw.get R.FSQ_PLAN_STATUS_STATE p = 4 ∧
        State.Frame ([R.FSQ_PLAN_STATUS_STATE.key p]) s t) ∧
  (∀ (p : PenId) (n : Fin 16) (s : State),
      s.hw.hostUp = true →
      s.hw.present p = true →
      ∃ t, exec (.rotaApply p n) s = .next t ∧
        (t.hw.pen p).pendRota = some ((s.hw.rotaRegs p (n + 1))) ∧
        t.hw.get R.FSQ_ROTA_CTRL_APPLY p = 1 ∧
        t.hw.get R.FSQ_ROTA_CTRL_LEN_M1 p = n ∧
        State.Frame ([R.FSQ_ROTA_CTRL_APPLY.key p, R.FSQ_ROTA_CTRL_LEN_M1.key p]) s t)
end

