-- ==== Sys2Proof/Laws/Tbl.lean ====
section
/-! SUPPORT. The laws of sparse tables: a read after a write, and the canonical form kept. -/

namespace Sys2Proof.Machine

variable {α : Type}

@[simp] theorem Tbl.get_nil (d : α) (k : Nat) : Tbl.get d k [] = d := rfl
@[simp] theorem Tbl.find?_nil (k : Nat) : Tbl.find? k ([] : Tbl α) = none := rfl

@[simp] theorem Tbl.get_insert_same (d : α) (k : Nat) (v : α) (t : Tbl α) : Tbl.get d k (Tbl.insert k v t) = v := by
  induction t with
  | nil => simp [Tbl.insert, Tbl.get]
  | cons x t ih =>
    simp only [Tbl.insert]
    split
    · simp [Tbl.get]
    · split
      · simp [Tbl.get]
      · rename_i h
        simp [Tbl.get, h, ih]

theorem Tbl.get_insert_ne (d : α) {k j : Nat} (v : α) (t : Tbl α) (h : j ≠ k) :
    Tbl.get d j (Tbl.insert k v t) = Tbl.get d j t := by
  induction t with
  | nil => simp [Tbl.insert, Tbl.get, Ne.symm h]
  | cons x t ih =>
    simp only [Tbl.insert]
    split
    · simp [Tbl.get, Ne.symm h]
    · split
      · rename_i hak
        simp [Tbl.get, hak, Ne.symm h]
      · simp only [Tbl.get, ih]

@[simp] theorem Tbl.find?_insert_same (k : Nat) (v : α) (t : Tbl α) : Tbl.find? k (Tbl.insert k v t) = some v := by
  induction t with
  | nil => simp [Tbl.insert, Tbl.find?]
  | cons x t ih =>
    simp only [Tbl.insert]
    split
    · simp [Tbl.find?]
    · split
      · simp [Tbl.find?]
      · rename_i h
        simp [Tbl.find?, h, ih]

theorem Tbl.find?_insert_ne {k j : Nat} (v : α) (t : Tbl α) (h : j ≠ k) : Tbl.find? j (Tbl.insert k v t) = Tbl.find? j t := by
  induction t with
  | nil => simp [Tbl.insert, Tbl.find?, Ne.symm h]
  | cons x t ih =>
    simp only [Tbl.insert]
    split
    · simp [Tbl.find?, Ne.symm h]
    · split
      · rename_i hak
        simp [Tbl.find?, hak, Ne.symm h]
      · simp only [Tbl.find?, ih]

@[simp] theorem Tbl.get_erase_same (d : α) (k : Nat) (t : Tbl α) : Tbl.get d k (Tbl.erase k t) = d := by
  induction t with
  | nil => rfl
  | cons x t ih =>
    unfold Tbl.erase at ih ⊢
    rw [List.filter_cons]
    split
    · rename_i h
      simp only [decide_eq_true_eq] at h
      simp only [Tbl.get, if_neg h, ih]
    · exact ih

theorem Tbl.get_erase_ne (d : α) {k j : Nat} (t : Tbl α) (h : j ≠ k) : Tbl.get d j (Tbl.erase k t) = Tbl.get d j t := by
  induction t with
  | nil => rfl
  | cons x t ih =>
    unfold Tbl.erase at ih ⊢
    rw [List.filter_cons]
    split
    · simp only [Tbl.get, ih]
    · rename_i hk
      simp only [ne_eq, decide_not, Bool.not_eq_eq_eq_not, Bool.not_true, decide_eq_false_iff_not, Decidable.not_not] at hk
      simp only [Tbl.get, hk, if_neg (Ne.symm h), ih]

@[simp] theorem Tbl.find?_erase_same (k : Nat) (t : Tbl α) : Tbl.find? k (Tbl.erase k t) = none := by
  induction t with
  | nil => rfl
  | cons x t ih =>
    unfold Tbl.erase at ih ⊢
    rw [List.filter_cons]
    split
    · rename_i h
      simp only [decide_eq_true_eq] at h
      simp only [Tbl.find?, if_neg h, ih]
    · exact ih

/-- A read of the key just written gives the value written. -/
@[simp] theorem Tbl.get_set_same [DecidableEq α] (d : α) (k : Nat) (v : α) (t : Tbl α) : Tbl.get d k (Tbl.set d k v t) = v := by
  unfold Tbl.set
  split
  · rename_i hv
    rw [hv, Tbl.get_erase_same]
  · exact Tbl.get_insert_same d k v t

/-- A write leaves every other key as it was. -/
theorem Tbl.get_set_ne [DecidableEq α] (d e : α) {k j : Nat} (v : α) (t : Tbl α) (h : j ≠ k) :
    Tbl.get e j (Tbl.set d k v t) = Tbl.get e j t := by
  unfold Tbl.set
  split
  · exact Tbl.get_erase_ne e t h
  · exact Tbl.get_insert_ne e v t h

@[simp] theorem Tbl.get_modify_same [DecidableEq α] (d : α) (k : Nat) (f : α → α) (t : Tbl α) :
    Tbl.get d k (Tbl.modify d k f t) = f (Tbl.get d k t) := Tbl.get_set_same d k _ t

theorem Tbl.get_modify_ne [DecidableEq α] (d : α) {k j : Nat} (f : α → α) (t : Tbl α) (h : j ≠ k) :
    Tbl.get d j (Tbl.modify d k f t) = Tbl.get d j t := Tbl.get_set_ne d d _ t h

/-! ## The canonical form -/

/-- A table above a bound is one above any lower bound. -/
theorem Tbl.wfAbove_mono [DecidableEq α] {d : α} {a b : Nat} {t : Tbl α} (h : Tbl.wfAbove d (some b) t = true) (hab : a ≤ b) :
    Tbl.wfAbove d (some a) t = true := by
  cases t with
  | nil => rfl
  | cons x t =>
    obtain ⟨k, y⟩ := x
    simp only [Tbl.wfAbove, Bool.and_eq_true, decide_eq_true_eq] at h ⊢
    exact ⟨⟨by omega, h.1.2⟩, h.2⟩

theorem Tbl.wfAbove_none [DecidableEq α] {d : α} {b : Nat} {t : Tbl α} (h : Tbl.wfAbove d (some b) t = true) :
    Tbl.wfAbove d none t = true := by
  cases t with
  | nil => rfl
  | cons x t =>
    obtain ⟨k, y⟩ := x
    simp only [Tbl.wfAbove, Bool.and_eq_true, decide_eq_true_eq] at h ⊢
    exact ⟨h.1.2, h.2⟩

theorem Tbl.wfAbove_cons [DecidableEq α] {d : α} {o : Option Nat} {k : Nat} {y : α} {t : Tbl α} :
    Tbl.wfAbove d o ((k, y) :: t) = true ↔ (∀ b, o = some b → b < k) ∧ y ≠ d ∧ Tbl.wfAbove d (some k) t = true := by
  cases o with
  | none => simp [Tbl.wfAbove]
  | some b => simp [Tbl.wfAbove, and_assoc]

theorem Tbl.wfAbove_insert [DecidableEq α] {d : α} (k : Nat) {v : α} (hv : v ≠ d) {o : Option Nat} {t : Tbl α}
    (ho : ∀ b, o = some b → b < k) (h : Tbl.wfAbove d o t = true) : Tbl.wfAbove d o (Tbl.insert k v t) = true := by
  induction t generalizing o with
  | nil => exact Tbl.wfAbove_cons.mpr ⟨ho, hv, rfl⟩
  | cons x t ih =>
    obtain ⟨a, y⟩ := x
    obtain ⟨h1, h2, h3⟩ := Tbl.wfAbove_cons.mp h
    simp only [Tbl.insert]
    split
    · rename_i hka
      exact Tbl.wfAbove_cons.mpr ⟨ho, hv, Tbl.wfAbove_cons.mpr ⟨by rintro b ⟨⟩; exact hka, h2, h3⟩⟩
    · split
      · rename_i hak
        subst hak
        exact Tbl.wfAbove_cons.mpr ⟨ho, hv, h3⟩
      · refine Tbl.wfAbove_cons.mpr ⟨h1, h2, ih ?_ h3⟩
        rintro b ⟨⟩
        omega

theorem Tbl.wfAbove_filter [DecidableEq α] {d : α} (p : Nat × α → Bool) {o : Option Nat} {t : Tbl α} (h : Tbl.wfAbove d o t = true) :
    Tbl.wfAbove d o (t.filter p) = true := by
  induction t generalizing o with
  | nil => cases o <;> rfl
  | cons x t ih =>
    obtain ⟨a, y⟩ := x
    obtain ⟨h1, h2, h3⟩ := Tbl.wfAbove_cons.mp h
    rw [List.filter_cons]
    split
    · exact Tbl.wfAbove_cons.mpr ⟨h1, h2, ih h3⟩
    · cases o with
      | none => exact Tbl.wfAbove_none (ih h3)
      | some b => exact Tbl.wfAbove_mono (ih h3) (Nat.le_of_lt (h1 b rfl))

/-- Dropping listed entries keeps the canonical form. -/
theorem Tbl.wf_filter [DecidableEq α] {d : α} (p : Nat × α → Bool) {t : Tbl α} (h : Tbl.wf d t = true) : Tbl.wf d (t.filter p) = true :=
  Tbl.wfAbove_filter p h

/-- Writing keeps the canonical form. -/
theorem Tbl.wf_set [DecidableEq α] {d : α} (k : Nat) (v : α) {t : Tbl α} (h : Tbl.wf d t = true) : Tbl.wf d (Tbl.set d k v t) = true := by
  unfold Tbl.set
  split
  · exact Tbl.wf_filter _ h
  · rename_i hv
    exact Tbl.wfAbove_insert k hv (by intro b hb; cases hb) h

/-- Changing one value keeps the canonical form. -/
theorem Tbl.wf_modify [DecidableEq α] {d : α} (k : Nat) (f : α → α) {t : Tbl α} (h : Tbl.wf d t = true) :
    Tbl.wf d (Tbl.modify d k f t) = true := Tbl.wf_set k _ h

end Sys2Proof.Machine
end

