-- ==== Sys2Proof/Laws/Mem.lean ====
section
/-! SUPPORT. The laws of the memories: every posted write keeps their canonical form, and what a command sees of its own writes is
what the memory holds when the command is done. -/

namespace Sys2Proof.Machine

/-! ## The canonical form -/

theorem writeBytes_wf (a : Nat) (bs : Bytes) {t : List Host.Cell} (h : Tbl.wf 0#8 t = true) : Tbl.wf 0#8 (writeBytes a bs t) = true := by
  induction bs generalizing a t with
  | nil => exact h
  | cons b bs ih => exact ih (a + 1) (Tbl.wf_set a b h)

theorem Mem.wf_iff {m : Mem} : m.wf = true ↔ Tbl.wf 0#8 m.dev = true ∧ Tbl.wf 0#8 m.host = true ∧ Tbl.wf 0 m.mark = true := by
  simp [Mem.wf, and_assoc]

theorem Mem.apply1_wf {m : Mem} (p : Post) (h : m.wf = true) : (m.apply1 p).wf = true := by
  obtain ⟨h1, h2, h3⟩ := Mem.wf_iff.mp h
  cases p with
  | dev a bs => exact Mem.wf_iff.mpr ⟨writeBytes_wf a bs h1, h2, h3⟩
  | host a bs => exact Mem.wf_iff.mpr ⟨h1, writeBytes_wf a bs h2, h3⟩
  | mark l b => exact Mem.wf_iff.mpr ⟨h1, h2, Tbl.wf_set l b h3⟩
  | zero a n => exact Mem.wf_iff.mpr ⟨Tbl.wf_filter _ h1, h2, Tbl.wf_filter _ h3⟩

theorem Mem.apply_wf (ps : List Post) {m : Mem} (h : m.wf = true) : (m.apply ps).wf = true := by
  induction ps generalizing m with
  | nil => exact h
  | cons p ps ih => exact ih (Mem.apply1_wf p h)

/-! ## Reading what was written -/

theorem get_writeBytes (a k : Nat) (bs : Bytes) (t : List Host.Cell) :
    Tbl.get 0#8 k (writeBytes a bs t) = (if a ≤ k then bs[k - a]? else none).getD (Tbl.get 0#8 k t) := by
  induction bs generalizing a t with
  | nil => simp [writeBytes]
  | cons b bs ih =>
    rw [writeBytes, ih]
    by_cases hk : k = a
    · subst hk
      simp [show ¬ k + 1 ≤ k by omega]
    · rw [Tbl.get_set_ne 0#8 0#8 b t hk]
      by_cases hle : a + 1 ≤ k
      · obtain ⟨j, rfl⟩ : ∃ j, k = a + 1 + j := ⟨k - (a + 1), by omega⟩
        simp [show a ≤ a + 1 + j by omega, show a + 1 + j - a = j + 1 by omega]
      · simp [hle, show ¬ a ≤ k by omega]

theorem get_dropRange {α : Type} (d : α) (a n k : Nat) (t : Tbl α) :
    Tbl.get d k (dropRange a n t) = if a ≤ k ∧ k < a + n then d else Tbl.get d k t := by
  induction t with
  | nil => simp [dropRange]
  | cons x t ih =>
    unfold dropRange at ih ⊢
    rw [List.filter_cons]
    by_cases hk : x.1 = k
    · subst hk
      by_cases hr : a ≤ x.1 ∧ x.1 < a + n
      · rw [if_pos hr] at ih ⊢
        rw [if_neg (by simp [hr.1, hr.2]), ih]
      · rw [if_neg hr] at ih ⊢
        have : (!(decide (a ≤ x.1) && decide (x.1 < a + n))) = true := by
          simp only [Bool.not_eq_true', Bool.and_eq_false_iff, decide_eq_false_iff_not]
          omega
        rw [if_pos this]
        simp [Tbl.get]
    · split
      · rw [Tbl.get, if_neg hk, ih, Tbl.get, if_neg hk]
      · rw [ih, Tbl.get, if_neg hk]

theorem Mem.get_dev_apply1 (m : Mem) (p : Post) (a : Nat) :
    Tbl.get 0#8 a (m.apply1 p).dev = (p.devByte a).getD (Tbl.get 0#8 a m.dev) := by
  cases p with
  | dev b bs => simpa [Mem.apply1, Post.devByte] using get_writeBytes b a bs m.dev
  | host b bs => rfl
  | mark l b => rfl
  | zero b n =>
    simp only [Mem.apply1, Post.devByte, get_dropRange]
    split <;> simp

theorem Mem.get_host_apply1 (m : Mem) (p : Post) (a : Nat) :
    Tbl.get 0#8 a (m.apply1 p).host = (p.hostByte a).getD (Tbl.get 0#8 a m.host) := by
  cases p with
  | dev b bs => rfl
  | host b bs => simpa [Mem.apply1, Post.hostByte] using get_writeBytes b a bs m.host
  | mark l b => rfl
  | zero b n => rfl

theorem Mem.get_mark_apply1 (m : Mem) (p : Post) (l : Nat) :
    Tbl.get 0 l (m.apply1 p).mark = (p.lineMark l).getD (Tbl.get 0 l m.mark) := by
  cases p with
  | dev b bs => rfl
  | host b bs => rfl
  | mark k b =>
    simp only [Mem.apply1, Post.lineMark]
    by_cases h : k = l
    · subst h
      simp
    · simp [h, Tbl.get_set_ne 0 0 b m.mark (Ne.symm h)]
  | zero b n =>
    simp only [Mem.apply1, Post.lineMark, get_dropRange]
    split <;> simp

theorem Mem.apply_append (m : Mem) (ps qs : List Post) : m.apply (ps ++ qs) = (m.apply ps).apply qs := by
  simp [Mem.apply, List.foldl_append]

/-- The device byte a command sees is the one the memory holds when the command is done. -/
theorem Mem.get_dev_apply (m : Mem) (ps : List Post) (a : Nat) :
    Tbl.get 0#8 a (m.apply ps.reverse).dev = (ps.findSome? (Post.devByte a)).getD (Tbl.get 0#8 a m.dev) := by
  induction ps with
  | nil => rfl
  | cons p ps ih =>
    rw [List.reverse_cons, Mem.apply_append]
    show Tbl.get 0#8 a ((m.apply ps.reverse).apply1 p).dev = _
    rw [Mem.get_dev_apply1, ih, List.findSome?_cons]
    cases p.devByte a <;> simp

theorem Mem.get_host_apply (m : Mem) (ps : List Post) (a : Nat) :
    Tbl.get 0#8 a (m.apply ps.reverse).host = (ps.findSome? (Post.hostByte a)).getD (Tbl.get 0#8 a m.host) := by
  induction ps with
  | nil => rfl
  | cons p ps ih =>
    rw [List.reverse_cons, Mem.apply_append]
    show Tbl.get 0#8 a ((m.apply ps.reverse).apply1 p).host = _
    rw [Mem.get_host_apply1, ih, List.findSome?_cons]
    cases p.hostByte a <;> simp

theorem Mem.get_mark_apply (m : Mem) (ps : List Post) (l : Nat) :
    Tbl.get 0 l (m.apply ps.reverse).mark = (ps.findSome? (Post.lineMark l)).getD (Tbl.get 0 l m.mark) := by
  induction ps with
  | nil => rfl
  | cons p ps ih =>
    rw [List.reverse_cons, Mem.apply_append]
    show Tbl.get 0 l ((m.apply ps.reverse).apply1 p).mark = _
    rw [Mem.get_mark_apply1, ih, List.findSome?_cons]
    cases p.lineMark l <;> simp

/-! ## What a run can do -/

/-- What running a command can do: it answers a next state, leaves the queue as it was, and changes the memories by its posted
writes alone. -/
theorem State.run_cases (s : State) (f : Run → Run) :
    ∃ t, s.run f = .next t ∧ t.pending = s.pending ∧ t.hw = (f ⟨s.hw, s.mem, []⟩).hw ∧
      t.mem = s.mem.apply (f ⟨s.hw, s.mem, []⟩).posts.reverse := ⟨_, rfl, rfl, rfl, rfl⟩

theorem State.onHw_eq_run (s : State) (f : Hw → Hw) : s.onHw f = s.run fun r => r.on f := rfl

theorem State.byHost_eq_run (s : State) (f : Run → Run) : s.byHost f = s.run fun r => if r.hw.hostUp then f r else r := rfl

theorem State.byHostHw_eq_run (s : State) (f : Hw → Hw) : s.byHostHw f = s.run fun r => r.on fun h => if h.hostUp then f h else h := rfl

end Sys2Proof.Machine
end

