-- ==== Sys2Proof/Laws/Exec.lean ====
section
/-! SUPPORT. What every command can do, said once: it answers a next state, leaves the queue as it was, and changes the memories
by posted writes alone. -/

namespace Sys2Proof.Machine

/-! ## Each command is a run -/

/-- An outcome that running some effect on `s` gives. -/
def Ran (s : State) (o : Host.Outcome State Fault Refusal) : Prop := ∃ g, o = s.run g

theorem ran_run (s : State) (g : Run → Run) : Ran s (s.run g) := ⟨g, rfl⟩
theorem ran_onHw (s : State) (g : Hw → Hw) : Ran s (s.onHw g) := ⟨fun r => r.on g, rfl⟩
theorem ran_byHost (s : State) (g : Run → Run) : Ran s (s.byHost g) := ran_run s _
theorem ran_byHostHw (s : State) (g : Hw → Hw) : Ran s (s.byHostHw g) := ran_onHw s _
theorem ran_runStall (s : State) (n eng : Nat) (i : Issue) (g : Cx → Run → Run) : Ran s (s.runStall n eng i g) := ran_run s _
theorem ran_runHub (s : State) (m p eng : Nat) (i : Issue) (g : Hx → Run → Run) : Ran s (s.runHub m p eng i g) := ran_run s _
theorem ran_mailbox (s : State) (op : Nat) (a b : Bool) (g : Hw → Hw) : Ran s (s.mailbox op a b g) := ran_byHostHw s _

theorem execFrameStart_run (s : State) : Ran s (execFrameStart s) := ran_run s _
theorem execSubtick_run (s : State) : Ran s (execSubtick s) := ran_run s _
theorem execPauseExpiry_run (p : PenId) (ctx : Nat) (s : State) : Ran s (execPauseExpiry p ctx s) := ran_run s _
theorem execFrameTailDone_run (p : PenId) (frame : Nat) (s : State) : Ran s (execFrameTailDone p frame s) := ran_run s _
theorem execFrameOverrun_run (p : PenId) (frame : Nat) (s : State) : Ran s (execFrameOverrun p frame s) := ran_onHw s _
theorem execCommandBoundary_run (e : Eng) (s : State) : Ran s (execCommandBoundary e s) := ran_run s _
theorem execCmdWatchdog_run (e : Eng) (s : State) : Ran s (execCmdWatchdog e s) := ran_run s _
theorem execEngineResetDone_run (e : Eng) (s : State) : Ran s (execEngineResetDone e s) := ran_onHw s _
theorem execStallHang_run (e : Eng) (s : State) : Ran s (execStallHang e s) := ran_onHw s _
theorem execSwapSetDone_run (p : PenId) (places : SwapPlaces) (s : State) : Ran s (execSwapSetDone p places s) := ran_run s _
theorem execTdaMac_run (n : StallId) (i : Issue) (cmd : Bytes) (s : State) : Ran s (execTdaMac n i cmd s) := ran_runStall s _ _ _ _
theorem execLutAcc_run (n : StallId) (i : Issue) (cmd : Bytes) (s : State) : Ran s (execLutAcc n i cmd s) := ran_runStall s _ _ _ _
theorem execTritCombine_run (n : StallId) (i : Issue) (f : TritCombine) (s : State) : Ran s (execTritCombine n i f s) := ran_runStall s _ _ _ _
theorem execLnuOp_run (n : StallId) (i : Issue) (cmd : Bytes) (s : State) : Ran s (execLnuOp n i cmd s) := ran_runStall s _ _ _ _
theorem execCvdLoad_run (n : StallId) (i : Issue) (f : CvdLoad) (s : State) : Ran s (execCvdLoad n i f s) := ran_runStall s _ _ _ _
theorem execGenBind_run (n : StallId) (i : Issue) (cmd : Bytes) (s : State) : Ran s (execGenBind n i cmd s) := ran_runStall s _ _ _ _
theorem execGenUnbind_run (n : StallId) (i : Issue) (gen : Nat) (s : State) : Ran s (execGenUnbind n i gen s) := ran_runStall s _ _ _ _
theorem execTseMac_run (n : StallId) (i : Issue) (cmd : Bytes) (s : State) : Ran s (execTseMac n i cmd s) := ran_runStall s _ _ _ _
theorem execRouteTopk_run (n : StallId) (i : Issue) (cmd : Bytes) (s : State) : Ran s (execRouteTopk n i cmd s) := ran_runStall s _ _ _ _
theorem execAnpSelect_run (n : StallId) (i : Issue) (cmd : Bytes) (s : State) : Ran s (execAnpSelect n i cmd s) := ran_runStall s _ _ _ _
theorem execAnpCheck_run (n : StallId) (i : Issue) (cmd : Bytes) (s : State) : Ran s (execAnpCheck n i cmd s) := ran_runStall s _ _ _ _
theorem execScarfPack_run (m : HubId) (p : PenId) (i : Issue) (cmd : Bytes) (s : State) : Ran s (execScarfPack m p i cmd s) := ran_runHub s _ _ _ _ _
theorem execCdeCmd_run (m : HubId) (p : PenId) (i : Issue) (cmd : Bytes) (s : State) : Ran s (execCdeCmd m p i cmd s) := ran_runHub s _ _ _ _ _
theorem execTernarise_run (n : StallId) (i : Issue) (cmd : Bytes) (s : State) : Ran s (execTernarise n i cmd s) := ran_runStall s _ _ _ _
theorem execWaitArrivals_run (n : StallId) (e : EngKind) (i : Issue) (cmd : Bytes) (s : State) : Ran s (execWaitArrivals n e i cmd s) := ran_runStall s _ _ _ _
theorem execDmaMove_run (n : StallId) (i : Issue) (cmd : Bytes) (s : State) : Ran s (execDmaMove n i cmd s) := ran_runStall s _ _ _ _
theorem execRemoteWriteArrival_run (n : StallId) (off : Nat) (w : Landing) (poison : Nat) (ctr : Option (Fin 64)) (slot : Nat) (s : State) : Ran s (execRemoteWriteArrival n off w poison ctr slot s) := ran_run s _
theorem execZeroFillDone_run (n : StallId) (s : State) : Ran s (execZeroFillDone n s) := ran_run s _
theorem execCribEmit_run (n : StallId) (i : Issue) (cmd : Bytes) (s : State) : Ran s (execCribEmit n i cmd s) := ran_runStall s _ _ _ _
theorem execDetachedWaitEnd_run (n : StallId) (d : Fin 8) (s : State) : Ran s (execDetachedWaitEnd n d s) := ran_run s _
theorem execSample_run (n : StallId) (i : Issue) (cmd : Bytes) (s : State) : Ran s (execSample n i cmd s) := ran_runStall s _ _ _ _
theorem execKvPrefix_run (m : HubId) (p : PenId) (i : Issue) (cmd : Bytes) (s : State) : Ran s (execKvPrefix m p i cmd s) := ran_runHub s _ _ _ _ _
theorem execKvRq_run (m : HubId) (p : PenId) (i : Issue) (cmd : Bytes) (s : State) : Ran s (execKvRq m p i cmd s) := ran_runHub s _ _ _ _ _
theorem execKvPrefetchSpan_run (p : PenId) (s : State) : Ran s (execKvPrefetchSpan p s) := ran_run s _
theorem execZltPut_run (n : StallId) (i : Issue) (cmd : Bytes) (s : State) : Ran s (execZltPut n i cmd s) := ran_runStall s _ _ _ _
theorem execPegSync_run (n : StallId) (i : Issue) (cmd : Bytes) (s : State) : Ran s (execPegSync n i cmd s) := ran_runStall s _ _ _ _
theorem execPegArrive_run (l : LinkId) (raw : Bytes) (udpOk ce : Bool) (s : State) : Ran s (execPegArrive l raw udpOk ce s) := ran_run s _
theorem execPegRelease_run (l : LinkId) (raw : Bytes) (udpOk ce : Bool) (s : State) : Ran s (execPegRelease l raw udpOk ce s) := ran_run s _
theorem execPeerTimeout_run (g : GroupId) (s : State) : Ran s (execPeerTimeout g s) := ran_run s _
theorem execPegEnable_run (g : GroupId) (s : State) : Ran s (execPegEnable g s) := ran_byHostHw s _
theorem execPegReset_run (g : GroupId) (s : State) : Ran s (execPegReset g s) := ran_byHostHw s _
theorem execPegConfigWrite_run (g : GroupId) (reg : Fin 4) (value : BitVec 32) (s : State) : Ran s (execPegConfigWrite g reg value s) := ran_byHostHw s _
theorem execZltDataRx_run (l : LinkId) (raw : Landing) (udpOk ce : Bool) (s : State) : Ran s (execZltDataRx l raw udpOk ce s) := ran_run s _
theorem execZltAckRx_run (l : LinkId) (raw : Bytes) (udpOk ce : Bool) (s : State) : Ran s (execZltAckRx l raw udpOk ce s) := ran_run s _
theorem execZltAckTimer_run (dev : BitVec 12) (tc : Fin 3) (s : State) : Ran s (execZltAckTimer dev tc s) := ran_onHw s _
theorem execZltRetransmit_run (dev : BitVec 12) (tc : Fin 3) (psn : BitVec 32) (s : State) : Ran s (execZltRetransmit dev tc psn s) := ran_run s _
theorem execRateRecovery_run (dev : BitVec 12) (s : State) : Ran s (execRateRecovery dev s) := ran_onHw s _
theorem execLinkCreditRx_run (l : LinkId) (tc : Fin 3) (n : BitVec 16) (s : State) : Ran s (execLinkCreditRx l tc n s) := ran_onHw s _
theorem execFecUncorrectable_run (l : LinkId) (s : State) : Ran s (execFecUncorrectable l s) := ran_onHw s _
theorem execLinkTrained_run (l : LinkId) (lanes : Fin 256) (peerDev : BitVec 16) (peerLink : Fin 32) (split : Bool) (s : State) : Ran s (execLinkTrained l lanes peerDev peerLink split s) := ran_onHw s _
theorem execLinkTrainTimeout_run (l : LinkId) (s : State) : Ran s (execLinkTrainTimeout l s) := ran_onHw s _
theorem execLinkRetry_run (l : LinkId) (s : State) : Ran s (execLinkRetry l s) := ran_onHw s _
theorem execLaneFail_run (l : LinkId) (lane : Fin 8) (s : State) : Ran s (execLaneFail l lane s) := ran_onHw s _
theorem execLinkRetrain_run (l : LinkId) (s : State) : Ran s (execLinkRetrain l s) := ran_byHostHw s _
theorem execLinkHang_run (l : LinkId) (s : State) : Ran s (execLinkHang l s) := ran_onHw s _
theorem execRouteCommit_run (s : State) : Ran s (execRouteCommit s) := ran_byHostHw s _
theorem execHello_run (l : LinkId) (raw : Bytes) (udpOk ce : Bool) (s : State) : Ran s (execHello l raw udpOk ce s) := ran_run s _
theorem execHeartbeatRx_run (l : LinkId) (raw : Bytes) (udpOk ce : Bool) (s : State) : Ran s (execHeartbeatRx l raw udpOk ce s) := ran_run s _
theorem execDirect_run (l : LinkId) (raw : Bytes) (udpOk ce : Bool) (s : State) : Ran s (execDirect l raw udpOk ce s) := ran_run s _
theorem execJournal_run (l : LinkId) (raw : Bytes) (udpOk ce : Bool) (s : State) : Ran s (execJournal l raw udpOk ce s) := ran_run s _
theorem execCommit_run (l : LinkId) (raw : Bytes) (udpOk ce : Bool) (s : State) : Ran s (execCommit l raw udpOk ce s) := ran_run s _
theorem execCommitAck_run (l : LinkId) (raw : Bytes) (udpOk ce : Bool) (s : State) : Ran s (execCommitAck l raw udpOk ce s) := ran_run s _
theorem execYokeCommitSend_run (p : PenId) (s : State) : Ran s (execYokeCommitSend p s) := ran_run s _
theorem execFetchReq_run (l : LinkId) (raw : Bytes) (udpOk ce : Bool) (s : State) : Ran s (execFetchReq l raw udpOk ce s) := ran_run s _
theorem execFetchDone_run (l : LinkId) (raw : Bytes) (udpOk ce : Bool) (s : State) : Ran s (execFetchDone l raw udpOk ce s) := ran_run s _
theorem execFetchNak_run (l : LinkId) (raw : Bytes) (udpOk ce : Bool) (s : State) : Ran s (execFetchNak l raw udpOk ce s) := ran_run s _
theorem execYokeTakeover_run (p : PenId) (s : State) : Ran s (execYokeTakeover p s) := ran_run s _
theorem execYokeSolo_run (p : PenId) (s : State) : Ran s (execYokeSolo p s) := ran_run s _
theorem execDemote_run (p : PenId) (s : State) : Ran s (execDemote p s) := ran_byHost s _
theorem execTrsStart_run (s : State) : Ran s (execTrsStart s) := ran_byHostHw s _
theorem execQuiesce_run (s : State) : Ran s (execQuiesce s) := ran_byHostHw s _
theorem execQuiesceClear_run (s : State) : Ran s (execQuiesceClear s) := ran_byHostHw s _
theorem execQuiesced_run (s : State) : Ran s (execQuiesced s) := ran_onHw s _
theorem execTrsAbort_run (s : State) : Ran s (execTrsAbort s) := ran_byHostHw s _
theorem execTrussFetchDone_run (res : Completion) (s : State) : Ran s (execTrussFetchDone res s) := ran_run s _
theorem execTrussVerifyDone_run (s : State) : Ran s (execTrussVerifyDone s) := ran_run s _
theorem execTrussValidateDone_run (s : State) : Ran s (execTrussValidateDone s) := ran_run s _
theorem execTrussCommitDone_run (s : State) : Ran s (execTrussCommitDone s) := ran_run s _
theorem execPenHeavyCommit_run (s : State) : Ran s (execPenHeavyCommit s) := ran_run s _
theorem execTrussScrubDone_run (s : State) : Ran s (execTrussScrubDone s) := ran_run s _
theorem execPlanStart_run (p : PenId) (slot : Fin 8) (s : State) : Ran s (execPlanStart p slot s) := ran_byHostHw s _
theorem execPlanAbort_run (p : PenId) (s : State) : Ran s (execPlanAbort p s) := ran_byHostHw s _
theorem execPlanFetchDone_run (p : PenId) (res : Completion) (s : State) : Ran s (execPlanFetchDone p res s) := ran_run s _
theorem execPlanDigestDone_run (p : PenId) (s : State) : Ran s (execPlanDigestDone p s) := ran_run s _
theorem execPlanCheckDone_run (p : PenId) (tasks : List Task) (s : State) : Ran s (execPlanCheckDone p tasks s) := ran_run s _
theorem execRotaApply_run (p : PenId) (lenM1 : Fin 16) (s : State) : Ran s (execRotaApply p lenM1 s) := ran_byHostHw s _
theorem execKvmApply_run (p : PenId) (s : State) : Ran s (execKvmApply p s) := ran_byHostHw s _
theorem execRetirePage_run (stack : Fin 16) (entry : Fin 1024) (value : BitVec 32) (s : State) : Ran s (execRetirePage stack entry value s) := ran_byHostHw s _
theorem execLoftRetire_run (entry : Fin 4096) (value : BitVec 32) (s : State) : Ran s (execLoftRetire entry value s) := ran_byHostHw s _
theorem execPatrolScrub_run (u : ScrubUnit) (upsets : List Upset) (s : State) : Ran s (execPatrolScrub u upsets s) := ran_run s _
theorem execZoneSample_run (m : HubId) (stack0 stack1 hub : Fin 256) (s : State) : Ran s (execZoneSample m stack0 stack1 hub s) := ran_onHw s _
theorem execCtTempSample_run (d : Fin 24) (t0 t1 t2 t3 : Fin 256) (s : State) : Ran s (execCtTempSample d t0 t1 t2 t3 s) := ran_onHw s _
theorem execThermalTrip_run (u : ThermUnit) (s : State) : Ran s (execThermalTrip u s) := ran_onHw s _
theorem execTripRelease_run (u : ThermUnit) (s : State) : Ran s (execTripRelease u s) := ran_onHw s _
theorem execThermalCritical_run (u : ThermUnit) (s : State) : Ran s (execThermalCritical u s) := ran_run s _
theorem execCriticalCooldown_run (s : State) : Ran s (execCriticalCooldown s) := ran_onHw s _
theorem execSagWarn_run (ext : Bool) (s : State) : Ran s (execSagWarn ext s) := ran_onHw s _
theorem execSagWarnRelease_run (s : State) : Ran s (execSagWarnRelease s) := ran_onHw s _
theorem execSagNSampleEnd_run (low : Bool) (s : State) : Ran s (execSagNSampleEnd low s) := ran_onHw s _
theorem execSagReset_run (s : State) : Ran s (execSagReset s) := ran_run s _
theorem execOvReset_run (s : State) : Ran s (execOvReset s) := ran_run s _
theorem execPowerEstimate_run (counts : List ActCount) (s : State) : Ran s (execPowerEstimate counts s) := ran_onHw s _
theorem execPowerMeasure_run (vin iin : Fin 65536) (mw : Nat) (s : State) : Ran s (execPowerMeasure vin iin mw s) := ran_onHw s _
theorem execPowerCalibrate_run (s : State) : Ran s (execPowerCalibrate s) := ran_onHw s _
theorem execPowerCapHeld_run (s : State) : Ran s (execPowerCapHeld s) := ran_onHw s _
theorem execCapWrite_run (value : BitVec 32) (s : State) : Ran s (execCapWrite value s) := ran_byHostHw s _
theorem execPowerClamp_run (s : State) : Ran s (execPowerClamp s) := ran_onHw s _
theorem execClampRelease_run (s : State) : Ran s (execClampRelease s) := ran_onHw s _
theorem execPowerOvercurrent_run (s : State) : Ran s (execPowerOvercurrent s) := ran_run s _
theorem execDroopStretch_run (d : Fin 24) (cycles : Fin 33) (s : State) : Ran s (execDroopStretch d cycles s) := ran_onHw s _
theorem execDroopWindow_run (d : Fin 24) (aclk : Nat) (s : State) : Ran s (execDroopWindow d aclk s) := ran_onHw s _
theorem execSupplyOn_run (s : State) : Ran s (execSupplyOn s) := ran_onHw s _
theorem execInrushDone_run (s : State) : Ran s (execInrushDone s) := ran_onHw s _
theorem execSupplyLoss_run (s : State) : Ran s (execSupplyLoss s) := ran_run s _
theorem execDeviceRelease_run (s : State) : Ran s (execDeviceRelease s) := ran_onHw s _
theorem execDeviceBootComplete_run (ok : Bool) (s : State) : Ran s (execDeviceBootComplete ok s) := ran_onHw s _
theorem execCxlLinkTrained_run (port : Fin 2) (lanes : Fin 17) (rate : Fin 3) (s : State) : Ran s (execCxlLinkTrained port lanes rate s) := ran_onHw s _
theorem execDieFatal_run (die : Fin 40) (s : State) : Ran s (execDieFatal die s) := ran_run s _
theorem execFabricUe_run (die : Fin 40) (s : State) : Ran s (execFabricUe die s) := ran_run s _
theorem execDrainEnd_run (p : PenId) (s : State) : Ran s (execDrainEnd p s) := ran_run s _
theorem execDrainTimeout_run (p : PenId) (s : State) : Ran s (execDrainTimeout p s) := ran_onHw s _
theorem execPenResetDone_run (p : PenId) (s : State) : Ran s (execPenResetDone p s) := ran_onHw s _
theorem execHostFence_run (p : PenId) (s : State) : Ran s (execHostFence p s) := ran_byHostHw s _
theorem execPenResume_run (p : PenId) (s : State) : Ran s (execPenResume p s) := ran_byHostHw s _
theorem execFunctionDrainEnd_run (f : FnId) (s : State) : Ran s (execFunctionDrainEnd f s) := ran_run s _
theorem execHostReset_run (noDump : Bool) (s : State) : Ran s (execHostReset noDump s) := ran_byHost s _
theorem execCrashCaptureDone_run (s : State) : Ran s (execCrashCaptureDone s) := ran_onHw s _
theorem execDumpWriteDone_run (s : State) : Ran s (execDumpWriteDone s) := ran_onHw s _
theorem execDumpCopy_run (s : State) : Ran s (execDumpCopy s) := ran_byHostHw s _
theorem execDumpCopyDone_run (s : State) : Ran s (execDumpCopyDone s) := ran_run s _
theorem execRefetchGo_run (s : State) : Ran s (execRefetchGo s) := ran_byHostHw s _
theorem execHostRefetchDone_run (m : HubId) (entry : Fin 64) (res : Completion) (s : State) : Ran s (execHostRefetchDone m entry res s) := ran_run s _
theorem execRefetchTimeout_run (m : HubId) (entry : Fin 64) (s : State) : Ran s (execRefetchTimeout m entry s) := ran_onHw s _
theorem execFlashLogWrite_run (s : State) : Ran s (execFlashLogWrite s) := ran_onHw s _
theorem execPlatformEventSend_run (room : Bool) (s : State) : Ran s (execPlatformEventSend room s) := ran_onHw s _
theorem execCeStorm_run (kind : Fin 8) (unit : Fin 192) (fec : Nat) (s : State) : Ran s (execCeStorm kind unit fec s) := ran_onHw s _
theorem execSdgReset_run (s : State) : Ran s (execSdgReset s) := ran_onHw s _
theorem execSheepdogBoot_run (addr : Fin 4) (s : State) : Ran s (execSheepdogBoot addr s) := ran_onHw s _
theorem execFwTrialConfirm_run (s : State) : Ran s (execFwTrialConfirm s) := ran_onHw s _
theorem execUpdateIdleTimeout_run (s : State) : Ran s (execUpdateIdleTimeout s) := ran_onHw s _
theorem execArcCommit_run (key : BitVec 16) (s : State) : Ran s (execArcCommit key s) := ran_byHostHw s _
theorem execArcFuseBurn_run (s : State) : Ran s (execArcFuseBurn s) := ran_onHw s _
theorem execKeyRecordApply_run (s : State) : Ran s (execKeyRecordApply s) := ran_byHostHw s _
theorem execKeyRecordDone_run (res : Completion) (s : State) : Ran s (execKeyRecordDone res s) := ran_run s _
theorem execGetFwInfo_run (s : State) : Ran s (execGetFwInfo s) := ran_mailbox s _ _ _ _
theorem execTransferFw_run (slot : Fin 256) (p : FwPackage) (s : State) : Ran s (execTransferFw slot p s) := ran_mailbox s _ _ _ _
theorem execTransferFwDone_run (s : State) : Ran s (execTransferFwDone s) := ran_onHw s _
theorem execActivateFw_run (slot : Fin 256) (online : Bool) (s : State) : Ran s (execActivateFw slot online s) := ran_mailbox s _ _ _ _
theorem execGetTimestamp_run (s : State) : Ran s (execGetTimestamp s) := ran_mailbox s _ _ _ _
theorem execSetTimestamp_run (t : BitVec 64) (s : State) : Ran s (execSetTimestamp t s) := ran_mailbox s _ _ _ _
theorem execGetSupportedLogs_run (s : State) : Ran s (execGetSupportedLogs s) := ran_mailbox s _ _ _ _
theorem execGetLog_run (s : State) : Ran s (execGetLog s) := ran_mailbox s _ _ _ _
theorem execRequestUpdate_run (b : Bus) (p : FwPackage) (s : State) : Ran s (execRequestUpdate b p s) := ran_onHw s _
theorem execActivateFirmware_run (b : Bus) (s : State) : Ran s (execActivateFirmware b s) := ran_onHw s _
theorem execSetEventReceiver_run (b : Bus) (on : Bool) (s : State) : Ran s (execSetEventReceiver b on s) := ran_onHw s _
theorem execEffecterWrite_run (b : Bus) (id : Nat) (w : Nat) (s : State) : Ran s (execEffecterWrite b id w s) := ran_onHw s _
theorem execSensorRead_run (b : Bus) (id : Nat) (now : Fin 256) (s : State) : Ran s (execSensorRead b id now s) := ran_onHw s _
theorem execFruRead_run (b : Bus) (s : State) : Ran s (execFruRead b s) := ran_onHw s _
theorem execPldmFileRead_run (b : Bus) (file : MgtFile) (off len : Nat) (s : State) : Ran s (execPldmFileRead b file off len s) := ran_onHw s _
theorem execMctpEidAssign_run (b : Bus) (eid : BitVec 8) (s : State) : Ran s (execMctpEidAssign b eid s) := ran_onHw s _
theorem execGetVersion_run (t : SpdmPort) (s : State) : Ran s (execGetVersion t s) := ran_onHw s _
theorem execGetCapabilities_run (t : SpdmPort) (s : State) : Ran s (execGetCapabilities t s) := ran_onHw s _
theorem execNegotiateAlgorithms_run (t : SpdmPort) (offered : Bool) (s : State) : Ran s (execNegotiateAlgorithms t offered s) := ran_onHw s _
theorem execGetDigests_run (t : SpdmPort) (s : State) : Ran s (execGetDigests t s) := ran_onHw s _
theorem execGetCertificate_run (t : SpdmPort) (slot : Fin 8) (off len : Nat) (s : State) : Ran s (execGetCertificate t slot off len s) := ran_onHw s _
theorem execChallenge_run (t : SpdmPort) (slot : Fin 8) (s : State) : Ran s (execChallenge t slot s) := ran_onHw s _
theorem execGetMeasurements_run (t : SpdmPort) (i : Fin 256) (sig : Bool) (s : State) : Ran s (execGetMeasurements t i sig s) := ran_onHw s _
theorem execKeyExchange_run (s : State) : Ran s (execKeyExchange s) := ran_onHw s _
theorem execFinish_run (s : State) : Ran s (execFinish s) := ran_onHw s _
theorem execEndSession_run (s : State) : Ran s (execEndSession s) := ran_onHw s _
theorem execCoolantThreshold_run (outlet : Bool) (t : Fin 256) (s : State) : Ran s (execCoolantThreshold outlet t s) := ran_onHw s _
theorem execHdmWrite_run (port : Fin 2) (off : Nat) (bytes : Bytes) (poison : Bool) (ups : List Upset) (s : State) : Ran s (execHdmWrite port off bytes poison ups s) := ran_run s _
theorem execHdmRead_run (port : Fin 2) (off len : Nat) (ups : List Upset) (s : State) : Ran s (execHdmRead port off len ups s) := ran_run s _
theorem execHostSnoop_run (port : Fin 2) (addr : Nat) (s : State) : Ran s (execHostSnoop port addr s) := ran_onHw s _
theorem execHostReadCompletion_run (n : StallId) (d : Fin 8) (res : Completion) (s : State) : Ran s (execHostReadCompletion n d res s) := ran_onHw s _
theorem execDmaWindowWrite_run (f : FnId) (w : Fin 8) (limit : Bool) (value : BitVec 64) (s : State) : Ran s (execDmaWindowWrite f w limit value s) := ran_byHostHw s _
theorem execMsixUnmask_run (f : FnId) (v : Fin 2048) (s : State) : Ran s (execMsixUnmask f v s) := ran_onHw s _
theorem execPerstDeassert_run (port : Fin 2) (bifur : Bool) (s : State) : Ran s (execPerstDeassert port bifur s) := ran_onHw s _
theorem execPerstAssert_run (port : Fin 2) (s : State) : Ran s (execPerstAssert port s) := ran_run s _
theorem execFlr_run (f : HostFn) (s : State) : Ran s (execFlr f s) := ran_run s _
theorem execCxlReset_run (port : Fin 2) (s : State) : Ran s (execCxlReset port s) := ran_run s _
theorem execCxlLinkDownTimeout_run (port : Fin 2) (s : State) : Ran s (execCxlLinkDownTimeout port s) := ran_run s _
theorem execVfEnable_run (port : Fin 2) (num : Fin 64) (s : State) : Ran s (execVfEnable port num s) := ran_run s _
theorem execVfDisable_run (port : Fin 2) (s : State) : Ran s (execVfDisable port s) := ran_run s _
theorem execD3hot_run (s : State) : Ran s (execD3hot s) := ran_byHost s _
theorem execRcFieldRead_run (sp : Space) (a size : Nat) (s : State) : Ran s (execRcFieldRead sp a size s) := ran_onHw s _
theorem execLowWordRead_run (sp : Space) (a : Nat) (s : State) : Ran s (execLowWordRead sp a s) := ran_onHw s _
theorem execRegisterWrite_run (sp : Space) (a size value : Nat) (s : State) : Ran s (execRegisterWrite sp a size value s) := ran_run s _
theorem execSagNRise_run (s : State) : Ran s (execSagNRise s) := ran_onHw s _
theorem execInputReleaseLevel_run (l : InLevel) (ok : Bool) (s : State) : Ran s (execInputReleaseLevel l ok s) := ran_onHw s _
theorem execKvSpillSpan_run (p : PenId) (s : State) : Ran s (execKvSpillSpan p s) := ran_run s _
theorem execBulkCopyDone_run (p : PenId) (s : State) : Ran s (execBulkCopyDone p s) := ran_run s _
theorem execDebugToken_run (b : Bus) (t : DebugTok) (s : State) : Ran s (execDebugToken b t s) := ran_onHw s _
theorem execCxlIdeKm_run (port stream : Fin 2) (op : IdeOp) (s : State) : Ran s (execCxlIdeKm port stream op s) := ran_onHw s _
theorem execDynamicAddressAssign_run (addr : BitVec 7) (s : State) : Ran s (execDynamicAddressAssign addr s) := ran_onHw s _

/-- Every command is a run: it answers a next state that keeps the queue and changes the memories by posted writes. -/
theorem exec_run (i : Instr) (s : State) : Ran s (exec i s) :=
  match i with
  | .frameStart => execFrameStart_run s
  | .subtick => execSubtick_run s
  | .pauseExpiry p ctx => execPauseExpiry_run p ctx s
  | .frameTailDone p frame => execFrameTailDone_run p frame s
  | .frameOverrun p frame => execFrameOverrun_run p frame s
  | .commandBoundary e => execCommandBoundary_run e s
  | .cmdWatchdog e => execCmdWatchdog_run e s
  | .engineResetDone e => execEngineResetDone_run e s
  | .stallHang e => execStallHang_run e s
  | .swapSetDone p places => execSwapSetDone_run p places s
  | .tdaMac n q cmd => execTdaMac_run n q cmd s
  | .lutAcc n q cmd => execLutAcc_run n q cmd s
  | .tritCombine n q f => execTritCombine_run n q f s
  | .lnuOp n q cmd => execLnuOp_run n q cmd s
  | .cvdLoad n q f => execCvdLoad_run n q f s
  | .genBind n q cmd => execGenBind_run n q cmd s
  | .genUnbind n q gen => execGenUnbind_run n q gen s
  | .tseMac n q cmd => execTseMac_run n q cmd s
  | .routeTopk n q cmd => execRouteTopk_run n q cmd s
  | .anpSelect n q cmd => execAnpSelect_run n q cmd s
  | .anpCheck n q cmd => execAnpCheck_run n q cmd s
  | .scarfPack m p q cmd => execScarfPack_run m p q cmd s
  | .cdeCmd m p q cmd => execCdeCmd_run m p q cmd s
  | .ternarise n q cmd => execTernarise_run n q cmd s
  | .waitArrivals n e q cmd => execWaitArrivals_run n e q cmd s
  | .dmaMove n q cmd => execDmaMove_run n q cmd s
  | .remoteWriteArrival n off w poison ctr slot => execRemoteWriteArrival_run n off w poison ctr slot s
  | .zeroFillDone n => execZeroFillDone_run n s
  | .cribEmit n q cmd => execCribEmit_run n q cmd s
  | .detachedWaitEnd n d => execDetachedWaitEnd_run n d s
  | .sample n q cmd => execSample_run n q cmd s
  | .kvPrefix m p q cmd => execKvPrefix_run m p q cmd s
  | .kvRq m p q cmd => execKvRq_run m p q cmd s
  | .kvPrefetchSpan p => execKvPrefetchSpan_run p s
  | .zltPut n q cmd => execZltPut_run n q cmd s
  | .pegSync n q cmd => execPegSync_run n q cmd s
  | .pegArrive l raw udpOk ce => execPegArrive_run l raw udpOk ce s
  | .pegRelease l raw udpOk ce => execPegRelease_run l raw udpOk ce s
  | .peerTimeout g => execPeerTimeout_run g s
  | .pegEnable g => execPegEnable_run g s
  | .pegReset g => execPegReset_run g s
  | .pegConfigWrite g reg value => execPegConfigWrite_run g reg value s
  | .zltDataRx l raw udpOk ce => execZltDataRx_run l raw udpOk ce s
  | .zltAckRx l raw udpOk ce => execZltAckRx_run l raw udpOk ce s
  | .zltAckTimer dev tc => execZltAckTimer_run dev tc s
  | .zltRetransmit dev tc psn => execZltRetransmit_run dev tc psn s
  | .rateRecovery dev => execRateRecovery_run dev s
  | .linkCreditRx l tc n => execLinkCreditRx_run l tc n s
  | .fecUncorrectable l => execFecUncorrectable_run l s
  | .linkTrained l lanes peerDev peerLink split => execLinkTrained_run l lanes peerDev peerLink split s
  | .linkTrainTimeout l => execLinkTrainTimeout_run l s
  | .linkRetry l => execLinkRetry_run l s
  | .laneFail l lane => execLaneFail_run l lane s
  | .linkRetrain l => execLinkRetrain_run l s
  | .linkHang l => execLinkHang_run l s
  | .routeCommit => execRouteCommit_run s
  | .hello l raw udpOk ce => execHello_run l raw udpOk ce s
  | .heartbeatRx l raw udpOk ce => execHeartbeatRx_run l raw udpOk ce s
  | .direct l raw udpOk ce => execDirect_run l raw udpOk ce s
  | .journal l raw udpOk ce => execJournal_run l raw udpOk ce s
  | .commit l raw udpOk ce => execCommit_run l raw udpOk ce s
  | .commitAck l raw udpOk ce => execCommitAck_run l raw udpOk ce s
  | .yokeCommitSend p => execYokeCommitSend_run p s
  | .fetchReq l raw udpOk ce => execFetchReq_run l raw udpOk ce s
  | .fetchDone l raw udpOk ce => execFetchDone_run l raw udpOk ce s
  | .fetchNak l raw udpOk ce => execFetchNak_run l raw udpOk ce s
  | .yokeTakeover p => execYokeTakeover_run p s
  | .yokeSolo p => execYokeSolo_run p s
  | .demote p => execDemote_run p s
  | .trsStart => execTrsStart_run s
  | .quiesce => execQuiesce_run s
  | .quiesceClear => execQuiesceClear_run s
  | .quiesced => execQuiesced_run s
  | .trsAbort => execTrsAbort_run s
  | .trussFetchDone res => execTrussFetchDone_run res s
  | .trussVerifyDone => execTrussVerifyDone_run s
  | .trussValidateDone => execTrussValidateDone_run s
  | .trussCommitDone => execTrussCommitDone_run s
  | .penHeavyCommit => execPenHeavyCommit_run s
  | .trussScrubDone => execTrussScrubDone_run s
  | .planStart p slot => execPlanStart_run p slot s
  | .planAbort p => execPlanAbort_run p s
  | .planFetchDone p res => execPlanFetchDone_run p res s
  | .planDigestDone p => execPlanDigestDone_run p s
  | .planCheckDone p tasks => execPlanCheckDone_run p tasks s
  | .rotaApply p lenM1 => execRotaApply_run p lenM1 s
  | .kvmApply p => execKvmApply_run p s
  | .retirePage stack entry value => execRetirePage_run stack entry value s
  | .loftRetire entry value => execLoftRetire_run entry value s
  | .patrolScrub u upsets => execPatrolScrub_run u upsets s
  | .zoneSample m stack0 stack1 hub => execZoneSample_run m stack0 stack1 hub s
  | .ctTempSample d t0 t1 t2 t3 => execCtTempSample_run d t0 t1 t2 t3 s
  | .thermalTrip u => execThermalTrip_run u s
  | .tripRelease u => execTripRelease_run u s
  | .thermalCritical u => execThermalCritical_run u s
  | .criticalCooldown => execCriticalCooldown_run s
  | .sagWarn ext => execSagWarn_run ext s
  | .sagWarnRelease => execSagWarnRelease_run s
  | .sagNSampleEnd low => execSagNSampleEnd_run low s
  | .sagReset => execSagReset_run s
  | .ovReset => execOvReset_run s
  | .powerEstimate parts => execPowerEstimate_run parts s
  | .powerMeasure vin iin mw => execPowerMeasure_run vin iin mw s
  | .powerCalibrate => execPowerCalibrate_run s
  | .powerCapHeld => execPowerCapHeld_run s
  | .capWrite value => execCapWrite_run value s
  | .powerClamp => execPowerClamp_run s
  | .clampRelease => execClampRelease_run s
  | .powerOvercurrent => execPowerOvercurrent_run s
  | .droopStretch d cycles => execDroopStretch_run d cycles s
  | .droopWindow d aclk => execDroopWindow_run d aclk s
  | .supplyOn => execSupplyOn_run s
  | .inrushDone => execInrushDone_run s
  | .supplyLoss => execSupplyLoss_run s
  | .deviceRelease => execDeviceRelease_run s
  | .deviceBootComplete ok => execDeviceBootComplete_run ok s
  | .cxlLinkTrained port lanes rate => execCxlLinkTrained_run port lanes rate s
  | .dieFatal die => execDieFatal_run die s
  | .fabricUe die => execFabricUe_run die s
  | .drainEnd p => execDrainEnd_run p s
  | .drainTimeout p => execDrainTimeout_run p s
  | .penResetDone p => execPenResetDone_run p s
  | .hostFence p => execHostFence_run p s
  | .penResume p => execPenResume_run p s
  | .functionDrainEnd f => execFunctionDrainEnd_run f s
  | .hostReset noDump => execHostReset_run noDump s
  | .crashCaptureDone => execCrashCaptureDone_run s
  | .dumpWriteDone => execDumpWriteDone_run s
  | .dumpCopy => execDumpCopy_run s
  | .dumpCopyDone => execDumpCopyDone_run s
  | .refetchGo => execRefetchGo_run s
  | .hostRefetchDone m entry res => execHostRefetchDone_run m entry res s
  | .refetchTimeout m entry => execRefetchTimeout_run m entry s
  | .flashLogWrite => execFlashLogWrite_run s
  | .platformEventSend room => execPlatformEventSend_run room s
  | .ceStorm kind unit fec => execCeStorm_run kind unit fec s
  | .sdgReset => execSdgReset_run s
  | .sheepdogBoot addr => execSheepdogBoot_run addr s
  | .fwTrialConfirm => execFwTrialConfirm_run s
  | .updateIdleTimeout => execUpdateIdleTimeout_run s
  | .arcCommit key => execArcCommit_run key s
  | .arcFuseBurn => execArcFuseBurn_run s
  | .keyRecordApply => execKeyRecordApply_run s
  | .keyRecordDone res => execKeyRecordDone_run res s
  | .getFwInfo => execGetFwInfo_run s
  | .transferFw slot p => execTransferFw_run slot p s
  | .transferFwDone => execTransferFwDone_run s
  | .activateFw slot online => execActivateFw_run slot online s
  | .getTimestamp => execGetTimestamp_run s
  | .setTimestamp t => execSetTimestamp_run t s
  | .getSupportedLogs => execGetSupportedLogs_run s
  | .getLog => execGetLog_run s
  | .requestUpdate b p => execRequestUpdate_run b p s
  | .activateFirmware b => execActivateFirmware_run b s
  | .setEventReceiver b on => execSetEventReceiver_run b on s
  | .effecterWrite b id w => execEffecterWrite_run b id w s
  | .sensorRead b id now => execSensorRead_run b id now s
  | .fruRead b => execFruRead_run b s
  | .pldmFileRead b file off len => execPldmFileRead_run b file off len s
  | .mctpEidAssign b eid => execMctpEidAssign_run b eid s
  | .getVersion t => execGetVersion_run t s
  | .getCapabilities t => execGetCapabilities_run t s
  | .negotiateAlgorithms t offered => execNegotiateAlgorithms_run t offered s
  | .getDigests t => execGetDigests_run t s
  | .getCertificate t slot off len => execGetCertificate_run t slot off len s
  | .challenge t slot => execChallenge_run t slot s
  | .getMeasurements t q sig => execGetMeasurements_run t q sig s
  | .keyExchange => execKeyExchange_run s
  | .finish => execFinish_run s
  | .endSession => execEndSession_run s
  | .coolantThreshold outlet t => execCoolantThreshold_run outlet t s
  | .hdmWrite port off bytes poison ups => execHdmWrite_run port off bytes poison ups s
  | .hdmRead port off len ups => execHdmRead_run port off len ups s
  | .hostSnoop port addr => execHostSnoop_run port addr s
  | .hostReadCompletion n d res => execHostReadCompletion_run n d res s
  | .dmaWindowWrite f w limit value => execDmaWindowWrite_run f w limit value s
  | .msixUnmask f v => execMsixUnmask_run f v s
  | .perstDeassert port bifur => execPerstDeassert_run port bifur s
  | .perstAssert port => execPerstAssert_run port s
  | .flr f => execFlr_run f s
  | .cxlReset port => execCxlReset_run port s
  | .cxlLinkDownTimeout port => execCxlLinkDownTimeout_run port s
  | .vfEnable port num => execVfEnable_run port num s
  | .vfDisable port => execVfDisable_run port s
  | .d3hot => execD3hot_run s
  | .rcFieldRead sp addr size => execRcFieldRead_run sp addr size s
  | .lowWordRead sp addr => execLowWordRead_run sp addr s
  | .registerWrite sp addr size value => execRegisterWrite_run sp addr size value s
  | .sagNRise => execSagNRise_run s
  | .inputReleaseLevel l ok => execInputReleaseLevel_run l ok s
  | .kvSpillSpan p => execKvSpillSpan_run p s
  | .bulkCopyDone p => execBulkCopyDone_run p s
  | .debugToken b t => execDebugToken_run b t s
  | .cxlIdeKm port stream op => execCxlIdeKm_run port stream op s
  | .dynamicAddressAssign addr => execDynamicAddressAssign_run addr s

/-- What a command can do: it answers a next state, keeps the queue, and changes the memories by posted writes alone. -/
theorem exec_cases (i : Instr) (s : State) :
    ∃ t ps, exec i s = .next t ∧ t.pending = s.pending ∧ t.mem = s.mem.apply ps := by
  obtain ⟨f, h⟩ := exec_run i s
  exact ⟨_, _, h, rfl, rfl⟩

end Sys2Proof.Machine
end

