-- ==== Sys2Proof/Laws/State.lean ====
section
/-! SUPPORT. What each update of the hardware leaves and what it changes: one lemma a field and update, true by unfolding. -/

namespace Sys2Proof.Machine

variable (s : Hw)

/-! ## `Hw.set` -/

@[simp] theorem Hw.set_clk (f : Fld) (i v : Nat) : (s.set f i v).clk = s.clk := rfl
@[simp] theorem Hw.set_free (f : Fld) (i v : Nat) : (s.set f i v).free = s.free := rfl
@[simp] theorem Hw.set_regs (f : Fld) (i v : Nat) : (s.set f i v).regs = Tbl.set f.reset (f.key i) (v % 2 ^ f.width) s.regs := rfl
@[simp] theorem Hw.set_latch (f : Fld) (i v : Nat) : (s.set f i v).latch = s.latch := rfl
@[simp] theorem Hw.set_out (f : Fld) (i v : Nat) : (s.set f i v).out = s.out := rfl
@[simp] theorem Hw.set_dev (f : Fld) (i v : Nat) : (s.set f i v).dev = s.dev := rfl
@[simp] theorem Hw.set_mgt (f : Fld) (i v : Nat) : (s.set f i v).mgt = s.mgt := rfl
@[simp] theorem Hw.set_pen (f : Fld) (i v : Nat) (q : Nat) : (s.set f i v).pen q = s.pen q := rfl
@[simp] theorem Hw.set_win (f : Fld) (i v : Nat) (u : Nat) : (s.set f i v).win u = s.win u := rfl
@[simp] theorem Hw.set_ten (f : Fld) (i v : Nat) (u : Nat) : (s.set f i v).ten u = s.ten u := rfl
@[simp] theorem Hw.set_stl (f : Fld) (i v : Nat) (m : Nat) : (s.set f i v).stl m = s.stl m := rfl
@[simp] theorem Hw.set_eng (f : Fld) (i v : Nat) (e : Nat) : (s.set f i v).eng e = s.eng e := rfl
@[simp] theorem Hw.set_link (f : Fld) (i v : Nat) (k : Nat) : (s.set f i v).link k = s.link k := rfl
@[simp] theorem Hw.set_desc (f : Fld) (i v : Nat) (q : Nat) : (s.set f i v).desc q = s.desc q := rfl
@[simp] theorem Hw.set_present (f : Fld) (i v : Nat) (q : Nat) : (s.set f i v).present q = s.present q := rfl

/-! ## `Hw.inc` -/

@[simp] theorem Hw.inc_clk (f : Fld) (i n : Nat) : (s.inc f i n).clk = s.clk := rfl
@[simp] theorem Hw.inc_free (f : Fld) (i n : Nat) : (s.inc f i n).free = s.free := rfl
@[simp] theorem Hw.inc_latch (f : Fld) (i n : Nat) : (s.inc f i n).latch = s.latch := rfl
@[simp] theorem Hw.inc_out (f : Fld) (i n : Nat) : (s.inc f i n).out = s.out := rfl
@[simp] theorem Hw.inc_dev (f : Fld) (i n : Nat) : (s.inc f i n).dev = s.dev := rfl
@[simp] theorem Hw.inc_mgt (f : Fld) (i n : Nat) : (s.inc f i n).mgt = s.mgt := rfl
@[simp] theorem Hw.inc_pen (f : Fld) (i n : Nat) (q : Nat) : (s.inc f i n).pen q = s.pen q := rfl
@[simp] theorem Hw.inc_win (f : Fld) (i n : Nat) (u : Nat) : (s.inc f i n).win u = s.win u := rfl
@[simp] theorem Hw.inc_ten (f : Fld) (i n : Nat) (u : Nat) : (s.inc f i n).ten u = s.ten u := rfl
@[simp] theorem Hw.inc_stl (f : Fld) (i n : Nat) (m : Nat) : (s.inc f i n).stl m = s.stl m := rfl
@[simp] theorem Hw.inc_eng (f : Fld) (i n : Nat) (e : Nat) : (s.inc f i n).eng e = s.eng e := rfl
@[simp] theorem Hw.inc_link (f : Fld) (i n : Nat) (k : Nat) : (s.inc f i n).link k = s.link k := rfl
@[simp] theorem Hw.inc_desc (f : Fld) (i n : Nat) (q : Nat) : (s.inc f i n).desc q = s.desc q := rfl
@[simp] theorem Hw.inc_present (f : Fld) (i n : Nat) (q : Nat) : (s.inc f i n).present q = s.present q := rfl

/-! ## `Hw.raise` -/

@[simp] theorem Hw.raise_clk (f : Fld) (i v : Nat) : (s.raise f i v).clk = s.clk := rfl
@[simp] theorem Hw.raise_free (f : Fld) (i v : Nat) : (s.raise f i v).free = s.free := rfl
@[simp] theorem Hw.raise_latch (f : Fld) (i v : Nat) : (s.raise f i v).latch = s.latch := rfl
@[simp] theorem Hw.raise_out (f : Fld) (i v : Nat) : (s.raise f i v).out = s.out := rfl
@[simp] theorem Hw.raise_dev (f : Fld) (i v : Nat) : (s.raise f i v).dev = s.dev := rfl
@[simp] theorem Hw.raise_mgt (f : Fld) (i v : Nat) : (s.raise f i v).mgt = s.mgt := rfl
@[simp] theorem Hw.raise_pen (f : Fld) (i v : Nat) (q : Nat) : (s.raise f i v).pen q = s.pen q := rfl
@[simp] theorem Hw.raise_win (f : Fld) (i v : Nat) (u : Nat) : (s.raise f i v).win u = s.win u := rfl
@[simp] theorem Hw.raise_ten (f : Fld) (i v : Nat) (u : Nat) : (s.raise f i v).ten u = s.ten u := rfl
@[simp] theorem Hw.raise_stl (f : Fld) (i v : Nat) (m : Nat) : (s.raise f i v).stl m = s.stl m := rfl
@[simp] theorem Hw.raise_eng (f : Fld) (i v : Nat) (e : Nat) : (s.raise f i v).eng e = s.eng e := rfl
@[simp] theorem Hw.raise_link (f : Fld) (i v : Nat) (k : Nat) : (s.raise f i v).link k = s.link k := rfl
@[simp] theorem Hw.raise_desc (f : Fld) (i v : Nat) (q : Nat) : (s.raise f i v).desc q = s.desc q := rfl
@[simp] theorem Hw.raise_present (f : Fld) (i v : Nat) (q : Nat) : (s.raise f i v).present q = s.present q := rfl

/-! ## `Hw.modPen` -/

@[simp] theorem Hw.modPen_clk (p : Nat) (f : PenSt → PenSt) : (s.modPen p f).clk = s.clk := rfl
@[simp] theorem Hw.modPen_free (p : Nat) (f : PenSt → PenSt) : (s.modPen p f).free = s.free := rfl
@[simp] theorem Hw.modPen_regs (p : Nat) (f : PenSt → PenSt) : (s.modPen p f).regs = s.regs := rfl
@[simp] theorem Hw.modPen_latch (p : Nat) (f : PenSt → PenSt) : (s.modPen p f).latch = s.latch := rfl
@[simp] theorem Hw.modPen_out (p : Nat) (f : PenSt → PenSt) : (s.modPen p f).out = s.out := rfl
@[simp] theorem Hw.modPen_dev (p : Nat) (f : PenSt → PenSt) : (s.modPen p f).dev = { s.dev with pens := Tbl.modify {} p f s.dev.pens } := rfl
@[simp] theorem Hw.modPen_mgt (p : Nat) (f : PenSt → PenSt) : (s.modPen p f).mgt = s.mgt := rfl
@[simp] theorem Hw.modPen_get (p : Nat) (f : PenSt → PenSt) (g : Fld) (j : Nat) : (s.modPen p f).get g j = s.get g j := rfl
@[simp] theorem Hw.modPen_is (p : Nat) (f : PenSt → PenSt) (g : Fld) (j : Nat) : (s.modPen p f).is g j = s.is g j := rfl

/-! ## `Hw.modWin` -/

@[simp] theorem Hw.modWin_clk (t : Nat) (f : Win → Win) : (s.modWin t f).clk = s.clk := rfl
@[simp] theorem Hw.modWin_free (t : Nat) (f : Win → Win) : (s.modWin t f).free = s.free := rfl
@[simp] theorem Hw.modWin_regs (t : Nat) (f : Win → Win) : (s.modWin t f).regs = s.regs := rfl
@[simp] theorem Hw.modWin_latch (t : Nat) (f : Win → Win) : (s.modWin t f).latch = s.latch := rfl
@[simp] theorem Hw.modWin_out (t : Nat) (f : Win → Win) : (s.modWin t f).out = s.out := rfl
@[simp] theorem Hw.modWin_dev (t : Nat) (f : Win → Win) : (s.modWin t f).dev = { s.dev with wins := Tbl.modify {} t f s.dev.wins } := rfl
@[simp] theorem Hw.modWin_mgt (t : Nat) (f : Win → Win) : (s.modWin t f).mgt = s.mgt := rfl
@[simp] theorem Hw.modWin_get (t : Nat) (f : Win → Win) (g : Fld) (j : Nat) : (s.modWin t f).get g j = s.get g j := rfl
@[simp] theorem Hw.modWin_is (t : Nat) (f : Win → Win) (g : Fld) (j : Nat) : (s.modWin t f).is g j = s.is g j := rfl

/-! ## `Hw.modTen` -/

@[simp] theorem Hw.modTen_clk (t : Nat) (f : TenSt → TenSt) : (s.modTen t f).clk = s.clk := rfl
@[simp] theorem Hw.modTen_free (t : Nat) (f : TenSt → TenSt) : (s.modTen t f).free = s.free := rfl
@[simp] theorem Hw.modTen_regs (t : Nat) (f : TenSt → TenSt) : (s.modTen t f).regs = s.regs := rfl
@[simp] theorem Hw.modTen_latch (t : Nat) (f : TenSt → TenSt) : (s.modTen t f).latch = s.latch := rfl
@[simp] theorem Hw.modTen_out (t : Nat) (f : TenSt → TenSt) : (s.modTen t f).out = s.out := rfl
@[simp] theorem Hw.modTen_dev (t : Nat) (f : TenSt → TenSt) : (s.modTen t f).dev = { s.dev with tens := Tbl.modify {} t f s.dev.tens } := rfl
@[simp] theorem Hw.modTen_mgt (t : Nat) (f : TenSt → TenSt) : (s.modTen t f).mgt = s.mgt := rfl
@[simp] theorem Hw.modTen_get (t : Nat) (f : TenSt → TenSt) (g : Fld) (j : Nat) : (s.modTen t f).get g j = s.get g j := rfl
@[simp] theorem Hw.modTen_is (t : Nat) (f : TenSt → TenSt) (g : Fld) (j : Nat) : (s.modTen t f).is g j = s.is g j := rfl

/-! ## `Hw.modEng` -/

@[simp] theorem Hw.modEng_clk (k : Nat) (f : EngSt → EngSt) : (s.modEng k f).clk = s.clk := rfl
@[simp] theorem Hw.modEng_free (k : Nat) (f : EngSt → EngSt) : (s.modEng k f).free = s.free := rfl
@[simp] theorem Hw.modEng_regs (k : Nat) (f : EngSt → EngSt) : (s.modEng k f).regs = s.regs := rfl
@[simp] theorem Hw.modEng_latch (k : Nat) (f : EngSt → EngSt) : (s.modEng k f).latch = s.latch := rfl
@[simp] theorem Hw.modEng_out (k : Nat) (f : EngSt → EngSt) : (s.modEng k f).out = s.out := rfl
@[simp] theorem Hw.modEng_dev (k : Nat) (f : EngSt → EngSt) : (s.modEng k f).dev = { s.dev with engs := Tbl.modify {} k f s.dev.engs } := rfl
@[simp] theorem Hw.modEng_mgt (k : Nat) (f : EngSt → EngSt) : (s.modEng k f).mgt = s.mgt := rfl
@[simp] theorem Hw.modEng_get (k : Nat) (f : EngSt → EngSt) (g : Fld) (j : Nat) : (s.modEng k f).get g j = s.get g j := rfl
@[simp] theorem Hw.modEng_is (k : Nat) (f : EngSt → EngSt) (g : Fld) (j : Nat) : (s.modEng k f).is g j = s.is g j := rfl

/-! ## `Hw.modMsix` -/

@[simp] theorem Hw.modMsix_clk (f v : Nat) (h : Msix → Msix) : (s.modMsix f v h).clk = s.clk := rfl
@[simp] theorem Hw.modMsix_free (f v : Nat) (h : Msix → Msix) : (s.modMsix f v h).free = s.free := rfl
@[simp] theorem Hw.modMsix_regs (f v : Nat) (h : Msix → Msix) : (s.modMsix f v h).regs = s.regs := rfl
@[simp] theorem Hw.modMsix_latch (f v : Nat) (h : Msix → Msix) : (s.modMsix f v h).latch = s.latch := rfl
@[simp] theorem Hw.modMsix_out (f v : Nat) (h : Msix → Msix) : (s.modMsix f v h).out = s.out := rfl
@[simp] theorem Hw.modMsix_dev (f v : Nat) (h : Msix → Msix) : (s.modMsix f v h).dev = { s.dev with msix := Tbl.modify {} (f * 4096 + v) h s.dev.msix } := rfl
@[simp] theorem Hw.modMsix_mgt (f v : Nat) (h : Msix → Msix) : (s.modMsix f v h).mgt = s.mgt := rfl
@[simp] theorem Hw.modMsix_get (f v : Nat) (h : Msix → Msix) (g : Fld) (j : Nat) : (s.modMsix f v h).get g j = s.get g j := rfl
@[simp] theorem Hw.modMsix_is (f v : Nat) (h : Msix → Msix) (g : Fld) (j : Nat) : (s.modMsix f v h).is g j = s.is g j := rfl

/-! ## `Hw.modStl` -/

@[simp] theorem Hw.modStl_clk (n : Nat) (f : Stl → Stl) : (s.modStl n f).clk = s.clk := rfl
@[simp] theorem Hw.modStl_free (n : Nat) (f : Stl → Stl) : (s.modStl n f).free = s.free := rfl
@[simp] theorem Hw.modStl_regs (n : Nat) (f : Stl → Stl) : (s.modStl n f).regs = s.regs := rfl
@[simp] theorem Hw.modStl_latch (n : Nat) (f : Stl → Stl) : (s.modStl n f).latch = s.latch := rfl
@[simp] theorem Hw.modStl_out (n : Nat) (f : Stl → Stl) : (s.modStl n f).out = s.out := rfl
@[simp] theorem Hw.modStl_dev (n : Nat) (f : Stl → Stl) : (s.modStl n f).dev = { s.dev with stls := Tbl.modify {} n f s.dev.stls } := rfl
@[simp] theorem Hw.modStl_mgt (n : Nat) (f : Stl → Stl) : (s.modStl n f).mgt = s.mgt := rfl
@[simp] theorem Hw.modStl_get (n : Nat) (f : Stl → Stl) (g : Fld) (j : Nat) : (s.modStl n f).get g j = s.get g j := rfl
@[simp] theorem Hw.modStl_is (n : Nat) (f : Stl → Stl) (g : Fld) (j : Nat) : (s.modStl n f).is g j = s.is g j := rfl

/-! ## `Hw.modLink` -/

@[simp] theorem Hw.modLink_clk (l : Nat) (f : LinkSt → LinkSt) : (s.modLink l f).clk = s.clk := rfl
@[simp] theorem Hw.modLink_free (l : Nat) (f : LinkSt → LinkSt) : (s.modLink l f).free = s.free := rfl
@[simp] theorem Hw.modLink_regs (l : Nat) (f : LinkSt → LinkSt) : (s.modLink l f).regs = s.regs := rfl
@[simp] theorem Hw.modLink_latch (l : Nat) (f : LinkSt → LinkSt) : (s.modLink l f).latch = s.latch := rfl
@[simp] theorem Hw.modLink_out (l : Nat) (f : LinkSt → LinkSt) : (s.modLink l f).out = s.out := rfl
@[simp] theorem Hw.modLink_dev (l : Nat) (f : LinkSt → LinkSt) : (s.modLink l f).dev = { s.dev with links := Tbl.modify {} l f s.dev.links } := rfl
@[simp] theorem Hw.modLink_mgt (l : Nat) (f : LinkSt → LinkSt) : (s.modLink l f).mgt = s.mgt := rfl
@[simp] theorem Hw.modLink_get (l : Nat) (f : LinkSt → LinkSt) (g : Fld) (j : Nat) : (s.modLink l f).get g j = s.get g j := rfl
@[simp] theorem Hw.modLink_is (l : Nat) (f : LinkSt → LinkSt) (g : Fld) (j : Nat) : (s.modLink l f).is g j = s.is g j := rfl

/-! ## `Hw.modFlow` -/

@[simp] theorem Hw.modFlow_clk (k : Nat) (f : Flow → Flow) : (s.modFlow k f).clk = s.clk := rfl
@[simp] theorem Hw.modFlow_free (k : Nat) (f : Flow → Flow) : (s.modFlow k f).free = s.free := rfl
@[simp] theorem Hw.modFlow_regs (k : Nat) (f : Flow → Flow) : (s.modFlow k f).regs = s.regs := rfl
@[simp] theorem Hw.modFlow_latch (k : Nat) (f : Flow → Flow) : (s.modFlow k f).latch = s.latch := rfl
@[simp] theorem Hw.modFlow_out (k : Nat) (f : Flow → Flow) : (s.modFlow k f).out = s.out := rfl
@[simp] theorem Hw.modFlow_dev (k : Nat) (f : Flow → Flow) : (s.modFlow k f).dev = { s.dev with flows := Tbl.modify {} k f s.dev.flows } := rfl
@[simp] theorem Hw.modFlow_mgt (k : Nat) (f : Flow → Flow) : (s.modFlow k f).mgt = s.mgt := rfl
@[simp] theorem Hw.modFlow_get (k : Nat) (f : Flow → Flow) (g : Fld) (j : Nat) : (s.modFlow k f).get g j = s.get g j := rfl
@[simp] theorem Hw.modFlow_is (k : Nat) (f : Flow → Flow) (g : Fld) (j : Nat) : (s.modFlow k f).is g j = s.is g j := rfl

/-! ## `Hw.modRx` -/

@[simp] theorem Hw.modRx_clk (k : Nat) (f : RxFlow → RxFlow) : (s.modRx k f).clk = s.clk := rfl
@[simp] theorem Hw.modRx_free (k : Nat) (f : RxFlow → RxFlow) : (s.modRx k f).free = s.free := rfl
@[simp] theorem Hw.modRx_regs (k : Nat) (f : RxFlow → RxFlow) : (s.modRx k f).regs = s.regs := rfl
@[simp] theorem Hw.modRx_latch (k : Nat) (f : RxFlow → RxFlow) : (s.modRx k f).latch = s.latch := rfl
@[simp] theorem Hw.modRx_out (k : Nat) (f : RxFlow → RxFlow) : (s.modRx k f).out = s.out := rfl
@[simp] theorem Hw.modRx_dev (k : Nat) (f : RxFlow → RxFlow) : (s.modRx k f).dev = { s.dev with rxf := Tbl.modify {} k f s.dev.rxf } := rfl
@[simp] theorem Hw.modRx_mgt (k : Nat) (f : RxFlow → RxFlow) : (s.modRx k f).mgt = s.mgt := rfl
@[simp] theorem Hw.modRx_get (k : Nat) (f : RxFlow → RxFlow) (g : Fld) (j : Nat) : (s.modRx k f).get g j = s.get g j := rfl
@[simp] theorem Hw.modRx_is (k : Nat) (f : RxFlow → RxFlow) (g : Fld) (j : Nat) : (s.modRx k f).is g j = s.is g j := rfl

/-! ## `Hw.modPwr` -/

@[simp] theorem Hw.modPwr_clk (f : Power → Power) : (s.modPwr f).clk = s.clk := rfl
@[simp] theorem Hw.modPwr_free (f : Power → Power) : (s.modPwr f).free = s.free := rfl
@[simp] theorem Hw.modPwr_regs (f : Power → Power) : (s.modPwr f).regs = s.regs := rfl
@[simp] theorem Hw.modPwr_latch (f : Power → Power) : (s.modPwr f).latch = s.latch := rfl
@[simp] theorem Hw.modPwr_out (f : Power → Power) : (s.modPwr f).out = s.out := rfl
@[simp] theorem Hw.modPwr_dev (f : Power → Power) : (s.modPwr f).dev = s.dev := rfl
@[simp] theorem Hw.modPwr_mgt (f : Power → Power) : (s.modPwr f).mgt = { s.mgt with pwr := f s.mgt.pwr } := rfl
@[simp] theorem Hw.modPwr_get (f : Power → Power) (g : Fld) (j : Nat) : (s.modPwr f).get g j = s.get g j := rfl
@[simp] theorem Hw.modPwr_is (f : Power → Power) (g : Fld) (j : Nat) : (s.modPwr f).is g j = s.is g j := rfl
@[simp] theorem Hw.modPwr_pen (f : Power → Power) (q : Nat) : (s.modPwr f).pen q = s.pen q := rfl
@[simp] theorem Hw.modPwr_win (f : Power → Power) (u : Nat) : (s.modPwr f).win u = s.win u := rfl
@[simp] theorem Hw.modPwr_ten (f : Power → Power) (u : Nat) : (s.modPwr f).ten u = s.ten u := rfl
@[simp] theorem Hw.modPwr_stl (f : Power → Power) (m : Nat) : (s.modPwr f).stl m = s.stl m := rfl
@[simp] theorem Hw.modPwr_eng (f : Power → Power) (e : Nat) : (s.modPwr f).eng e = s.eng e := rfl
@[simp] theorem Hw.modPwr_link (f : Power → Power) (k : Nat) : (s.modPwr f).link k = s.link k := rfl
@[simp] theorem Hw.modPwr_desc (f : Power → Power) (q : Nat) : (s.modPwr f).desc q = s.desc q := rfl
@[simp] theorem Hw.modPwr_present (f : Power → Power) (q : Nat) : (s.modPwr f).present q = s.present q := rfl

/-! ## `Hw.modMgt` -/

@[simp] theorem Hw.modMgt_clk (f : Mgt → Mgt) : (s.modMgt f).clk = s.clk := rfl
@[simp] theorem Hw.modMgt_free (f : Mgt → Mgt) : (s.modMgt f).free = s.free := rfl
@[simp] theorem Hw.modMgt_regs (f : Mgt → Mgt) : (s.modMgt f).regs = s.regs := rfl
@[simp] theorem Hw.modMgt_latch (f : Mgt → Mgt) : (s.modMgt f).latch = s.latch := rfl
@[simp] theorem Hw.modMgt_out (f : Mgt → Mgt) : (s.modMgt f).out = s.out := rfl
@[simp] theorem Hw.modMgt_dev (f : Mgt → Mgt) : (s.modMgt f).dev = s.dev := rfl
@[simp] theorem Hw.modMgt_mgt (f : Mgt → Mgt) : (s.modMgt f).mgt = f s.mgt := rfl
@[simp] theorem Hw.modMgt_get (f : Mgt → Mgt) (g : Fld) (j : Nat) : (s.modMgt f).get g j = s.get g j := rfl
@[simp] theorem Hw.modMgt_is (f : Mgt → Mgt) (g : Fld) (j : Nat) : (s.modMgt f).is g j = s.is g j := rfl
@[simp] theorem Hw.modMgt_pen (f : Mgt → Mgt) (q : Nat) : (s.modMgt f).pen q = s.pen q := rfl
@[simp] theorem Hw.modMgt_win (f : Mgt → Mgt) (u : Nat) : (s.modMgt f).win u = s.win u := rfl
@[simp] theorem Hw.modMgt_ten (f : Mgt → Mgt) (u : Nat) : (s.modMgt f).ten u = s.ten u := rfl
@[simp] theorem Hw.modMgt_stl (f : Mgt → Mgt) (m : Nat) : (s.modMgt f).stl m = s.stl m := rfl
@[simp] theorem Hw.modMgt_eng (f : Mgt → Mgt) (e : Nat) : (s.modMgt f).eng e = s.eng e := rfl
@[simp] theorem Hw.modMgt_link (f : Mgt → Mgt) (k : Nat) : (s.modMgt f).link k = s.link k := rfl
@[simp] theorem Hw.modMgt_desc (f : Mgt → Mgt) (q : Nat) : (s.modMgt f).desc q = s.desc q := rfl
@[simp] theorem Hw.modMgt_present (f : Mgt → Mgt) (q : Nat) : (s.modMgt f).present q = s.present q := rfl

/-! ## `Hw.emit` -/

@[simp] theorem Hw.emit_clk (o : Out) : (s.emit o).clk = s.clk := rfl
@[simp] theorem Hw.emit_free (o : Out) : (s.emit o).free = s.free := rfl
@[simp] theorem Hw.emit_regs (o : Out) : (s.emit o).regs = s.regs := rfl
@[simp] theorem Hw.emit_latch (o : Out) : (s.emit o).latch = s.latch := rfl
@[simp] theorem Hw.emit_out (o : Out) : (s.emit o).out = o :: s.out := rfl
@[simp] theorem Hw.emit_dev (o : Out) : (s.emit o).dev = s.dev := rfl
@[simp] theorem Hw.emit_mgt (o : Out) : (s.emit o).mgt = s.mgt := rfl
@[simp] theorem Hw.emit_get (o : Out) (g : Fld) (j : Nat) : (s.emit o).get g j = s.get g j := rfl
@[simp] theorem Hw.emit_is (o : Out) (g : Fld) (j : Nat) : (s.emit o).is g j = s.is g j := rfl
@[simp] theorem Hw.emit_pen (o : Out) (q : Nat) : (s.emit o).pen q = s.pen q := rfl
@[simp] theorem Hw.emit_win (o : Out) (u : Nat) : (s.emit o).win u = s.win u := rfl
@[simp] theorem Hw.emit_ten (o : Out) (u : Nat) : (s.emit o).ten u = s.ten u := rfl
@[simp] theorem Hw.emit_stl (o : Out) (m : Nat) : (s.emit o).stl m = s.stl m := rfl
@[simp] theorem Hw.emit_eng (o : Out) (e : Nat) : (s.emit o).eng e = s.eng e := rfl
@[simp] theorem Hw.emit_link (o : Out) (k : Nat) : (s.emit o).link k = s.link k := rfl
@[simp] theorem Hw.emit_desc (o : Out) (q : Nat) : (s.emit o).desc q = s.desc q := rfl
@[simp] theorem Hw.emit_present (o : Out) (q : Nat) : (s.emit o).present q = s.present q := rfl

/-! ## `Hw.reach` -/

@[simp] theorem Hw.reach_clk (t : Nat) : (s.reach t).clk = { s.clk with now := max s.clk.now t } := rfl
@[simp] theorem Hw.reach_free (t : Nat) : (s.reach t).free = s.free := rfl
@[simp] theorem Hw.reach_regs (t : Nat) : (s.reach t).regs = s.regs := rfl
@[simp] theorem Hw.reach_latch (t : Nat) : (s.reach t).latch = s.latch := rfl
@[simp] theorem Hw.reach_out (t : Nat) : (s.reach t).out = s.out := rfl
@[simp] theorem Hw.reach_dev (t : Nat) : (s.reach t).dev = s.dev := rfl
@[simp] theorem Hw.reach_mgt (t : Nat) : (s.reach t).mgt = s.mgt := rfl
@[simp] theorem Hw.reach_get (t : Nat) (g : Fld) (j : Nat) : (s.reach t).get g j = s.get g j := rfl
@[simp] theorem Hw.reach_is (t : Nat) (g : Fld) (j : Nat) : (s.reach t).is g j = s.is g j := rfl
@[simp] theorem Hw.reach_pen (t : Nat) (q : Nat) : (s.reach t).pen q = s.pen q := rfl
@[simp] theorem Hw.reach_win (t : Nat) (u : Nat) : (s.reach t).win u = s.win u := rfl
@[simp] theorem Hw.reach_ten (t : Nat) (u : Nat) : (s.reach t).ten u = s.ten u := rfl
@[simp] theorem Hw.reach_stl (t : Nat) (m : Nat) : (s.reach t).stl m = s.stl m := rfl
@[simp] theorem Hw.reach_eng (t : Nat) (e : Nat) : (s.reach t).eng e = s.eng e := rfl
@[simp] theorem Hw.reach_link (t : Nat) (k : Nat) : (s.reach t).link k = s.link k := rfl
@[simp] theorem Hw.reach_desc (t : Nat) (q : Nat) : (s.reach t).desc q = s.desc q := rfl
@[simp] theorem Hw.reach_present (t : Nat) (q : Nat) : (s.reach t).present q = s.present q := rfl

/-! ## Units read after they are changed -/

@[simp] theorem Hw.pen_modPen (p : Nat) (f : PenSt → PenSt) : (s.modPen p f).pen p = f (s.pen p) := Tbl.get_modify_same _ p f _
@[simp] theorem Hw.win_modWin (t : Nat) (f : Win → Win) : (s.modWin t f).win t = f (s.win t) := Tbl.get_modify_same _ t f _
@[simp] theorem Hw.ten_modTen (t : Nat) (f : TenSt → TenSt) : (s.modTen t f).ten t = f (s.ten t) := Tbl.get_modify_same _ t f _
@[simp] theorem Hw.eng_modEng (k : Nat) (f : EngSt → EngSt) : (s.modEng k f).eng k = f (s.eng k) := Tbl.get_modify_same _ k f _
@[simp] theorem Hw.stl_modStl (n : Nat) (f : Stl → Stl) : (s.modStl n f).stl n = f (s.stl n) := Tbl.get_modify_same _ n f _
@[simp] theorem Hw.link_modLink (l : Nat) (f : LinkSt → LinkSt) : (s.modLink l f).link l = f (s.link l) := Tbl.get_modify_same _ l f _

theorem Hw.pen_modPen_ne {p q : Nat} (f : PenSt → PenSt) (h : q ≠ p) : (s.modPen p f).pen q = s.pen q := Tbl.get_modify_ne _ f _ h
theorem Hw.win_modWin_ne {t u : Nat} (f : Win → Win) (h : u ≠ t) : (s.modWin t f).win u = s.win u := Tbl.get_modify_ne _ f _ h
theorem Hw.eng_modEng_ne {k j : Nat} (f : EngSt → EngSt) (h : j ≠ k) : (s.modEng k f).eng j = s.eng j := Tbl.get_modify_ne _ f _ h
theorem Hw.stl_modStl_ne {n m : Nat} (f : Stl → Stl) (h : m ≠ n) : (s.modStl n f).stl m = s.stl m := Tbl.get_modify_ne _ f _ h
theorem Hw.link_modLink_ne {l k : Nat} (f : LinkSt → LinkSt) (h : k ≠ l) : (s.modLink l f).link k = s.link k := Tbl.get_modify_ne _ f _ h

/-! ## Registers read after they are written -/

@[simp] theorem Hw.get_set_same (f : Fld) (i v : Nat) : (s.set f i v).get f i = v % 2 ^ f.width := Tbl.get_set_same _ _ _ _

/-- A register write leaves every other register as it was. -/
theorem Hw.get_set_ne {f g : Fld} {i j : Nat} (v : Nat) (h : g.key j ≠ f.key i) : (s.set f i v).get g j = s.get g j :=
  Tbl.get_set_ne _ _ _ _ h

theorem Fld.key_ne {f g : Fld} {i j : Nat} (h : g.id ≠ f.id) (hi : i < 65536) (hj : j < 65536) : g.key j ≠ f.key i := by
  simp only [Fld.key]
  omega

theorem Fld.key_ne_inst {f : Fld} {i j : Nat} (h : j ≠ i) : f.key j ≠ f.key i := by
  simp only [Fld.key]
  omega

theorem Hw.get_inc_same (f : Fld) (i n : Nat) : (s.inc f i n).get f i = min (s.get f i + n) f.max := by
  have h : min (s.get f i + n) f.max < 2 ^ f.width := by
    have := Nat.two_pow_pos f.width
    simp only [Fld.max]
    omega
  rw [Hw.inc, Hw.get_set_same, Nat.mod_eq_of_lt h]

theorem Hw.get_inc_ne {f g : Fld} {i j : Nat} (n : Nat) (h : g.key j ≠ f.key i) : (s.inc f i n).get g j = s.get g j :=
  Hw.get_set_ne s _ h

/-! ## Steps of a run -/

variable (r : Run)

@[simp] theorem Run.on_hw (f : Hw → Hw) : (r.on f).hw = f r.hw := rfl
@[simp] theorem Run.on_mem (f : Hw → Hw) : (r.on f).mem = r.mem := rfl
@[simp] theorem Run.on_posts (f : Hw → Hw) : (r.on f).posts = r.posts := rfl
@[simp] theorem Run.post_hw (p : Post) : (r.post p).hw = r.hw := rfl
@[simp] theorem Run.post_mem (p : Post) : (r.post p).mem = r.mem := rfl
@[simp] theorem Run.post_posts (p : Post) : (r.post p).posts = p :: r.posts := rfl
@[simp] theorem Run.byte_on (f : Hw → Hw) (a : Nat) : (r.on f).byte a = r.byte a := rfl
@[simp] theorem Run.mark_on (f : Hw → Hw) (l : Nat) : (r.on f).mark l = r.mark l := rfl

end Sys2Proof.Machine
end

