-- ==== Sys2Proof/Laws/Log.lean ====
section
/-! SUPPORT. What raising a vector and logging a record leave as it was. -/

namespace Sys2Proof.Machine

/-- Nothing but MSI-X entries, the log, the log's registers and the outbox differs. -/
structure Hw.LogKeeps (s t : Hw) : Prop where
  clk : t.clk = s.clk
  free : t.free = s.free
  latch : t.latch = s.latch
  dev : { t.dev with msix := s.dev.msix } = s.dev
  mgt : { t.mgt with log := s.mgt.log } = s.mgt
  regs : Hw.RegsBut logKeys s t

theorem Hw.RegsBut.refl (ks : List Nat) (s : Hw) : Hw.RegsBut ks s s := fun _ _ _ => rfl

theorem Hw.RegsBut.trans {ks : List Nat} {s t u : Hw} (h : Hw.RegsBut ks s t) (k : Hw.RegsBut ks t u) : Hw.RegsBut ks s u :=
  fun d x hx => (k d x hx).trans (h d x hx)

theorem Hw.RegsBut.mono {ks ls : List Nat} {s t : Hw} (h : Hw.RegsBut ks s t) (hk : ∀ x ∈ ks, x ∈ ls) : Hw.RegsBut ls s t :=
  fun d x hx => h d x fun hm => hx (hk x hm)

theorem Hw.RegsBut.get {ks : List Nat} {s t : Hw} (h : Hw.RegsBut ks s t) {f : Fld} {i : Nat} (hk : f.key i ∉ ks) : t.get f i = s.get f i :=
  h _ _ hk

theorem Hw.regsBut_set {ks : List Nat} (s : Hw) (f : Fld) (i v : Nat) (hk : f.key i ∈ ks) : Hw.RegsBut ks s (s.set f i v) :=
  fun _ _ hx => Tbl.get_set_ne _ _ _ _ fun he => hx (he ▸ hk)

theorem Hw.regsBut_inc {ks : List Nat} (s : Hw) (f : Fld) (i n : Nat) (hk : f.key i ∈ ks) : Hw.RegsBut ks s (s.inc f i n) :=
  Hw.regsBut_set s f i _ hk

theorem Hw.LogKeeps.refl (s : Hw) : Hw.LogKeeps s s := ⟨rfl, rfl, rfl, rfl, rfl, Hw.RegsBut.refl _ s⟩

theorem Hw.LogKeeps.trans {s t u : Hw} (h : Hw.LogKeeps s t) (k : Hw.LogKeeps t u) : Hw.LogKeeps s u where
  clk := k.clk.trans h.clk
  free := k.free.trans h.free
  latch := k.latch.trans h.latch
  dev := (congrArg (fun d : Dev => { d with msix := s.dev.msix }) k.dev).trans h.dev
  mgt := (congrArg (fun m : Mgt => { m with log := s.mgt.log }) k.mgt).trans h.mgt
  regs := h.regs.trans k.regs

theorem Hw.LogKeeps.dev_field {s t : Hw} (h : Hw.LogKeeps s t) {α : Type} (f : Dev → α)
    (hf : f t.dev = f { t.dev with msix := s.dev.msix }) : f t.dev = f s.dev := hf.trans (congrArg f h.dev)

theorem Hw.LogKeeps.mgt_field {s t : Hw} (h : Hw.LogKeeps s t) {α : Type} (f : Mgt → α)
    (hf : f t.mgt = f { t.mgt with log := s.mgt.log }) : f t.mgt = f s.mgt := hf.trans (congrArg f h.mgt)

theorem Hw.msi_keeps (s : Hw) (f v : Nat) : Hw.LogKeeps s (s.msi f v) := by
  unfold Hw.msi
  split
  · exact .refl s
  · dsimp only
    split
    · exact ⟨rfl, rfl, rfl, rfl, rfl, Hw.RegsBut.refl _ s⟩
    · exact ⟨rfl, rfl, rfl, rfl, rfl, Hw.RegsBut.refl _ s⟩

@[simp] theorem Hw.msi_regs (s : Hw) (f v : Nat) : (s.msi f v).regs = s.regs := by
  unfold Hw.msi
  split
  · rfl
  · dsimp only
    split <;> rfl

theorem Hw.set_logKeeps (s : Hw) (f : Fld) (i v : Nat) (h : f.key i ∈ logKeys) : Hw.LogKeeps s (s.set f i v) :=
  ⟨rfl, rfl, rfl, rfl, rfl, Hw.regsBut_set s f i v h⟩

theorem Hw.setLog_keeps (s : Hw) (l : Log) : Hw.LogKeeps s { s with mgt.log := l } := ⟨rfl, rfl, rfl, rfl, rfl, Hw.RegsBut.refl _ s⟩

theorem Hw.LogKeeps.set {s t : Hw} (h : Hw.LogKeeps s t) (f : Fld) (i v : Nat) (hk : f.key i ∈ logKeys) : Hw.LogKeeps s (t.set f i v) :=
  h.trans (Hw.set_logKeeps t f i v hk)

theorem Hw.LogKeeps.ite {s t u : Hw} (c : Prop) [Decidable c] (h : Hw.LogKeeps s t) (k : Hw.LogKeeps s u) : Hw.LogKeeps s (if c then t else u) := by
  split
  · exact h
  · exact k

theorem Hw.appendRec_keeps (s : Hw) (die : Nat) (r : Rec) : Hw.LogKeeps s (s.appendRec die r) := by
  unfold Hw.appendRec
  dsimp only [Hw.inc]
  have base : ∀ l u v, Hw.LogKeeps s ((({ s with mgt.log := l } : Hw).set R.ERR_LOG_SEQ_NEWEST 0 u).set R.ERR_LOG_MIN_OLDEST 0 v) := fun l u v =>
    ((Hw.setLog_keeps s l).set R.ERR_LOG_SEQ_NEWEST 0 u (by decide)).set R.ERR_LOG_MIN_OLDEST 0 v (by decide)
  have counted : ∀ (c d : Prop) [Decidable c] [Decidable d] {t : Hw} (x y : Nat), Hw.LogKeeps s t →
      Hw.LogKeeps s (if c then t.set R.ERR_COUNTS_NONFATAL 0 x else if d then t.set R.ERR_COUNTS_PENFATAL 0 y else t) := fun c d _ _ t x y h =>
    .ite c (h.set _ _ _ (by decide)) (.ite d (h.set _ _ _ (by decide)) h)
  exact .ite _ ((counted _ _ _ _ (base _ _ _)).trans (Hw.msi_keeps _ 0 0)) (counted _ _ _ _ (base _ _ _))

theorem Hw.take_keeps (s : Hw) (r : Rec) : Hw.LogKeeps s (s.take r) := by
  unfold Hw.take
  dsimp only
  split
  · split
    · exact Hw.setLog_keeps s _
    · exact Hw.appendRec_keeps s _ _
  · exact Hw.appendRec_keeps s _ _

/-- Logging a record changes MSI-X entries, the log, the log's registers and the outbox at most. -/
theorem Hw.log_keeps (s : Hw) (e : Err) (a : LogArg) : Hw.LogKeeps s (s.log e a) := by
  unfold Hw.log
  dsimp only
  split
  · exact .trans (Hw.setLog_keeps s _) (Hw.set_logKeeps _ _ _ _ (by decide))
  · split
    · exact .trans (Hw.setLog_keeps s _) (Hw.take_keeps _ _)
    · exact .trans (Hw.setLog_keeps s _) (Hw.setLog_keeps _ _)

/-! ## `Hw.msi` -/

@[simp] theorem Hw.msi_clk (s : Hw) (f v : Nat) : (s.msi f v).clk = s.clk := (s.msi_keeps f v).clk
@[simp] theorem Hw.msi_free (s : Hw) (f v : Nat) : (s.msi f v).free = s.free := (s.msi_keeps f v).free
@[simp] theorem Hw.msi_latch (s : Hw) (f v : Nat) : (s.msi f v).latch = s.latch := (s.msi_keeps f v).latch
@[simp] theorem Hw.msi_dev_truss (s : Hw) (f v : Nat) : (s.msi f v).dev.truss = s.dev.truss := (s.msi_keeps f v).dev_field Dev.truss rfl
@[simp] theorem Hw.msi_dev_load (s : Hw) (f v : Nat) : (s.msi f v).dev.load = s.dev.load := (s.msi_keeps f v).dev_field Dev.load rfl
@[simp] theorem Hw.msi_dev_pens (s : Hw) (f v : Nat) : (s.msi f v).dev.pens = s.dev.pens := (s.msi_keeps f v).dev_field Dev.pens rfl
@[simp] theorem Hw.msi_dev_wins (s : Hw) (f v : Nat) : (s.msi f v).dev.wins = s.dev.wins := (s.msi_keeps f v).dev_field Dev.wins rfl
@[simp] theorem Hw.msi_dev_tens (s : Hw) (f v : Nat) : (s.msi f v).dev.tens = s.dev.tens := (s.msi_keeps f v).dev_field Dev.tens rfl
@[simp] theorem Hw.msi_dev_sweep0 (s : Hw) (f v : Nat) : (s.msi f v).dev.sweep0 = s.dev.sweep0 := (s.msi_keeps f v).dev_field Dev.sweep0 rfl
@[simp] theorem Hw.msi_dev_quiet (s : Hw) (f v : Nat) : (s.msi f v).dev.quiet = s.dev.quiet := (s.msi_keeps f v).dev_field Dev.quiet rfl
@[simp] theorem Hw.msi_dev_keys (s : Hw) (f v : Nat) : (s.msi f v).dev.keys = s.dev.keys := (s.msi_keeps f v).dev_field Dev.keys rfl
@[simp] theorem Hw.msi_dev_engs (s : Hw) (f v : Nat) : (s.msi f v).dev.engs = s.dev.engs := (s.msi_keeps f v).dev_field Dev.engs rfl
@[simp] theorem Hw.msi_dev_stls (s : Hw) (f v : Nat) : (s.msi f v).dev.stls = s.dev.stls := (s.msi_keeps f v).dev_field Dev.stls rfl
@[simp] theorem Hw.msi_dev_unav (s : Hw) (f v : Nat) : (s.msi f v).dev.unav = s.dev.unav := (s.msi_keeps f v).dev_field Dev.unav rfl
@[simp] theorem Hw.msi_dev_soft (s : Hw) (f v : Nat) : (s.msi f v).dev.soft = s.dev.soft := (s.msi_keeps f v).dev_field Dev.soft rfl
@[simp] theorem Hw.msi_dev_cache (s : Hw) (f v : Nat) : (s.msi f v).dev.cache = s.dev.cache := (s.msi_keeps f v).dev_field Dev.cache rfl
@[simp] theorem Hw.msi_dev_msixEn (s : Hw) (f v : Nat) : (s.msi f v).dev.msixEn = s.dev.msixEn := (s.msi_keeps f v).dev_field Dev.msixEn rfl
@[simp] theorem Hw.msi_dev_fnOff (s : Hw) (f v : Nat) : (s.msi f v).dev.fnOff = s.dev.fnOff := (s.msi_keeps f v).dev_field Dev.fnOff rfl
@[simp] theorem Hw.msi_dev_vfs (s : Hw) (f v : Nat) : (s.msi f v).dev.vfs = s.dev.vfs := (s.msi_keeps f v).dev_field Dev.vfs rfl
@[simp] theorem Hw.msi_dev_dmaWin (s : Hw) (f v : Nat) : (s.msi f v).dev.dmaWin = s.dev.dmaWin := (s.msi_keeps f v).dev_field Dev.dmaWin rfl
@[simp] theorem Hw.msi_dev_winDly (s : Hw) (f v : Nat) : (s.msi f v).dev.winDly = s.dev.winDly := (s.msi_keeps f v).dev_field Dev.winDly rfl
@[simp] theorem Hw.msi_dev_trace (s : Hw) (f v : Nat) : (s.msi f v).dev.trace = s.dev.trace := (s.msi_keeps f v).dev_field Dev.trace rfl
@[simp] theorem Hw.msi_dev_traceX (s : Hw) (f v : Nat) : (s.msi f v).dev.traceX = s.dev.traceX := (s.msi_keeps f v).dev_field Dev.traceX rfl
@[simp] theorem Hw.msi_dev_txq (s : Hw) (f v : Nat) : (s.msi f v).dev.txq = s.dev.txq := (s.msi_keeps f v).dev_field Dev.txq rfl
@[simp] theorem Hw.msi_dev_links (s : Hw) (f v : Nat) : (s.msi f v).dev.links = s.dev.links := (s.msi_keeps f v).dev_field Dev.links rfl
@[simp] theorem Hw.msi_dev_flows (s : Hw) (f v : Nat) : (s.msi f v).dev.flows = s.dev.flows := (s.msi_keeps f v).dev_field Dev.flows rfl
@[simp] theorem Hw.msi_dev_rxf (s : Hw) (f v : Nat) : (s.msi f v).dev.rxf = s.dev.rxf := (s.msi_keeps f v).dev_field Dev.rxf rfl
@[simp] theorem Hw.msi_dev_rxm (s : Hw) (f v : Nat) : (s.msi f v).dev.rxm = s.dev.rxm := (s.msi_keeps f v).dev_field Dev.rxm rfl
@[simp] theorem Hw.msi_dev_rates (s : Hw) (f v : Nat) : (s.msi f v).dev.rates = s.dev.rates := (s.msi_keeps f v).dev_field Dev.rates rfl
@[simp] theorem Hw.msi_dev_shadow (s : Hw) (f v : Nat) : (s.msi f v).dev.shadow = s.dev.shadow := (s.msi_keeps f v).dev_field Dev.shadow rfl
@[simp] theorem Hw.msi_dev_pegs (s : Hw) (f v : Nat) : (s.msi f v).dev.pegs = s.dev.pegs := (s.msi_keeps f v).dev_field Dev.pegs rfl
@[simp] theorem Hw.msi_dev_energy (s : Hw) (f v : Nat) : (s.msi f v).dev.energy = s.dev.energy := (s.msi_keeps f v).dev_field Dev.energy rfl
@[simp] theorem Hw.msi_dev_body (s : Hw) (f v : Nat) : (s.msi f v).dev.body = s.dev.body := (s.msi_keeps f v).dev_field Dev.body rfl
@[simp] theorem Hw.msi_dev_ide (s : Hw) (f v : Nat) : (s.msi f v).dev.ide = s.dev.ide := (s.msi_keeps f v).dev_field Dev.ide rfl
@[simp] theorem Hw.msi_dev_ports (s : Hw) (f v : Nat) : (s.msi f v).dev.ports = s.dev.ports := (s.msi_keeps f v).dev_field Dev.ports rfl
@[simp] theorem Hw.msi_mgt_phase (s : Hw) (f v : Nat) : (s.msi f v).mgt.phase = s.mgt.phase := (s.msi_keeps f v).mgt_field Mgt.phase rfl
@[simp] theorem Hw.msi_mgt_sdgUp (s : Hw) (f v : Nat) : (s.msi f v).mgt.sdgUp = s.mgt.sdgUp := (s.msi_keeps f v).mgt_field Mgt.sdgUp rfl
@[simp] theorem Hw.msi_mgt_dumps (s : Hw) (f v : Nat) : (s.msi f v).mgt.dumps = s.mgt.dumps := (s.msi_keeps f v).mgt_field Mgt.dumps rfl
@[simp] theorem Hw.msi_mgt_shorts (s : Hw) (f v : Nat) : (s.msi f v).mgt.shorts = s.mgt.shorts := (s.msi_keeps f v).mgt_field Mgt.shorts rfl
@[simp] theorem Hw.msi_mgt_keys (s : Hw) (f v : Nat) : (s.msi f v).mgt.keys = s.mgt.keys := (s.msi_keeps f v).mgt_field Mgt.keys rfl
@[simp] theorem Hw.msi_mgt_pwr (s : Hw) (f v : Nat) : (s.msi f v).mgt.pwr = s.mgt.pwr := (s.msi_keeps f v).mgt_field Mgt.pwr rfl
@[simp] theorem Hw.msi_mgt_rst (s : Hw) (f v : Nat) : (s.msi f v).mgt.rst = s.mgt.rst := (s.msi_keeps f v).mgt_field Mgt.rst rfl
@[simp] theorem Hw.msi_mgt_banks (s : Hw) (f v : Nat) : (s.msi f v).mgt.banks = s.mgt.banks := (s.msi_keeps f v).mgt_field Mgt.banks rfl
@[simp] theorem Hw.msi_mgt_passed (s : Hw) (f v : Nat) : (s.msi f v).mgt.passed = s.mgt.passed := (s.msi_keeps f v).mgt_field Mgt.passed rfl
@[simp] theorem Hw.msi_mgt_active (s : Hw) (f v : Nat) : (s.msi f v).mgt.active = s.mgt.active := (s.msi_keeps f v).mgt_field Mgt.active rfl
@[simp] theorem Hw.msi_mgt_update (s : Hw) (f v : Nat) : (s.msi f v).mgt.update = s.mgt.update := (s.msi_keeps f v).mgt_field Mgt.update rfl
@[simp] theorem Hw.msi_mgt_trial (s : Hw) (f v : Nat) : (s.msi f v).mgt.trial = s.mgt.trial := (s.msi_keeps f v).mgt_field Mgt.trial rfl
@[simp] theorem Hw.msi_mgt_spoilt (s : Hw) (f v : Nat) : (s.msi f v).mgt.spoilt = s.mgt.spoilt := (s.msi_keeps f v).mgt_field Mgt.spoilt rfl
@[simp] theorem Hw.msi_mgt_bootAt (s : Hw) (f v : Nat) : (s.msi f v).mgt.bootAt = s.mgt.bootAt := (s.msi_keeps f v).mgt_field Mgt.bootAt rfl
@[simp] theorem Hw.msi_mgt_stamp (s : Hw) (f v : Nat) : (s.msi f v).mgt.stamp = s.mgt.stamp := (s.msi_keeps f v).mgt_field Mgt.stamp rfl
@[simp] theorem Hw.msi_mgt_events (s : Hw) (f v : Nat) : (s.msi f v).mgt.events = s.mgt.events := (s.msi_keeps f v).mgt_field Mgt.events rfl
@[simp] theorem Hw.msi_mgt_arcTo (s : Hw) (f v : Nat) : (s.msi f v).mgt.arcTo = s.mgt.arcTo := (s.msi_keeps f v).mgt_field Mgt.arcTo rfl
@[simp] theorem Hw.msi_mgt_keyRec (s : Hw) (f v : Nat) : (s.msi f v).mgt.keyRec = s.mgt.keyRec := (s.msi_keeps f v).mgt_field Mgt.keyRec rfl
@[simp] theorem Hw.msi_mgt_copy (s : Hw) (f v : Nat) : (s.msi f v).mgt.copy = s.mgt.copy := (s.msi_keeps f v).mgt_field Mgt.copy rfl
@[simp] theorem Hw.msi_mgt_token (s : Hw) (f v : Nat) : (s.msi f v).mgt.token = s.mgt.token := (s.msi_keeps f v).mgt_field Mgt.token rfl
@[simp] theorem Hw.msi_mgt_spdm (s : Hw) (f v : Nat) : (s.msi f v).mgt.spdm = s.mgt.spdm := (s.msi_keeps f v).mgt_field Mgt.spdm rfl
@[simp] theorem Hw.msi_pen (s : Hw) (f v : Nat) (q : Nat) : (s.msi f v).pen q = s.pen q := by simp [Hw.pen]
@[simp] theorem Hw.msi_win (s : Hw) (f v : Nat) (u : Nat) : (s.msi f v).win u = s.win u := by simp [Hw.win]
@[simp] theorem Hw.msi_ten (s : Hw) (f v : Nat) (u : Nat) : (s.msi f v).ten u = s.ten u := by simp [Hw.ten]
@[simp] theorem Hw.msi_stl (s : Hw) (f v : Nat) (m : Nat) : (s.msi f v).stl m = s.stl m := by simp [Hw.stl]
@[simp] theorem Hw.msi_eng (s : Hw) (f v : Nat) (e : Nat) : (s.msi f v).eng e = s.eng e := by simp [Hw.eng]
@[simp] theorem Hw.msi_link (s : Hw) (f v : Nat) (k : Nat) : (s.msi f v).link k = s.link k := by simp [Hw.link]
@[simp] theorem Hw.msi_desc (s : Hw) (f v : Nat) (q : Nat) : (s.msi f v).desc q = s.desc q := by simp [Hw.desc]
@[simp] theorem Hw.msi_present (s : Hw) (f v : Nat) (q : Nat) : (s.msi f v).present q = s.present q := by simp [Hw.present, Hw.desc]
@[simp] theorem Hw.msi_penOf (s : Hw) (f v : Nat) (n : Nat) : (s.msi f v).penOf n = s.penOf n := by simp [Hw.penOf]

/-! ## `Hw.log` -/

@[simp] theorem Hw.log_clk (s : Hw) (e : Err) (a : LogArg) : (s.log e a).clk = s.clk := (s.log_keeps e a).clk
@[simp] theorem Hw.log_free (s : Hw) (e : Err) (a : LogArg) : (s.log e a).free = s.free := (s.log_keeps e a).free
@[simp] theorem Hw.log_latch (s : Hw) (e : Err) (a : LogArg) : (s.log e a).latch = s.latch := (s.log_keeps e a).latch
@[simp] theorem Hw.log_dev_truss (s : Hw) (e : Err) (a : LogArg) : (s.log e a).dev.truss = s.dev.truss := (s.log_keeps e a).dev_field Dev.truss rfl
@[simp] theorem Hw.log_dev_load (s : Hw) (e : Err) (a : LogArg) : (s.log e a).dev.load = s.dev.load := (s.log_keeps e a).dev_field Dev.load rfl
@[simp] theorem Hw.log_dev_pens (s : Hw) (e : Err) (a : LogArg) : (s.log e a).dev.pens = s.dev.pens := (s.log_keeps e a).dev_field Dev.pens rfl
@[simp] theorem Hw.log_dev_wins (s : Hw) (e : Err) (a : LogArg) : (s.log e a).dev.wins = s.dev.wins := (s.log_keeps e a).dev_field Dev.wins rfl
@[simp] theorem Hw.log_dev_tens (s : Hw) (e : Err) (a : LogArg) : (s.log e a).dev.tens = s.dev.tens := (s.log_keeps e a).dev_field Dev.tens rfl
@[simp] theorem Hw.log_dev_sweep0 (s : Hw) (e : Err) (a : LogArg) : (s.log e a).dev.sweep0 = s.dev.sweep0 := (s.log_keeps e a).dev_field Dev.sweep0 rfl
@[simp] theorem Hw.log_dev_quiet (s : Hw) (e : Err) (a : LogArg) : (s.log e a).dev.quiet = s.dev.quiet := (s.log_keeps e a).dev_field Dev.quiet rfl
@[simp] theorem Hw.log_dev_keys (s : Hw) (e : Err) (a : LogArg) : (s.log e a).dev.keys = s.dev.keys := (s.log_keeps e a).dev_field Dev.keys rfl
@[simp] theorem Hw.log_dev_engs (s : Hw) (e : Err) (a : LogArg) : (s.log e a).dev.engs = s.dev.engs := (s.log_keeps e a).dev_field Dev.engs rfl
@[simp] theorem Hw.log_dev_stls (s : Hw) (e : Err) (a : LogArg) : (s.log e a).dev.stls = s.dev.stls := (s.log_keeps e a).dev_field Dev.stls rfl
@[simp] theorem Hw.log_dev_unav (s : Hw) (e : Err) (a : LogArg) : (s.log e a).dev.unav = s.dev.unav := (s.log_keeps e a).dev_field Dev.unav rfl
@[simp] theorem Hw.log_dev_soft (s : Hw) (e : Err) (a : LogArg) : (s.log e a).dev.soft = s.dev.soft := (s.log_keeps e a).dev_field Dev.soft rfl
@[simp] theorem Hw.log_dev_cache (s : Hw) (e : Err) (a : LogArg) : (s.log e a).dev.cache = s.dev.cache := (s.log_keeps e a).dev_field Dev.cache rfl
@[simp] theorem Hw.log_dev_msixEn (s : Hw) (e : Err) (a : LogArg) : (s.log e a).dev.msixEn = s.dev.msixEn := (s.log_keeps e a).dev_field Dev.msixEn rfl
@[simp] theorem Hw.log_dev_fnOff (s : Hw) (e : Err) (a : LogArg) : (s.log e a).dev.fnOff = s.dev.fnOff := (s.log_keeps e a).dev_field Dev.fnOff rfl
@[simp] theorem Hw.log_dev_vfs (s : Hw) (e : Err) (a : LogArg) : (s.log e a).dev.vfs = s.dev.vfs := (s.log_keeps e a).dev_field Dev.vfs rfl
@[simp] theorem Hw.log_dev_dmaWin (s : Hw) (e : Err) (a : LogArg) : (s.log e a).dev.dmaWin = s.dev.dmaWin := (s.log_keeps e a).dev_field Dev.dmaWin rfl
@[simp] theorem Hw.log_dev_winDly (s : Hw) (e : Err) (a : LogArg) : (s.log e a).dev.winDly = s.dev.winDly := (s.log_keeps e a).dev_field Dev.winDly rfl
@[simp] theorem Hw.log_dev_trace (s : Hw) (e : Err) (a : LogArg) : (s.log e a).dev.trace = s.dev.trace := (s.log_keeps e a).dev_field Dev.trace rfl
@[simp] theorem Hw.log_dev_traceX (s : Hw) (e : Err) (a : LogArg) : (s.log e a).dev.traceX = s.dev.traceX := (s.log_keeps e a).dev_field Dev.traceX rfl
@[simp] theorem Hw.log_dev_txq (s : Hw) (e : Err) (a : LogArg) : (s.log e a).dev.txq = s.dev.txq := (s.log_keeps e a).dev_field Dev.txq rfl
@[simp] theorem Hw.log_dev_links (s : Hw) (e : Err) (a : LogArg) : (s.log e a).dev.links = s.dev.links := (s.log_keeps e a).dev_field Dev.links rfl
@[simp] theorem Hw.log_dev_flows (s : Hw) (e : Err) (a : LogArg) : (s.log e a).dev.flows = s.dev.flows := (s.log_keeps e a).dev_field Dev.flows rfl
@[simp] theorem Hw.log_dev_rxf (s : Hw) (e : Err) (a : LogArg) : (s.log e a).dev.rxf = s.dev.rxf := (s.log_keeps e a).dev_field Dev.rxf rfl
@[simp] theorem Hw.log_dev_rxm (s : Hw) (e : Err) (a : LogArg) : (s.log e a).dev.rxm = s.dev.rxm := (s.log_keeps e a).dev_field Dev.rxm rfl
@[simp] theorem Hw.log_dev_rates (s : Hw) (e : Err) (a : LogArg) : (s.log e a).dev.rates = s.dev.rates := (s.log_keeps e a).dev_field Dev.rates rfl
@[simp] theorem Hw.log_dev_shadow (s : Hw) (e : Err) (a : LogArg) : (s.log e a).dev.shadow = s.dev.shadow := (s.log_keeps e a).dev_field Dev.shadow rfl
@[simp] theorem Hw.log_dev_pegs (s : Hw) (e : Err) (a : LogArg) : (s.log e a).dev.pegs = s.dev.pegs := (s.log_keeps e a).dev_field Dev.pegs rfl
@[simp] theorem Hw.log_dev_energy (s : Hw) (e : Err) (a : LogArg) : (s.log e a).dev.energy = s.dev.energy := (s.log_keeps e a).dev_field Dev.energy rfl
@[simp] theorem Hw.log_dev_body (s : Hw) (e : Err) (a : LogArg) : (s.log e a).dev.body = s.dev.body := (s.log_keeps e a).dev_field Dev.body rfl
@[simp] theorem Hw.log_dev_ide (s : Hw) (e : Err) (a : LogArg) : (s.log e a).dev.ide = s.dev.ide := (s.log_keeps e a).dev_field Dev.ide rfl
@[simp] theorem Hw.log_dev_ports (s : Hw) (e : Err) (a : LogArg) : (s.log e a).dev.ports = s.dev.ports := (s.log_keeps e a).dev_field Dev.ports rfl
@[simp] theorem Hw.log_mgt_phase (s : Hw) (e : Err) (a : LogArg) : (s.log e a).mgt.phase = s.mgt.phase := (s.log_keeps e a).mgt_field Mgt.phase rfl
@[simp] theorem Hw.log_mgt_sdgUp (s : Hw) (e : Err) (a : LogArg) : (s.log e a).mgt.sdgUp = s.mgt.sdgUp := (s.log_keeps e a).mgt_field Mgt.sdgUp rfl
@[simp] theorem Hw.log_mgt_dumps (s : Hw) (e : Err) (a : LogArg) : (s.log e a).mgt.dumps = s.mgt.dumps := (s.log_keeps e a).mgt_field Mgt.dumps rfl
@[simp] theorem Hw.log_mgt_shorts (s : Hw) (e : Err) (a : LogArg) : (s.log e a).mgt.shorts = s.mgt.shorts := (s.log_keeps e a).mgt_field Mgt.shorts rfl
@[simp] theorem Hw.log_mgt_keys (s : Hw) (e : Err) (a : LogArg) : (s.log e a).mgt.keys = s.mgt.keys := (s.log_keeps e a).mgt_field Mgt.keys rfl
@[simp] theorem Hw.log_mgt_pwr (s : Hw) (e : Err) (a : LogArg) : (s.log e a).mgt.pwr = s.mgt.pwr := (s.log_keeps e a).mgt_field Mgt.pwr rfl
@[simp] theorem Hw.log_mgt_rst (s : Hw) (e : Err) (a : LogArg) : (s.log e a).mgt.rst = s.mgt.rst := (s.log_keeps e a).mgt_field Mgt.rst rfl
@[simp] theorem Hw.log_mgt_banks (s : Hw) (e : Err) (a : LogArg) : (s.log e a).mgt.banks = s.mgt.banks := (s.log_keeps e a).mgt_field Mgt.banks rfl
@[simp] theorem Hw.log_mgt_passed (s : Hw) (e : Err) (a : LogArg) : (s.log e a).mgt.passed = s.mgt.passed := (s.log_keeps e a).mgt_field Mgt.passed rfl
@[simp] theorem Hw.log_mgt_active (s : Hw) (e : Err) (a : LogArg) : (s.log e a).mgt.active = s.mgt.active := (s.log_keeps e a).mgt_field Mgt.active rfl
@[simp] theorem Hw.log_mgt_update (s : Hw) (e : Err) (a : LogArg) : (s.log e a).mgt.update = s.mgt.update := (s.log_keeps e a).mgt_field Mgt.update rfl
@[simp] theorem Hw.log_mgt_trial (s : Hw) (e : Err) (a : LogArg) : (s.log e a).mgt.trial = s.mgt.trial := (s.log_keeps e a).mgt_field Mgt.trial rfl
@[simp] theorem Hw.log_mgt_spoilt (s : Hw) (e : Err) (a : LogArg) : (s.log e a).mgt.spoilt = s.mgt.spoilt := (s.log_keeps e a).mgt_field Mgt.spoilt rfl
@[simp] theorem Hw.log_mgt_bootAt (s : Hw) (e : Err) (a : LogArg) : (s.log e a).mgt.bootAt = s.mgt.bootAt := (s.log_keeps e a).mgt_field Mgt.bootAt rfl
@[simp] theorem Hw.log_mgt_stamp (s : Hw) (e : Err) (a : LogArg) : (s.log e a).mgt.stamp = s.mgt.stamp := (s.log_keeps e a).mgt_field Mgt.stamp rfl
@[simp] theorem Hw.log_mgt_events (s : Hw) (e : Err) (a : LogArg) : (s.log e a).mgt.events = s.mgt.events := (s.log_keeps e a).mgt_field Mgt.events rfl
@[simp] theorem Hw.log_mgt_arcTo (s : Hw) (e : Err) (a : LogArg) : (s.log e a).mgt.arcTo = s.mgt.arcTo := (s.log_keeps e a).mgt_field Mgt.arcTo rfl
@[simp] theorem Hw.log_mgt_keyRec (s : Hw) (e : Err) (a : LogArg) : (s.log e a).mgt.keyRec = s.mgt.keyRec := (s.log_keeps e a).mgt_field Mgt.keyRec rfl
@[simp] theorem Hw.log_mgt_copy (s : Hw) (e : Err) (a : LogArg) : (s.log e a).mgt.copy = s.mgt.copy := (s.log_keeps e a).mgt_field Mgt.copy rfl
@[simp] theorem Hw.log_mgt_token (s : Hw) (e : Err) (a : LogArg) : (s.log e a).mgt.token = s.mgt.token := (s.log_keeps e a).mgt_field Mgt.token rfl
@[simp] theorem Hw.log_mgt_spdm (s : Hw) (e : Err) (a : LogArg) : (s.log e a).mgt.spdm = s.mgt.spdm := (s.log_keeps e a).mgt_field Mgt.spdm rfl
@[simp] theorem Hw.log_pen (s : Hw) (e : Err) (a : LogArg) (q : Nat) : (s.log e a).pen q = s.pen q := by simp [Hw.pen]
@[simp] theorem Hw.log_win (s : Hw) (e : Err) (a : LogArg) (u : Nat) : (s.log e a).win u = s.win u := by simp [Hw.win]
@[simp] theorem Hw.log_ten (s : Hw) (e : Err) (a : LogArg) (u : Nat) : (s.log e a).ten u = s.ten u := by simp [Hw.ten]
@[simp] theorem Hw.log_stl (s : Hw) (e : Err) (a : LogArg) (m : Nat) : (s.log e a).stl m = s.stl m := by simp [Hw.stl]
@[simp] theorem Hw.log_eng (s : Hw) (x : Err) (a : LogArg) (e : Nat) : (s.log x a).eng e = s.eng e := by simp [Hw.eng]
@[simp] theorem Hw.log_link (s : Hw) (e : Err) (a : LogArg) (k : Nat) : (s.log e a).link k = s.link k := by simp [Hw.link]
@[simp] theorem Hw.log_desc (s : Hw) (e : Err) (a : LogArg) (q : Nat) : (s.log e a).desc q = s.desc q := by simp [Hw.desc]
@[simp] theorem Hw.log_present (s : Hw) (e : Err) (a : LogArg) (q : Nat) : (s.log e a).present q = s.present q := by simp [Hw.present, Hw.desc]
@[simp] theorem Hw.log_penOf (s : Hw) (e : Err) (a : LogArg) (n : Nat) : (s.log e a).penOf n = s.penOf n := by simp [Hw.penOf]

theorem Hw.log_get (s : Hw) (e : Err) (a : LogArg) {f : Fld} {i : Nat} (h : f.key i ∉ logKeys) : (s.log e a).get f i = s.get f i :=
  (s.log_keeps e a).regs.get h

@[simp] theorem Hw.msi_get (s : Hw) (f v : Nat) (g : Fld) (j : Nat) : (s.msi f v).get g j = s.get g j := by simp [Hw.get]

@[simp] theorem Hw.msi_is (s : Hw) (f v : Nat) (g : Fld) (j : Nat) : (s.msi f v).is g j = s.is g j := by simp [Hw.is]

end Sys2Proof.Machine
end

