-- ==== Sys2Proof/Laws/Link.lean ====
section
/-! SUPPORT. What the shared operations of links do: a link enters a state, goes down, or the waiting packets are sent. -/

namespace Sys2Proof.Machine

theorem Hw.get_set_fld (s : Hw) {f g : Fld} {i j : Nat} (v : Nat) (h : g.id ≠ f.id) (hi : i < 65536) (hj : j < 65536) :
    (s.set f i v).get g j = s.get g j := Hw.get_set_ne s v (Fld.key_ne h hi hj)

theorem Hw.get_inc_fld (s : Hw) {f g : Fld} {i j : Nat} (n : Nat) (h : g.id ≠ f.id) (hi : i < 65536) (hj : j < 65536) :
    (s.inc f i n).get g j = s.get g j := Hw.get_inc_ne s n (Fld.key_ne h hi hj)

theorem Fld.key_notin_log {f : Fld} {i : Nat} (h : f.id ∉ logKeys.map (· / 65536)) (hi : i < 65536) : f.key i ∉ logKeys := by
  intro hm
  apply h
  have hk : f.key i / 65536 = f.id := by
    simp only [Fld.key]
    omega
  exact hk ▸ List.mem_map_of_mem hm

theorem Hw.log_get_fld (s : Hw) (e : Err) (a : LogArg) {f : Fld} {i : Nat} (h : f.id ∉ logKeys.map (· / 65536)) (hi : i < 65536) :
    (s.log e a).get f i = s.get f i := Hw.log_get s e a (Fld.key_notin_log h hi)

/-! ## A link enters a state -/

@[simp] theorem Hw.showPorts_get_state (s : Hw) (l : Nat) (hl : l < 65536) : s.showPorts.get R.LNK_STATUS_STATE l = s.get R.LNK_STATUS_STATE l :=
  Hw.get_set_fld s _ (by decide) (by decide) hl

@[simp] theorem Hw.linkTo_clk (s : Hw) (l st : Nat) : (s.linkTo l st).clk = s.clk := by
  unfold Hw.linkTo
  dsimp only
  split <;> rfl

@[simp] theorem Hw.linkTo_mgt (s : Hw) (l st : Nat) : (s.linkTo l st).mgt = s.mgt := by
  unfold Hw.linkTo
  dsimp only
  split <;> rfl

@[simp] theorem Hw.linkTo_link (s : Hw) (l st : Nat) : (s.linkTo l st).link l = { s.link l with since := s.clk.now, credit := [0, 0, 0] } := by
  unfold Hw.linkTo Hw.showPorts
  dsimp only
  split <;> simp

theorem Hw.linkTo_regs (s : Hw) (l st : Nat) : Hw.RegsBut (linkKeys l) s (s.linkTo l st) := by
  have h1 : Hw.RegsBut (linkKeys l) s ((s.set R.LNK_STATUS_STATE l st).modLink l fun x => { x with since := s.clk.now, credit := [0, 0, 0] }) :=
    Hw.regsBut_set s _ _ _ (by simp [linkKeys])
  unfold Hw.linkTo Hw.showPorts
  dsimp only
  split
  · exact h1.trans (Hw.regsBut_set _ _ _ _ (by simp [linkKeys]))
  · exact (h1.trans (Hw.regsBut_set _ _ _ _ (by simp [linkKeys]))).trans (Hw.regsBut_set _ _ _ _ (by simp [linkKeys]))

@[simp] theorem Hw.linkTo_state (s : Hw) (l st : Nat) (hl : l < 65536) : (s.linkTo l st).get R.LNK_STATUS_STATE l = st % 8 := by
  unfold Hw.linkTo
  dsimp only
  split
  · rw [Hw.showPorts_get_state _ _ hl, Hw.modLink_get, Hw.get_set_same]
    rfl
  · rw [Hw.showPorts_get_state _ _ hl, Hw.get_set_fld _ _ (by decide) hl hl, Hw.modLink_get, Hw.get_set_same]
    rfl

@[simp] theorem Hw.keepWidth_regs (s : Hw) (l : Nat) : (s.keepWidth l).regs = s.regs := rfl
@[simp] theorem Hw.keepWidth_get (s : Hw) (l : Nat) (f : Fld) (i : Nat) : (s.keepWidth l).get f i = s.get f i := rfl
@[simp] theorem Hw.keepWidth_clk (s : Hw) (l : Nat) : (s.keepWidth l).clk = s.clk := rfl

/-- A link that goes down: its state, its counter, and nothing but its registers and the log's. -/
theorem Hw.linkDown_state (s : Hw) (l cause : Nat) (hl : l < 65536) : (s.linkDown l cause).get R.LNK_STATUS_STATE l = 4 := by
  unfold Hw.linkDown
  rw [Hw.msi_get, Hw.log_get_fld _ _ _ (by decide) hl, Hw.get_inc_fld _ _ (by decide) hl hl, Hw.linkTo_state _ _ _ hl]

theorem Hw.linkDown_count (s : Hw) (l cause : Nat) (hl : l < 65536) :
    (s.linkDown l cause).get R.LNK_EVENTS_DOWN l = min (s.get R.LNK_EVENTS_DOWN l + 1) 65535 := by
  unfold Hw.linkDown
  rw [Hw.msi_get, Hw.log_get_fld _ _ _ (by decide) hl, Hw.get_inc_same]
  rw [(Hw.linkTo_regs (s.keepWidth l) l 4).get (by
    have h1 := Fld.key_ne (f := R.LNK_STATUS_STATE) (g := R.LNK_EVENTS_DOWN) (by decide) hl hl
    have h2 := Fld.key_ne (f := R.LNK_STATUS_WIDTH) (g := R.LNK_EVENTS_DOWN) (by decide) hl hl
    have h3 := Fld.key_ne (f := R.LNK_PORT_STATUS_UP) (g := R.LNK_EVENTS_DOWN) (i := 0) (by decide) (by decide) hl
    simp [linkKeys, h1, h2, h3]), Hw.keepWidth_get]
  rfl

theorem Hw.linkDown_regs (s : Hw) (l cause : Nat) : Hw.RegsBut (R.LNK_EVENTS_DOWN.key l :: (linkKeys l ++ logKeys)) s (s.linkDown l cause) := by
  unfold Hw.linkDown
  refine .trans (.trans (.trans ((Hw.linkTo_regs (s.keepWidth l) l 4).mono ?_) (Hw.regsBut_inc _ _ _ _ ?_)) ((Hw.log_keeps _ _ _).regs.mono ?_))
    ((Hw.msi_keeps _ _ _).regs.mono ?_)
  all_goals simp +contextual

@[simp] theorem Hw.linkDown_clk (s : Hw) (l cause : Nat) : (s.linkDown l cause).clk = s.clk := by simp [Hw.linkDown]

/-! ## The waiting packets are sent -/

theorem Hw.sendable_lt {s : Hw} {k : Nat} {p : Pkt} {l : Nat} (h : l ∈ s.sendable k p) : l < 18 := by
  unfold Hw.sendable Hw.upLinks at h
  have h := (List.mem_filter.mp h).1
  split at h
  · cases h
  · have h := (List.mem_filter.mp h).1
    exact List.mem_range.mp (List.mem_filter.mp h).1

/-- What sending waiting packets can do to the hardware: clock, management state and every register but the counters of sent
bytes and packets stay. -/
structure Hw.SendKeeps (s t : Hw) : Prop where
  clk : t.clk = s.clk
  mgt : t.mgt = s.mgt
  truss : t.dev.truss = s.dev.truss
  pens : t.dev.pens = s.dev.pens
  since : ∀ l, (t.link l).since = (s.link l).since
  target : ∀ l, (t.link l).target = (s.link l).target
  regs : Hw.RegsBut txKeys s t

theorem Hw.SendKeeps.refl (s : Hw) : Hw.SendKeeps s s := ⟨rfl, rfl, rfl, rfl, fun _ => rfl, fun _ => rfl, Hw.RegsBut.refl _ s⟩

theorem Hw.SendKeeps.trans {s t u : Hw} (h : Hw.SendKeeps s t) (k : Hw.SendKeeps t u) : Hw.SendKeeps s u :=
  ⟨k.clk.trans h.clk, k.mgt.trans h.mgt, k.truss.trans h.truss, k.pens.trans h.pens, fun l => (k.since l).trans (h.since l),
    fun l => (k.target l).trans (h.target l), h.regs.trans k.regs⟩

/-- Changing a link's credits and turns alone. -/
theorem Hw.modLink_keeps (s : Hw) (l : Nat) (f : LinkSt → LinkSt) (hs : ∀ x, (f x).since = x.since) (ht : ∀ x, (f x).target = x.target) :
    Hw.SendKeeps s (s.modLink l f) :=
  ⟨by simp, by simp, by simp, by simp, fun k => by
    by_cases h : k = l
    · subst h
      simp [hs]
    · rw [Hw.link_modLink_ne s _ h], fun k => by
    by_cases h : k = l
    · subst h
      simp [ht]
    · rw [Hw.link_modLink_ne s _ h], by
    intro _ _ _
    rw [Hw.modLink_regs]⟩

theorem Hw.credit_keeps (s : Hw) (l : Nat) (f : LinkSt → List Nat) :
    Hw.SendKeeps s (s.modLink l fun x => { x with credit := f x }) := s.modLink_keeps l _ (fun _ => rfl) fun _ => rfl

theorem Hw.turn_keeps (s : Hw) (l : Nat) (f : LinkSt → Nat) : Hw.SendKeeps s (s.modLink l fun x => { x with turn := f x }) :=
  s.modLink_keeps l _ (fun _ => rfl) fun _ => rfl

theorem Hw.emit_sends (s : Hw) (o : Out) : Hw.SendKeeps s (s.emit o) :=
  ⟨by simp, by simp, by simp, by simp, fun _ => by simp, fun _ => by simp, by
    intro _ _ _
    rw [Hw.emit_regs]⟩

theorem Hw.shaped_keeps (s : Hw) (l k : Nat) (p : Pkt) : Hw.SendKeeps s (s.shaped l k p) := by
  unfold Hw.shaped
  dsimp only
  refine .trans ?_ (Hw.emit_sends _ _)
  exact ⟨rfl, rfl, rfl, rfl, fun _ => rfl, fun _ => rfl, Hw.RegsBut.refl _ s⟩

theorem Hw.putLink_keeps (s : Hw) {l : Nat} (hl : l < 18) (k : Nat) (p : Pkt) : Hw.SendKeeps s (s.putLink l k p) := by
  have hm : R.LNK_TX_BYTES_BYTES.key l ∈ txKeys := List.mem_cons_of_mem _ (List.mem_map.mpr ⟨l, List.mem_range.mpr hl, rfl⟩)
  have hp : R.ZLT_TX_PKTS_PKTS.key 0 ∈ txKeys := List.mem_cons_self
  have count : ∀ u : Hw, Hw.SendKeeps u (((u.inc R.LNK_TX_BYTES_BYTES l p.size).inc R.ZLT_TX_PKTS_PKTS).emit (.pkt l p)) := fun u =>
    ⟨by simp, by simp, by simp, by simp, fun _ => by simp, fun _ => by simp, by
      refine .trans (Hw.regsBut_inc u R.LNK_TX_BYTES_BYTES l p.size hm) (.trans (Hw.regsBut_inc _ R.ZLT_TX_PKTS_PKTS 0 1 hp) ?_)
      intro _ _ _
      rw [Hw.emit_regs]⟩
  unfold Hw.putLink
  dsimp only
  split
  · exact (Hw.shaped_keeps s l k p).trans (count _)
  · exact ((Hw.credit_keeps s l _).trans (Hw.emit_sends _ _)).trans (count _)

theorem Hw.newRound_keeps (s : Hw) (k : Nat) (ls : List Nat) : Hw.SendKeeps s (s.newRound k ls) := by
  unfold Hw.newRound
  split
  · exact .refl s
  · have go : ∀ (us : List Nat) (u : Hw), Hw.SendKeeps u (u.each us fun l s => s.modLink l fun x => { x with turn := s.get R.LNK_STATUS_WIDTH l }) := by
      intro us
      induction us with
      | nil => exact fun u => .refl u
      | cons l us ih => exact fun u => (u.turn_keeps l fun _ => u.get R.LNK_STATUS_WIDTH l).trans (ih _)
    exact go _ s

/-- The link that takes a packet is one of those that may. -/
theorem Hw.turnLink_mem (s : Hw) {ls : List Nat} (v : Nat) (h : ls ≠ []) : s.turnLink ls v ∈ ls := by
  have pick : ∀ c : List Nat, c ≠ [] → c.getD (v % c.length) 0 ∈ c := fun c hc => by
    have hi := Nat.mod_lt v (List.length_pos_iff.mpr hc)
    rw [List.getD_eq_getElem?_getD, List.getElem?_eq_getElem hi, Option.getD_some]
    exact List.getElem_mem hi
  unfold Hw.turnLink
  dsimp only
  split
  · exact pick ls h
  · rename_i hc
    exact (List.mem_filter.mp (pick _ hc)).1

theorem Hw.drainClass_keeps (tc : Nat) (q : List (Nat × Pkt)) (held : List Nat) (s : Hw) : Hw.SendKeeps s (Hw.drainClass tc q held s) := by
  induction q generalizing held s with
  | nil => exact .refl s
  | cons x q ih =>
    unfold Hw.drainClass
    have keep : ∀ l, Hw.SendKeeps s { s with dev.txq := l } := fun l =>
      ⟨rfl, rfl, rfl, rfl, fun _ => rfl, fun _ => rfl, Hw.RegsBut.refl _ s⟩
    split
    · exact (keep _).trans (ih held _)
    · dsimp only
      split
      · exact (keep _).trans (ih _ _)
      · rename_i _ h
        have hne : s.sendable x.1 x.2 ≠ [] := by
          intro he
          simp [he] at h
        have hlt : ∀ (u : Hw) (v : Nat), u.turnLink (s.sendable x.1 x.2) v < 18 := fun u v => Hw.sendable_lt (u.turnLink_mem v hne)
        have drawn : ∀ u : Hw, Hw.SendKeeps u u.draw.2 := fun u => ⟨rfl, rfl, rfl, rfl, fun _ => rfl, fun _ => rfl, Hw.RegsBut.refl _ u⟩
        exact ((((Hw.newRound_keeps s _ _).trans (drawn _)).trans (Hw.turn_keeps _ _ _)).trans
          (Hw.putLink_keeps _ (hlt _ _) _ _)).trans (ih held _)

/-- Sending every packet that can go. -/
theorem Hw.drainTx_keeps (s : Hw) : Hw.SendKeeps s s.drainTx := by
  have one : ∀ (tc : Nat) (u : Hw), Hw.SendKeeps u (Hw.drainClass tc u.dev.txq [] { u with dev.txq := [] }) := fun tc u =>
    (⟨rfl, rfl, rfl, rfl, fun _ => rfl, fun _ => rfl, Hw.RegsBut.refl _ u⟩ : Hw.SendKeeps u { u with dev.txq := [] }).trans
      (Hw.drainClass_keeps tc _ _ _)
  exact ((one 0 s).trans (one 1 _)).trans (one 2 _)

theorem Fld.key_notin_tx {f : Fld} {i : Nat} (h1 : f.id ≠ R.ZLT_TX_PKTS_PKTS.id) (h2 : f.id ≠ R.LNK_TX_BYTES_BYTES.id) (hi : i < 65536) :
    f.key i ∉ txKeys := by
  intro hm
  rcases List.mem_cons.mp hm with h | h
  · exact Fld.key_ne h1 (by decide) hi h
  · obtain ⟨l, hl, he⟩ := List.mem_map.mp h
    exact Fld.key_ne h2 (Nat.lt_trans (List.mem_range.mp hl) (by decide)) hi he.symm

end Sys2Proof.Machine
end

