-- ==== Sys2Proof/Laws/Rx.lean ====
section
/-! SUPPORT. What receiving a packet does before and after the unit it is for. -/

namespace Sys2Proof.Machine

@[simp] theorem Hw.hearLink_rxf (s : Hw) (l : Nat) : (s.hearLink l).dev.rxf = s.dev.rxf := rfl
@[simp] theorem Hw.hearLink_regs (s : Hw) (l : Nat) : (s.hearLink l).regs = s.regs := rfl
@[simp] theorem Hw.hearLink_get (s : Hw) (l : Nat) (f : Fld) (i : Nat) : (s.hearLink l).get f i = s.get f i := rfl
@[simp] theorem Hw.hearLink_devId (s : Hw) (l : Nat) : (s.hearLink l).devId = s.devId := rfl

@[simp] theorem Hw.seen_dev_links (s : Hw) (l : Nat) (raw : Bytes) (ce : Bool) (p : Pkt) : (s.seen l raw ce p).dev.links = s.dev.links := by
  unfold Hw.seen
  dsimp only
  split <;> split <;> rfl

theorem Hw.seen_rxFlow (s : Hw) (l : Nat) (raw : Bytes) (ce : Bool) (p : Pkt) :
    ((s.seen l raw ce p).rxFlow (flowKey p.src p.tc)).next = (s.rxFlow (flowKey p.src p.tc)).next ∧
      ((s.seen l raw ce p).rxFlow (flowKey p.src p.tc)).got = (s.rxFlow (flowKey p.src p.tc)).got := by
  unfold Hw.seen
  dsimp only
  split <;> split <;> simp [Hw.rxFlow]

/-- A packet of a sequenced type that is read, is new and finds room goes to its unit, and its ACK falls due. -/
theorem Run.rx_new (r : Run) {l : Nat} {raw : Bytes} {udpOk ce : Bool} {want : Pkt → Bool} {ok full : Pkt → Run → Bool} {body : Pkt → Run → Run}
    {p : Pkt} (h : r.hw.Reads l raw udpOk p) (hw : want p = true) (ht : p.typ ≠ 2) (hn : r.hw.IsNew p)
    (hl : l < 65536) (ho : ok p { r with hw := r.hw.seen l raw ce p } = true) (hf : full p { r with hw := r.hw.seen l raw ce p } = false) :
    r.rx l raw udpOk ce want ok full body = (body p { r with hw := r.hw.taken l raw ce p }).on fun s => s.ackLater p.src p.tc := by
  obtain ⟨h1, h2, h3, h4, h5, h6⟩ := h
  obtain ⟨hk, hg⟩ := hn
  obtain ⟨e1, e2⟩ := Hw.seen_rxFlow r.hw l raw ce p
  have hud : (!(r.hw.get R.LNK_STATUS_MODE l == 0) && !udpOk) = false := by
    rcases h4 with h4 | h4 <;> simp [h4]
  have hdev : ∀ n, ((r.hw.hearLink l).inc R.LNK_RX_BYTES_BYTES l n).devId = r.hw.devId := fun n => Hw.get_inc_fld _ _ (by decide) hl (by decide)
  have hwin : ¬ (2 ^ 31 ≤ (p.psn + 2 ^ 32 - ((r.hw.seen l raw ce p).rxFlow (flowKey p.src p.tc)).next % 2 ^ 32) % 2 ^ 32 ∨
      ((r.hw.seen l raw ce p).rxFlow (flowKey p.src p.tc)).got.contains p.psn = true) := by
    rw [e1, e2, hg]
    simp only [Bool.false_eq_true, or_false]
    omega
  have hlow : ¬ 1024 ≤ (p.psn + 2 ^ 32 - ((r.hw.seen l raw ce p).rxFlow (flowKey p.src p.tc)).next % 2 ^ 32) % 2 ^ 32 := by
    rw [e1]
    omega
  have notNot : ∀ {b : Bool}, b = true → ¬ (!b) = true := by simp
  have hdst : ∀ n, ¬ p.dst ≠ ((r.hw.hearLink l).inc R.LNK_RX_BYTES_BYTES l n).devId := fun n => by rw [hdev, h5]; simp
  unfold Run.rx
  simp only [h1, h2, h3, ne_eq, not_true_eq_false, or_self, if_false, hud, Bool.false_eq_true]
  unfold Hw.taken
  unfold Hw.seen at hwin hlow hf ho ⊢
  by_cases hm : r.hw.get R.LNK_STATUS_MODE l = 0 <;> cases ce <;>
    simp only [hm, beq_self_eq_true, beq_iff_eq, if_true, if_false, Bool.false_eq_true] at hwin hlow hf ho ⊢
  all_goals
    refine (if_neg (hdst _)).trans ?_
    simp only [hw, Bool.not_true, Bool.false_eq_true, if_false, ht]
    refine (if_neg (notNot h6)).trans ((if_neg hwin).trans ((if_neg hlow).trans ((if_neg (notNot ho)).trans ((if_neg ?_).trans rfl))))
    exact fun hc => Bool.false_ne_true (hf.symm.trans hc)

end Sys2Proof.Machine
end

