-- ==== Sys2Proof/Tests/Slice0.lean ====
section
/-! SUPPORT. Small states, known answers of the spec's worked examples, a refusal for each well-formedness check, and for every statement with
premises a state and operands that meet them. -/

namespace Sys2Proof.Tests

open Sys2Proof Sys2Proof.Machine

set_option Elab.async false

/-! ## Small states -/

/-- A module in service: the device up, the sheepdog up, the link of port 0 up. -/
def up : State := { hw := Hw.set { mgt := { phase := .run, sdgUp := true } } R.HIF_PORT_P0_UP 0 1 }

/-- A state with a register field changed. -/
def reg (f : Fld) (i v : Nat) (s : State) : State := { s with hw := s.hw.set f i v }

/-- A state with the supply and thermal logic, the management state or the device state changed. -/
def pwr (f : Power → Power) (s : State) : State := { s with hw := s.hw.modPwr f }
def mgt (f : Mgt → Mgt) (s : State) : State := { s with hw := s.hw.modMgt f }
def dev (f : Dev → Dev) (s : State) : State := { s with hw := { s.hw with dev := f s.hw.dev } }

/-- A pen of one quad (stalls 0 to 3), HBM granules 16 to 79 and loft granules 0 to 15. -/
def pen0 : PenDesc := { kvPolicy := 0, planMask := 1, saveRange := 2048, ctxMax := 7, quads := 1, portMask := 0, hubShare := 0,
                         hbm := [⟨16, 64⟩], loft := [⟨0, 16⟩], planAbi := 1, raw := [] }

/-- An image in force with that pen as pen 0. -/
def image : Truss := { tFrame := 1000, lap := 100, deviceId := 5, pens := [(0, pen0)], ports := [], adm := [], tenants := [], route := [], egress := [],
                         yoke := none, eHdr := [], digest := [] }

/-- The module in service with that image, the scratchpads of the pen filled with zeros. -/
def upPen : State :=
  [0, 1, 2, 3].foldl (fun s n => reg R.SPD_STATUS_ZEROING n 0 s) (dev (fun d => { d with truss := some image }) up)

/-- Some bytes of memory: one in the HBM, one in stall 0, one in stall 7, and one of the host. -/
def mem1 (s : State) : State := { s with mem := { dev := [(0x100000, 1#8), (spdAddr 0 + 64, 2#8), (spdAddr 7 + 5, 3#8)], host := [(77, 4#8)], mark := [] } }

/-- An open frame with one task left. -/
def openFrame : PenFrame := { frame := 3, slot := 0, key := 0, regs := 0, idle := false, slipped := false,
                              tasks := [⟨.lnu, 0, .tail, [], none, [], none, 0, []⟩], left := [(0, 1)], pushed := [] }

/-- Frame 4 has started while frame 3 of pen 0 still has a task left. -/
def overrun : State := dev (fun d => { d with pens := [(0, { frames := [openFrame] })] })
  { upPen with hw := { upPen.hw with clk := { upPen.hw.clk with frame := 4, starts := [(4, 400000)] } } }

/-- A queued command, a record and a short dump. -/
def qcmd : QCmd := ⟨0, 3, 0, 0, none, false, zeros 64⟩
def rec1 : Rec := ⟨0x0804, 3, 4, 0, 255, 255, 0, 9, 3, 0, 0, 0, 1, 1, 0xFFFF, 0xFFFF, 0⟩
def dump1 : Dump := { full := false, num := 1, cause := 1, seq := 1, frame := 9, recs := [rec1], trace := [], regs := [], dev := {}, seed := 0 }

/-- A package of four images that hold no byte. -/
def package : FwPackage := ⟨[1, 2, 3, 4].map fun k => ⟨zeros 4 ++ leBytes 1 k, []⟩, [], []⟩

/-- The module in a herd: port 0 has links 0 to 2 in herd mode, port 1 has link 3 in network mode; device 6 lies behind port 0 and
device 9 behind port 1; link 1 is UP with some credit. -/
def herdImage : Truss :=
  { image with ports := [⟨0, 0, 7⟩, ⟨1, 1, 8⟩], route := [(6, 0), (9, 1)], egress := [⟨9, [9#8, 0#8, 1#8, 2#8] ++ zeros 28⟩] }
def herd : State := reg R.TRS_DEVICE_DEVICE_ID 0 5 (reg R.LNK_STATUS_MODE 3 1 (reg R.LNK_STATUS_STATE 1 2
  (dev (fun d => { d with truss := some herdImage, links := [(1, { credit := [4096, 4096, 4096] })] }) upPen)))

/-- The herd in which ports 0 and 1 are pen 0's. -/
def penHerd : State := dev (fun d => { d with truss := some { herdImage with pens := [(0, { pen0 with portMask := 3 })] } }) herd

/-- The herd with pen 0 yoked to device 6 over port 0, this module the active one to begin with. -/
def yoke0 : YokeCfg := { partner := 6, port := 0, altPath := false, penMask := 1, activeMask := 1, pairTag := 9, stage := [⟨64, 4⟩] }
def paired : State := dev (fun d => { d with truss := some { herdImage with yoke := some yoke0 } }) herd

/-- A CTRL packet of the partner, and a JOURNAL or DIRECT packet. -/
def ctrlPk (sub st commit posted jlen addr : Nat) : Pkt :=
  { typ := 7, tc := 1, src := 6, dst := 5, commit := commit, payload := ctrlPayload sub 0 st commit posted jlen addr [] 9 }
def dataPk (typ commit addr : Nat) (b : Bytes) : Pkt := { typ := typ, tc := 1, src := 6, dst := 5, commit := commit, addr := addr, payload := b }

/-- The pen's yoke state changed. -/
def yok (f : YokeSt → YokeSt) (s : State) : State := { s with hw := s.hw.modYoke 0 f }

/-- A tenant of pen 0, a block listed as unavailable, and a journal item of three bytes. -/
def tenant7 : Tenant := { id := 7, enabled := true, pauseMode := 0, share := 10, function := 3, penMask := 1, classMask := 7, cap := 1000, refill := 10,
                          ttl := 5, base := 0x10000, size := 0x10000, raw := [] }
def unav1 : Unavail := { hdr := 0x1000000, block := 1, mask := [], state := 1, listed := 1, need := [(0x1000000, 64), (0x1000100, 64)] }
def item1 : JItem := ⟨1, 20 * granule - 2, [7#8, 8#8, 9#8]⟩

/-- A small whole-device image: a frame of 1,000 microseconds, and pen 0 with the first four stalls and HBM granules 16 to 79. -/
def devSec : Bytes := leBytes 2 1000 ++ leBytes 2 100 ++ leBytes 2 5 ++ [1#8] ++ zeros 9
def penSec : Bytes := [0#8, 2#8, 1#8, 1#8, 0#8, 0#8] ++ leBytes 2 8 ++ leBytes 8 1 ++ zeros 4 ++ zeros 12 ++ leBytes 4 16 ++ leBytes 4 64 ++ zeros 88
def smallImage : Bytes :=
  leBytes 4 0x5352544B ++ leBytes 2 1 ++ leBytes 2 0x100 ++ leBytes 4 546 ++ [0#8, 0xFF#8] ++ leBytes 2 2 ++ leBytes 8 1 ++ zeros 8 ++
  [0x40#8, 3#8, 0#8, 0xFF#8] ++ leBytes 2 1 ++ zeros 2 ++ zeros 12 ++ leBytes 4 0 ++ zeros 200 ++
  (leBytes 2 1 ++ leBytes 2 1 ++ leBytes 4 0x120 ++ leBytes 4 16 ++ leBytes 4 (crc32c devSec)) ++
  (leBytes 2 2 ++ leBytes 2 1 ++ leBytes 4 0x130 ++ leBytes 4 128 ++ leBytes 4 (crc32c penSec)) ++ devSec ++ penSec ++ (zeros 113 ++ [1#8])

/-- Bytes placed from an address on. -/
def cells (a : Nat) (b : Bytes) : Tbl Byte := ((List.range b.length).map fun i => (a + i, b.getD i 0)).filter fun kv => kv.2 != 0

/-- That image in the staging area, and a load of it in a state of Table 2.12. -/
def loading (st : Nat) (f : Load → Load) (s : State) : State :=
  reg R.TRS_STATUS_STATE 0 st (dev (fun d => { d with load := some (f { len := 546, src := 0x1000 }) })
    { s with mem := { dev := cells 0 smallImage, host := cells 0x1000 smallImage, mark := [] } })

/-- An image of pen 0 alone, and a module whose scratchpads are all filled. -/
def penSec1 : Bytes := [0#8, 2#8, 1#8, 1#8, 0#8, 0#8] ++ leBytes 2 8 ++ leBytes 8 1 ++ zeros 4 ++ zeros 12 ++ leBytes 4 16 ++ leBytes 4 64 ++ zeros 88
def penImage : Bytes :=
  leBytes 4 0x5352544B ++ leBytes 2 1 ++ leBytes 2 0x100 ++ leBytes 4 514 ++ [1#8, 0#8] ++ leBytes 2 1 ++ leBytes 8 9 ++ zeros 8 ++
  [0x40#8, 3#8, 0#8, 0xFF#8] ++ leBytes 2 1 ++ zeros 2 ++ zeros 12 ++ leBytes 4 0 ++ zeros 200 ++
  (leBytes 2 2 ++ leBytes 2 1 ++ leBytes 4 0x110 ++ leBytes 4 128 ++ leBytes 4 (crc32c penSec1)) ++ penSec1 ++ (zeros 113 ++ [1#8])
def noZero : State := (List.range 192).foldl (fun s n => reg R.SPD_STATUS_ZEROING n 0 s) up

/-- A plan of no tasks for slot 1 of pen 0, copied to the pen's HBM and digested, and its admission entry. -/
def planInst : Inst := { slot := 1, src := 0x2000, dst := 0x2200000, len := 256, digest := zeros 64 }
def planBytes : Bytes :=
  leBytes 4 0x4E4C504B ++ leBytes 2 1 ++ leBytes 2 0x80 ++ leBytes 4 256 ++ leBytes 2 4 ++ leBytes 2 (upPen.hw.get R.TRS_TIMING_T_FRAME_US 0) ++ zeros 240
def planState : State :=
  (fun s : State => { s with hw := s.hw.modPen 0 fun ps => { ps with inst := some planInst } })
    (reg R.FSQ_PLAN_STATUS_STATE 0 3
      (dev (fun d => { d with truss := some { image with adm := [⟨0, 1, zeros 16, ⟨0, 0, 0, 0⟩, ⟨0, 0, 0, 0⟩, ⟨0, 0, 0, 0⟩⟩] } })
        { upPen with mem := { dev := cells 0x2200000 planBytes, host := [], mark := [] } }))

/-- Frame 5 of the module has started. -/
def at5 (s : State) : State := { s with hw := { s.hw with clk := { s.hw.clk with frame := 5, starts := [(5, 500000)] } } }

/-- The tick runs, the next frame starting at 500. -/
def running (s : State) : State := { s with hw := { s.hw with clk := { s.hw.clk with running := true, due := 500 } } }

/-! ## Known answers, from the spec's worked examples and the standards it names -/

/-- Example 4.1: byte 0xA7 carries +1, 0, -1, -1, +1; a byte above 242 is corrupt (R81). -/
theorem test_quintet : quintet 0xA7 = some [1, 0, -1, -1, 1] ∧ quintet 242 = some [1, 1, 1, 1, 1] ∧ quintet 243 = none := by decide

/-- Example 4.2: C_max of the two TDA_MAC commands of a column tile. -/
theorem test_tda_bound :
    (TdaMac.of (zeros 64)).cMax ≠ 693 ∧
    ({ TdaMac.of (zeros 64) with op := 0, rows := 2048, t := 64, wid := 8 } : TdaMac).cMax = 693 ∧
    ({ TdaMac.of (zeros 64) with op := 2, rows := 2048, t := 64, wid := 8 } : TdaMac).cMax = 757 := by decide

/-- Example 4.3: C_max of a router's LUT_ACC. -/
theorem test_lut_bound : ({ LutAcc.of (zeros 64) with width := 0, k := 4096, n := 64, t := 16, wid := 8 } : LutAcc).cMax = 2126 := by decide

/-- Example 4.4: the planes of -200 times 57, the top plane first. -/
theorem test_combine : combineRow [-57] [[57], [-57], [-57], [-57], [57]] = ([-11400], 0) := by decide

/-- Example 5.1: (4.0 + 2^1.5) - 1.0 in LNS24, and narrowed. -/
theorem test_lns_sum :
    ((Lns.of16 0x0400).add (Lns.of16 0x0300)).1 = ⟨false, 90792⟩ ∧
    ((⟨false, 90792⟩ : Lns).add (Lns.of16 0x8000)).1 = ⟨false, 83295⟩ ∧
    ((⟨false, 83295⟩ : Lns).narrow none).1 = 0x0515 := by decide +kernel

/-- Example 5.3: ties to even at the outlier test, the block shift of 905, the outlier's word. -/
theorem test_outlier :
    tooBig 127 6 (20000 * 2 ^ 64) = true ∧ tooBig 127 6 (8159 * 2 ^ 64) = false ∧ blockShift 127 [905 * 2 ^ 64] 6 0 = 3 ∧
    (lns16Of (20000 * 2 ^ 64)).1 = 0x1C93 := by decide +kernel

/-- Example 8.1: stack 11 lies behind hub 5. -/
theorem test_stack_of_address : 0x8401234560 / stackSize = 11 ∧ 0x8401234560 / stackSize / 2 = 5 ∧ 0x8401234560 / granule = 270345 := by decide

/-- CRC-32C of the nine digits (RFC 3720's check value). -/
theorem test_crc32c : crc32c ([0x31, 0x32, 0x33, 0x34, 0x35, 0x36, 0x37, 0x38, 0x39].map (BitVec.ofNat 8)) = 0xE3069283 := by decide +kernel

/-- FIPS 197, Appendix C.1. -/
theorem test_aes128 : leNat (aes128 ((List.range 16).map (BitVec.ofNat 8)) ((List.range 16).map fun i => BitVec.ofNat 8 (17 * i))) =
    0x5AC5B47080B7CDD830047B6AD8E0C469 := by decide +kernel

/-- FIPS 202: the first eight bytes of SHAKE256 of the empty string. -/
theorem test_shake256 : leNat (shake256 [] 8) = 0x138DA80B2BDDB946 := by decide +kernel

/-- Example 0.1 and Table 0.4: of several codes the one of the lowest precedence number is written. -/
theorem test_crib_code : cribCode [Crib.POISONED_OUTPUT, Crib.HANG_FENCED, Crib.OK_LATE] = Crib.HANG_FENCED ∧ cribCode [Crib.OK_LATE, Crib.GUARANTEE_SUSPENDED] = Crib.GUARANTEE_SUSPENDED := by decide

/-! ## One step -/

/-- The front command runs and leaves the queue; the others wait. -/
theorem test_front_command_leaves :
    (match step { up with pending := [.powerMeasure 1 2 3, .subtick] } with
     | .next t => t.pending == [.subtick]
     | _ => false) = true := by decide +kernel

/-- An idle step lets one cycle of 10 ns pass. -/
theorem test_idle_cycle : (match step up with
     | .next t => t.hw.clk.now == 1
     | _ => false) = true := by decide

/-- A malformed command of the array is counted, and nothing is written. -/
theorem test_malformed_command :
    (match exec (.tdaMac 0 (⟨0, 0, none, false, {}, []⟩ : Issue) (zeros 64)) upPen with
     | .next t => t.hw.get R.STL_FAULT_CMD_MALFORMED 0 == 1 && t.hw.get R.STL_TDA_CMDS_CMDS 0 == 0 && t.mem == upPen.mem
     | _ => false) = true := by decide +kernel

/-- A cap below 2,900 W sets 2,900 W (R323). -/
theorem test_cap_low : (match exec (.registerWrite .bar0 0x15004 4 100) up with
     | .next t => t.hw.get R.PWR_CAP_CAP_W 0 == 2900
     | _ => false) = true := by decide +kernel

/-- A misaligned register read answers 0 and clears nothing (R396). -/
theorem test_misaligned_read : (match exec (.rcFieldRead .bar0 0x1A 4) (reg R.HIF_CPL_ERR_ERR 0 7 up) with
     | .next t => t.hw.out == [.reg .bar0 0x1A 0] && t.hw.get R.HIF_CPL_ERR_ERR 0 == 7
     | _ => false) = true := by decide +kernel

/-! ## What the host asks of a word: the table gives no row any bits -/

theorem test_no_word_spells_a_command : decodeTableWord 16 5 = none ∧ decodeTableWord 0 0 = none := by decide
theorem test_withFetchWord : State.withFetchWord up 16 5 = up := rfl

/-! ## Ill-formed terms, one for each check, each refused -/

theorem test_wf_engine_of_stall : Instr.wf (.commandBoundary (.stall 0 .cde)) = false := by decide
theorem test_wf_engine_of_hub : Instr.wf (.cmdWatchdog (.hub 0 .tda 0)) = false := by decide
theorem test_wf_wait_engine : Instr.wf (.waitArrivals 0 .kvm (⟨0, 0, none, false, {}, []⟩ : Issue) (zeros 64)) = false := by decide
theorem test_wf_short_command : Instr.wf (.tdaMac 0 (⟨0, 0, none, false, {}, []⟩ : Issue) (zeros 63)) = false := by decide
theorem test_wf_long_command : Instr.wf (.dmaMove 0 (⟨0, 0, none, false, {}, []⟩ : Issue) (zeros 64)) = false := by decide
theorem test_wf_planes : Instr.wf (.tritCombine 0 (⟨0, 0, none, false, {}, []⟩ : Issue) ⟨7, 0, 1, 0, 0, 0, 0, 0, 0, 0, 0, 0, 0, 0⟩) = false := by decide
theorem test_wf_descriptor_index : Instr.wf (.cvdLoad 0 (⟨0, 0, none, false, {}, []⟩ : Issue) ⟨16, 0, 0⟩) = false := by decide
theorem test_wf_generator : Instr.wf (.genUnbind 0 (⟨0, 0, none, false, {}, []⟩ : Issue) 8) = false := by decide
theorem test_wf_context : Instr.wf (.pauseExpiry 0 4096) = false := by decide
theorem test_wf_place : Instr.wf (.swapSetDone 0 ⟨[4097], {}⟩) = false := by decide
theorem test_wf_task : Instr.wf (.planCheckDone 0 [⟨.lnu, 0, .tail, [0], none, [], none, 0, []⟩]) = false := by decide
theorem test_wf_task_unit : Instr.wf (.planCheckDone 0 [⟨.lnu, 192, .tail, [], none, [], none, 0, []⟩]) = false := by decide
theorem test_wf_raw_packet : Instr.wf (.hello 0 (zeros 43) true false) = false := by decide
theorem test_wf_remote_write : Instr.wf (.remoteWriteArrival 0 0x1800000 ⟨[1#8], {}⟩ 0 none 3) = false := by decide
theorem test_wf_access_size : Instr.wf (.registerWrite .bar0 4 65 1) = false := by decide
theorem test_wf_access_value : Instr.wf (.registerWrite .bar0 4 4 (2 ^ 32)) = false := by decide
theorem test_wf_hdm_line : Instr.wf (.hdmRead 0 63 2 []) = false := by decide
theorem test_wf_hdm_range : Instr.wf (.hdmWrite 0 0x4000000 [1#8] false []) = false := by decide
theorem test_wf_vf_zero : Instr.wf (.flr (.vf 0)) = false := by decide
theorem test_wf_low_word_aligned : Instr.wf (.lowWordRead .bar0 6) = false := by decide
theorem test_wf_vf_space : Instr.wf (.lowWordRead (.vf 0) 0) = false := by decide
theorem test_wf_well_formed : Instr.wf (.tdaMac 0 (⟨0, 0, none, false, {}, []⟩ : Issue) (zeros 64)) = true := by decide

/-! ## The premises of the statements can be met -/

theorem wit_StepIdlesOnEmptyQueue : ∃ (s : State), s.pending = [] := ⟨up, rfl⟩

theorem wit_StepKeepsMemoryCanonical : ∃ (s t : State), s.MemOk ∧ step s = .next t := ⟨mem1 up, State.idle (mem1 up), (by decide : (mem1 up).mem.wf = true), rfl⟩

theorem wit_TableWords_1 : ∃ (i : Nat), i < 16 := ⟨15, by decide⟩

theorem wit_TableWords_2 : ∃ (kMax q j : Nat), j < 4 ∧ 4 * q + j < kMax := ⟨8, 1, 3, by decide⟩

theorem wit_LogProduct_1 : ∃ (a b : Lns), a.isZero = true ∨ b.isZero = true := ⟨Lns.zero, ⟨true, 5⟩, by decide⟩

theorem wit_LogProduct_2 : ∃ (a b : Lns), a.isZero = false ∧ b.isZero = false ∧ lnsMin < a.l + b.l ∧ a.l + b.l ≤ lnsMax := ⟨⟨true, 4194300⟩, ⟨false, 3⟩, by decide⟩

theorem wit_LogProduct_3 : ∃ (v w : BitVec 16), (Lns.of16 v.toNat).isZero = false ∧ (Lns.of16 w.toNat).isZero = false := ⟨0xBFFF#16, 0x4001#16, by decide⟩

theorem wit_EffecterAndRegisterSetCap_1 : ∃ (b : Bus) (s : State),
    s.hw.hearsBus b = true :=
  ⟨.smbus, mem1 up, by decide⟩

theorem wit_EffecterAndRegisterSetCap_2 : ∃ (s : State),
    s.hw.hostUp = true ∧
    s.hw.get R.SEC_BOOT_STATUS_STATE 0 = 0 :=
  ⟨mem1 up, by decide⟩

theorem wit_EffecterAndRegisterSetCap_3 : ∃ (b : Bus) (s : State), s.hw.hearsBus b = true ∧ s.hw.hostUp = true ∧ s.hw.get R.SEC_BOOT_STATUS_STATE 0 = 0 := ⟨.i3c, up, by decide⟩

theorem wit_DeviceResetClearsRetirement_1 : ∃ (s : State),
    s.hw.diesUp = true :=
  ⟨reg R.MHB_RET_ENTRY_VALID 9 1 (reg R.MHB_RET_ENTRY_PAGE 9 7 (reg R.MHB_LOFT_RET_ENTRY_VALID 5 1 (dev (fun d => { d with ports := [0] }) upPen))), by decide⟩

theorem wit_DeviceResetClearsRetirement_2 : ∃ (s : State),
    s.hw.diesUp = true :=
  ⟨reg R.MHB_RET_ENTRY_VALID 9 1 (reg R.MHB_RET_ENTRY_PAGE 9 7 (reg R.MHB_LOFT_RET_ENTRY_VALID 5 1 (dev (fun d => { d with ports := [0] }) upPen))), by decide⟩

theorem wit_DeviceResetClearsRetirement_3 : ∃ (t0 : Nat) (s : State),
    s.hw.diesUp = true ∧
    s.hw.is R.PWR_STATUS_CLAMP = true ∧
    s.hw.mgt.pwr.clampAt = some t0 :=
  ⟨5, reg R.PWR_STATUS_CLAMP 0 1 (pwr (fun p => { p with clampAt := some 5 }) (reg R.MHB_RET_ENTRY_VALID 9 1 (reg R.MHB_RET_ENTRY_PAGE 9 7 (reg R.MHB_LOFT_RET_ENTRY_VALID 5 1 (dev (fun d => { d with ports := [0] }) upPen))))), by decide⟩

theorem wit_DeviceResetClearsRetirement_4 : ∃ (s : State),
    s.hw.diesUp = true :=
  ⟨reg R.MHB_RET_ENTRY_VALID 9 1 (reg R.MHB_RET_ENTRY_PAGE 9 7 (reg R.MHB_LOFT_RET_ENTRY_VALID 5 1 (dev (fun d => { d with ports := [0] }) upPen))), by decide⟩

theorem wit_DeviceResetClearsRetirement_5 : ∃ (d : Fin 40) (s : State),
    s.hw.diesUp = true ∧
    24 ≤ d.val :=
  ⟨24, reg R.MHB_RET_ENTRY_VALID 9 1 (reg R.MHB_RET_ENTRY_PAGE 9 7 (reg R.MHB_LOFT_RET_ENTRY_VALID 5 1 (dev (fun d => { d with ports := [0] }) upPen))), by decide⟩

theorem wit_DeviceResetClearsRetirement_6 : ∃ (d : Fin 40) (s : State),
    s.hw.diesUp = true ∧
    24 ≤ d.val ∧
    d.val < 39 :=
  ⟨38, reg R.MHB_RET_ENTRY_VALID 9 1 (reg R.MHB_RET_ENTRY_PAGE 9 7 (reg R.MHB_LOFT_RET_ENTRY_VALID 5 1 (dev (fun d => { d with ports := [0] }) upPen))), by decide⟩

theorem wit_DeviceResetClearsRetirement_7 : ∃ (s : State),
    s.hw.hostUp = true :=
  ⟨reg R.MHB_RET_ENTRY_VALID 9 1 (reg R.MHB_RET_ENTRY_PAGE 9 7 (reg R.MHB_LOFT_RET_ENTRY_VALID 5 1 (dev (fun d => { d with ports := [0] }) upPen))), by decide⟩

theorem wit_DeviceResetClearsRetirement_8 : ∃ (s : State),
    s.hw.diesUp = true ∧
    s.hw.dev.ports.contains 0 = true :=
  ⟨reg R.MHB_RET_ENTRY_VALID 9 1 (reg R.MHB_RET_ENTRY_PAGE 9 7 (reg R.MHB_LOFT_RET_ENTRY_VALID 5 1 (dev (fun d => { d with ports := [0] }) upPen))), by decide⟩

theorem wit_DeviceResetClearsRetirement_9 : ∃ (s : State),
    s.hw.portUp 0 = true :=
  ⟨reg R.MHB_RET_ENTRY_VALID 9 1 (reg R.MHB_RET_ENTRY_PAGE 9 7 (reg R.MHB_LOFT_RET_ENTRY_VALID 5 1 (dev (fun d => { d with ports := [0] }) upPen))), by decide⟩

theorem wit_DeviceResetClearsRetirement_10 : ∃ (s : State),
    s.hw.portUp 0 = true :=
  ⟨reg R.MHB_RET_ENTRY_VALID 9 1 (reg R.MHB_RET_ENTRY_PAGE 9 7 (reg R.MHB_LOFT_RET_ENTRY_VALID 5 1 (dev (fun d => { d with ports := [0] }) upPen))), by decide⟩

theorem wit_CribCodePrecedence : ∃ (cs : List Nat), ∀ c ∈ cs, cribPrec c ≤ 14 := ⟨[0x20, 0x31, 0x01], by decide⟩

theorem wit_DenseArrayExactProducts_1 : ∃ (n : StallId) (i : Issue) (cmd : Bytes) (s : State) (c : Cx) (u : Nat) (col : Nat),
    s.hw.cx n 0 i = some c ∧
    (TdaMac.of cmd).bad s.hw n cmd = false ∧
    s.hw.extFault c ((TdaMac.of cmd).wExt :: ((TdaMac.of cmd).aExts ++ (TdaMac.of cmd).xExts ++ (TdaMac.of cmd).ospExts) ++ (TdaMac.of cmd).outs s.hw n) = {} ∧
    s.hw.bankGate c (TdaMac.of cmd).bank (TdaMac.of cmd).op = .go ∧
    ((writesOut (TdaMac.of cmd).op = true → (s.hw.fmtGen n (TdaMac.of cmd).fmt).all (fun g => s.hw.genOk n g 0) = true)) ∧
    (TdaMac.of cmd).bsc = false ∧
    (TdaMac.of cmd).osp = false ∧
    (TdaMac.of cmd).op < 2 ∧
    u < (TdaMac.of cmd).t ∧
    col < 256 :=
  ⟨0, { frame := 0, task := 9, pos := none, u0 := false }, [33#8, 64#8, 0#8, 4#8, 5#8] ++ zeros 12 ++ [2#8, 0#8, 0#8, 64#8] ++ zeros 12 ++ [4#8, 0#8, 0#8, 0#8, 4#8, 0#8, 0#8, 144#8, 1#8, 0#8, 0#8, 255#8, 255#8, 255#8, 255#8, 255#8, 255#8] ++ zeros 14, dev (fun d => { d with stls := [(0, { slots := [(3, { gen := 1, full := true, pnext := false, reads := 1 })], regions := [(regionKey 0 9, [(0, 8192)])] })] }) ({ upPen with mem := { dev := [(spdAddr 0 + 0, 227#8), (spdAddr 0 + 1, 0#8), (spdAddr 0 + 2, 250#8), (spdAddr 0 + 3, 121#8), (spdAddr 0 + 4, 121#8), (spdAddr 0 + 5, 121#8), (spdAddr 0 + 6, 121#8), (spdAddr 0 + 7, 121#8), (spdAddr 0 + 8, 121#8), (spdAddr 0 + 9, 121#8), (spdAddr 0 + 10, 121#8), (spdAddr 0 + 11, 121#8), (spdAddr 0 + 12, 121#8), (spdAddr 0 + 13, 121#8), (spdAddr 0 + 14, 121#8), (spdAddr 0 + 15, 121#8), (spdAddr 0 + 16, 121#8), (spdAddr 0 + 17, 121#8), (spdAddr 0 + 18, 121#8), (spdAddr 0 + 19, 121#8), (spdAddr 0 + 20, 121#8), (spdAddr 0 + 21, 121#8), (spdAddr 0 + 22, 121#8), (spdAddr 0 + 23, 121#8), (spdAddr 0 + 24, 121#8), (spdAddr 0 + 25, 121#8), (spdAddr 0 + 26, 121#8), (spdAddr 0 + 27, 121#8), (spdAddr 0 + 28, 121#8), (spdAddr 0 + 29, 121#8), (spdAddr 0 + 30, 121#8), (spdAddr 0 + 31, 121#8), (spdAddr 0 + 32, 121#8), (spdAddr 0 + 33, 121#8), (spdAddr 0 + 34, 121#8), (spdAddr 0 + 35, 121#8), (spdAddr 0 + 36, 121#8), (spdAddr 0 + 37, 121#8), (spdAddr 0 + 38, 121#8), (spdAddr 0 + 39, 121#8), (spdAddr 0 + 40, 121#8), (spdAddr 0 + 41, 121#8), (spdAddr 0 + 42, 121#8), (spdAddr 0 + 43, 121#8), (spdAddr 0 + 44, 121#8), (spdAddr 0 + 45, 121#8), (spdAddr 0 + 46, 121#8), (spdAddr 0 + 47, 121#8), (spdAddr 0 + 48, 121#8), (spdAddr 0 + 49, 121#8), (spdAddr 0 + 50, 121#8), (spdAddr 0 + 51, 121#8), (spdAddr 0 + 52, 121#8), (spdAddr 0 + 53, 121#8), (spdAddr 0 + 54, 121#8), (spdAddr 0 + 55, 121#8), (spdAddr 0 + 56, 121#8), (spdAddr 0 + 57, 121#8), (spdAddr 0 + 58, 121#8), (spdAddr 0 + 59, 121#8), (spdAddr 0 + 60, 121#8), (spdAddr 0 + 61, 121#8), (spdAddr 0 + 62, 121#8), (spdAddr 0 + 63, 121#8), (spdAddr 0 + 64, 121#8), (spdAddr 0 + 65, 121#8), (spdAddr 0 + 66, 121#8), (spdAddr 0 + 67, 121#8), (spdAddr 0 + 68, 121#8), (spdAddr 0 + 69, 121#8), (spdAddr 0 + 70, 121#8), (spdAddr 0 + 71, 121#8), (spdAddr 0 + 72, 121#8), (spdAddr 0 + 73, 121#8), (spdAddr 0 + 74, 121#8), (spdAddr 0 + 75, 121#8), (spdAddr 0 + 76, 121#8), (spdAddr 0 + 77, 121#8), (spdAddr 0 + 78, 121#8), (spdAddr 0 + 79, 121#8), (spdAddr 0 + 80, 121#8), (spdAddr 0 + 81, 121#8), (spdAddr 0 + 82, 121#8), (spdAddr 0 + 83, 121#8), (spdAddr 0 + 84, 121#8), (spdAddr 0 + 85, 121#8), (spdAddr 0 + 86, 121#8), (spdAddr 0 + 87, 121#8), (spdAddr 0 + 88, 121#8), (spdAddr 0 + 89, 121#8), (spdAddr 0 + 90, 121#8), (spdAddr 0 + 91, 121#8), (spdAddr 0 + 92, 121#8), (spdAddr 0 + 93, 121#8), (spdAddr 0 + 94, 121#8), (spdAddr 0 + 95, 121#8), (spdAddr 0 + 96, 121#8), (spdAddr 0 + 97, 121#8), (spdAddr 0 + 98, 121#8), (spdAddr 0 + 99, 121#8), (spdAddr 0 + 100, 121#8), (spdAddr 0 + 101, 121#8), (spdAddr 0 + 102, 121#8), (spdAddr 0 + 103, 121#8), (spdAddr 0 + 104, 121#8), (spdAddr 0 + 105, 121#8), (spdAddr 0 + 106, 121#8), (spdAddr 0 + 107, 121#8), (spdAddr 0 + 108, 121#8), (spdAddr 0 + 109, 121#8), (spdAddr 0 + 110, 121#8), (spdAddr 0 + 111, 121#8), (spdAddr 0 + 112, 121#8), (spdAddr 0 + 113, 121#8), (spdAddr 0 + 114, 121#8), (spdAddr 0 + 115, 121#8), (spdAddr 0 + 116, 121#8), (spdAddr 0 + 117, 121#8), (spdAddr 0 + 118, 121#8), (spdAddr 0 + 119, 121#8), (spdAddr 0 + 120, 121#8), (spdAddr 0 + 121, 121#8), (spdAddr 0 + 122, 121#8), (spdAddr 0 + 123, 121#8), (spdAddr 0 + 124, 121#8), (spdAddr 0 + 125, 121#8), (spdAddr 0 + 126, 121#8), (spdAddr 0 + 127, 121#8), (spdAddr 0 + 128, 121#8), (spdAddr 0 + 129, 121#8), (spdAddr 0 + 130, 121#8), (spdAddr 0 + 131, 121#8), (spdAddr 0 + 132, 121#8), (spdAddr 0 + 133, 121#8), (spdAddr 0 + 134, 121#8), (spdAddr 0 + 135, 121#8), (spdAddr 0 + 136, 121#8), (spdAddr 0 + 137, 121#8), (spdAddr 0 + 138, 121#8), (spdAddr 0 + 139, 121#8), (spdAddr 0 + 140, 121#8), (spdAddr 0 + 141, 121#8), (spdAddr 0 + 142, 121#8), (spdAddr 0 + 143, 121#8), (spdAddr 0 + 144, 121#8), (spdAddr 0 + 145, 121#8), (spdAddr 0 + 146, 121#8), (spdAddr 0 + 147, 121#8), (spdAddr 0 + 148, 121#8), (spdAddr 0 + 149, 121#8), (spdAddr 0 + 150, 121#8), (spdAddr 0 + 151, 121#8), (spdAddr 0 + 152, 121#8), (spdAddr 0 + 153, 121#8), (spdAddr 0 + 154, 121#8), (spdAddr 0 + 155, 121#8), (spdAddr 0 + 156, 121#8), (spdAddr 0 + 157, 121#8), (spdAddr 0 + 158, 121#8), (spdAddr 0 + 159, 121#8), (spdAddr 0 + 160, 121#8), (spdAddr 0 + 161, 121#8), (spdAddr 0 + 162, 121#8), (spdAddr 0 + 163, 121#8), (spdAddr 0 + 164, 121#8), (spdAddr 0 + 165, 121#8), (spdAddr 0 + 166, 121#8), (spdAddr 0 + 167, 121#8), (spdAddr 0 + 168, 121#8), (spdAddr 0 + 169, 121#8), (spdAddr 0 + 170, 121#8), (spdAddr 0 + 171, 121#8), (spdAddr 0 + 172, 121#8), (spdAddr 0 + 173, 121#8), (spdAddr 0 + 174, 121#8), (spdAddr 0 + 175, 121#8), (spdAddr 0 + 176, 121#8), (spdAddr 0 + 177, 121#8), (spdAddr 0 + 178, 121#8), (spdAddr 0 + 179, 121#8), (spdAddr 0 + 180, 121#8), (spdAddr 0 + 181, 121#8), (spdAddr 0 + 182, 121#8), (spdAddr 0 + 183, 121#8), (spdAddr 0 + 184, 121#8), (spdAddr 0 + 185, 121#8), (spdAddr 0 + 186, 121#8), (spdAddr 0 + 187, 121#8), (spdAddr 0 + 188, 121#8), (spdAddr 0 + 189, 121#8), (spdAddr 0 + 190, 121#8), (spdAddr 0 + 191, 121#8), (spdAddr 0 + 192, 121#8), (spdAddr 0 + 193, 121#8), (spdAddr 0 + 194, 121#8), (spdAddr 0 + 195, 121#8), (spdAddr 0 + 196, 121#8), (spdAddr 0 + 197, 121#8), (spdAddr 0 + 198, 121#8), (spdAddr 0 + 199, 121#8), (spdAddr 0 + 200, 121#8), (spdAddr 0 + 201, 121#8), (spdAddr 0 + 202, 121#8), (spdAddr 0 + 203, 121#8), (spdAddr 0 + 204, 121#8), (spdAddr 0 + 205, 121#8), (spdAddr 0 + 206, 121#8), (spdAddr 0 + 207, 121#8), (spdAddr 0 + 208, 121#8), (spdAddr 0 + 209, 121#8), (spdAddr 0 + 210, 121#8), (spdAddr 0 + 211, 121#8), (spdAddr 0 + 212, 121#8), (spdAddr 0 + 213, 121#8), (spdAddr 0 + 214, 121#8), (spdAddr 0 + 215, 121#8), (spdAddr 0 + 216, 121#8), (spdAddr 0 + 217, 121#8), (spdAddr 0 + 218, 121#8), (spdAddr 0 + 219, 121#8), (spdAddr 0 + 220, 121#8), (spdAddr 0 + 221, 121#8), (spdAddr 0 + 222, 121#8), (spdAddr 0 + 223, 121#8), (spdAddr 0 + 224, 121#8), (spdAddr 0 + 225, 121#8), (spdAddr 0 + 226, 121#8), (spdAddr 0 + 227, 121#8), (spdAddr 0 + 228, 121#8), (spdAddr 0 + 229, 121#8), (spdAddr 0 + 230, 121#8), (spdAddr 0 + 231, 121#8), (spdAddr 0 + 232, 121#8), (spdAddr 0 + 233, 121#8), (spdAddr 0 + 234, 121#8), (spdAddr 0 + 235, 121#8), (spdAddr 0 + 236, 121#8), (spdAddr 0 + 237, 121#8), (spdAddr 0 + 238, 121#8), (spdAddr 0 + 239, 121#8), (spdAddr 0 + 240, 121#8), (spdAddr 0 + 241, 121#8), (spdAddr 0 + 242, 121#8), (spdAddr 0 + 243, 121#8), (spdAddr 0 + 244, 121#8), (spdAddr 0 + 245, 121#8), (spdAddr 0 + 246, 121#8), (spdAddr 0 + 247, 121#8), (spdAddr 0 + 248, 121#8), (spdAddr 0 + 249, 121#8), (spdAddr 0 + 250, 121#8), (spdAddr 0 + 251, 121#8), (spdAddr 0 + 252, 121#8), (spdAddr 0 + 253, 121#8), (spdAddr 0 + 254, 121#8), (spdAddr 0 + 255, 121#8), (spdAddr 0 + 512, 122#8), (spdAddr 0 + 513, 49#8), (spdAddr 0 + 514, 15#8)], host := [(77, 4#8)], mark := [] } }), ⟨0, 0, 0, 0, 0, 9, none, false⟩, 0, 0, by decide⟩

theorem wit_DenseArrayExactProducts_2 : ∃ (n : StallId) (i : Issue) (cmd : Bytes) (s : State) (c : Cx) (u : Nat) (col : Nat),
    s.hw.cx n 0 i = some c ∧
    (TdaMac.of cmd).bad s.hw n cmd = false ∧
    s.hw.extFault c ((TdaMac.of cmd).wExt :: ((TdaMac.of cmd).aExts ++ (TdaMac.of cmd).xExts ++ (TdaMac.of cmd).ospExts) ++ (TdaMac.of cmd).outs s.hw n) = {} ∧
    s.hw.bankGate c (TdaMac.of cmd).bank (TdaMac.of cmd).op = .go ∧
    ((writesOut (TdaMac.of cmd).op = true → (s.hw.fmtGen n (TdaMac.of cmd).fmt).all (fun g => s.hw.genOk n g 0) = true)) ∧
    (TdaMac.of cmd).bsc = false ∧
    (TdaMac.of cmd).osp = false ∧
    2 ≤ (TdaMac.of cmd).op ∧
    (TdaMac.of cmd).fmt = 0 ∧
    1024 ≤ (TdaMac.of cmd).oStr ∧
    u < (TdaMac.of cmd).t ∧
    col < 256 :=
  ⟨0, { frame := 0, task := 9, pos := none, u0 := false }, [33#8, 66#8, 0#8, 4#8, 5#8] ++ zeros 12 ++ [2#8, 0#8, 0#8, 64#8] ++ zeros 12 ++ [4#8, 0#8, 0#8, 0#8, 4#8, 0#8, 0#8, 144#8, 1#8, 0#8, 0#8, 255#8, 255#8, 255#8, 255#8, 3#8] ++ zeros 15, dev (fun d => { d with stls := [(0, { slots := [(3, { gen := 1, full := true, pnext := false, reads := 1 })], regions := [(regionKey 0 9, [(0, 8192)])], banks := [(0, { owner := some (0, 9), acc := [(0, 2147483647), (1, 5)], poison := 0 })] })] }) ({ upPen with mem := { dev := [(spdAddr 0 + 0, 227#8), (spdAddr 0 + 1, 0#8), (spdAddr 0 + 2, 250#8), (spdAddr 0 + 3, 121#8), (spdAddr 0 + 4, 121#8), (spdAddr 0 + 5, 121#8), (spdAddr 0 + 6, 121#8), (spdAddr 0 + 7, 121#8), (spdAddr 0 + 8, 121#8), (spdAddr 0 + 9, 121#8), (spdAddr 0 + 10, 121#8), (spdAddr 0 + 11, 121#8), (spdAddr 0 + 12, 121#8), (spdAddr 0 + 13, 121#8), (spdAddr 0 + 14, 121#8), (spdAddr 0 + 15, 121#8), (spdAddr 0 + 16, 121#8), (spdAddr 0 + 17, 121#8), (spdAddr 0 + 18, 121#8), (spdAddr 0 + 19, 121#8), (spdAddr 0 + 20, 121#8), (spdAddr 0 + 21, 121#8), (spdAddr 0 + 22, 121#8), (spdAddr 0 + 23, 121#8), (spdAddr 0 + 24, 121#8), (spdAddr 0 + 25, 121#8), (spdAddr 0 + 26, 121#8), (spdAddr 0 + 27, 121#8), (spdAddr 0 + 28, 121#8), (spdAddr 0 + 29, 121#8), (spdAddr 0 + 30, 121#8), (spdAddr 0 + 31, 121#8), (spdAddr 0 + 32, 121#8), (spdAddr 0 + 33, 121#8), (spdAddr 0 + 34, 121#8), (spdAddr 0 + 35, 121#8), (spdAddr 0 + 36, 121#8), (spdAddr 0 + 37, 121#8), (spdAddr 0 + 38, 121#8), (spdAddr 0 + 39, 121#8), (spdAddr 0 + 40, 121#8), (spdAddr 0 + 41, 121#8), (spdAddr 0 + 42, 121#8), (spdAddr 0 + 43, 121#8), (spdAddr 0 + 44, 121#8), (spdAddr 0 + 45, 121#8), (spdAddr 0 + 46, 121#8), (spdAddr 0 + 47, 121#8), (spdAddr 0 + 48, 121#8), (spdAddr 0 + 49, 121#8), (spdAddr 0 + 50, 121#8), (spdAddr 0 + 51, 121#8), (spdAddr 0 + 52, 121#8), (spdAddr 0 + 53, 121#8), (spdAddr 0 + 54, 121#8), (spdAddr 0 + 55, 121#8), (spdAddr 0 + 56, 121#8), (spdAddr 0 + 57, 121#8), (spdAddr 0 + 58, 121#8), (spdAddr 0 + 59, 121#8), (spdAddr 0 + 60, 121#8), (spdAddr 0 + 61, 121#8), (spdAddr 0 + 62, 121#8), (spdAddr 0 + 63, 121#8), (spdAddr 0 + 64, 121#8), (spdAddr 0 + 65, 121#8), (spdAddr 0 + 66, 121#8), (spdAddr 0 + 67, 121#8), (spdAddr 0 + 68, 121#8), (spdAddr 0 + 69, 121#8), (spdAddr 0 + 70, 121#8), (spdAddr 0 + 71, 121#8), (spdAddr 0 + 72, 121#8), (spdAddr 0 + 73, 121#8), (spdAddr 0 + 74, 121#8), (spdAddr 0 + 75, 121#8), (spdAddr 0 + 76, 121#8), (spdAddr 0 + 77, 121#8), (spdAddr 0 + 78, 121#8), (spdAddr 0 + 79, 121#8), (spdAddr 0 + 80, 121#8), (spdAddr 0 + 81, 121#8), (spdAddr 0 + 82, 121#8), (spdAddr 0 + 83, 121#8), (spdAddr 0 + 84, 121#8), (spdAddr 0 + 85, 121#8), (spdAddr 0 + 86, 121#8), (spdAddr 0 + 87, 121#8), (spdAddr 0 + 88, 121#8), (spdAddr 0 + 89, 121#8), (spdAddr 0 + 90, 121#8), (spdAddr 0 + 91, 121#8), (spdAddr 0 + 92, 121#8), (spdAddr 0 + 93, 121#8), (spdAddr 0 + 94, 121#8), (spdAddr 0 + 95, 121#8), (spdAddr 0 + 96, 121#8), (spdAddr 0 + 97, 121#8), (spdAddr 0 + 98, 121#8), (spdAddr 0 + 99, 121#8), (spdAddr 0 + 100, 121#8), (spdAddr 0 + 101, 121#8), (spdAddr 0 + 102, 121#8), (spdAddr 0 + 103, 121#8), (spdAddr 0 + 104, 121#8), (spdAddr 0 + 105, 121#8), (spdAddr 0 + 106, 121#8), (spdAddr 0 + 107, 121#8), (spdAddr 0 + 108, 121#8), (spdAddr 0 + 109, 121#8), (spdAddr 0 + 110, 121#8), (spdAddr 0 + 111, 121#8), (spdAddr 0 + 112, 121#8), (spdAddr 0 + 113, 121#8), (spdAddr 0 + 114, 121#8), (spdAddr 0 + 115, 121#8), (spdAddr 0 + 116, 121#8), (spdAddr 0 + 117, 121#8), (spdAddr 0 + 118, 121#8), (spdAddr 0 + 119, 121#8), (spdAddr 0 + 120, 121#8), (spdAddr 0 + 121, 121#8), (spdAddr 0 + 122, 121#8), (spdAddr 0 + 123, 121#8), (spdAddr 0 + 124, 121#8), (spdAddr 0 + 125, 121#8), (spdAddr 0 + 126, 121#8), (spdAddr 0 + 127, 121#8), (spdAddr 0 + 128, 121#8), (spdAddr 0 + 129, 121#8), (spdAddr 0 + 130, 121#8), (spdAddr 0 + 131, 121#8), (spdAddr 0 + 132, 121#8), (spdAddr 0 + 133, 121#8), (spdAddr 0 + 134, 121#8), (spdAddr 0 + 135, 121#8), (spdAddr 0 + 136, 121#8), (spdAddr 0 + 137, 121#8), (spdAddr 0 + 138, 121#8), (spdAddr 0 + 139, 121#8), (spdAddr 0 + 140, 121#8), (spdAddr 0 + 141, 121#8), (spdAddr 0 + 142, 121#8), (spdAddr 0 + 143, 121#8), (spdAddr 0 + 144, 121#8), (spdAddr 0 + 145, 121#8), (spdAddr 0 + 146, 121#8), (spdAddr 0 + 147, 121#8), (spdAddr 0 + 148, 121#8), (spdAddr 0 + 149, 121#8), (spdAddr 0 + 150, 121#8), (spdAddr 0 + 151, 121#8), (spdAddr 0 + 152, 121#8), (spdAddr 0 + 153, 121#8), (spdAddr 0 + 154, 121#8), (spdAddr 0 + 155, 121#8), (spdAddr 0 + 156, 121#8), (spdAddr 0 + 157, 121#8), (spdAddr 0 + 158, 121#8), (spdAddr 0 + 159, 121#8), (spdAddr 0 + 160, 121#8), (spdAddr 0 + 161, 121#8), (spdAddr 0 + 162, 121#8), (spdAddr 0 + 163, 121#8), (spdAddr 0 + 164, 121#8), (spdAddr 0 + 165, 121#8), (spdAddr 0 + 166, 121#8), (spdAddr 0 + 167, 121#8), (spdAddr 0 + 168, 121#8), (spdAddr 0 + 169, 121#8), (spdAddr 0 + 170, 121#8), (spdAddr 0 + 171, 121#8), (spdAddr 0 + 172, 121#8), (spdAddr 0 + 173, 121#8), (spdAddr 0 + 174, 121#8), (spdAddr 0 + 175, 121#8), (spdAddr 0 + 176, 121#8), (spdAddr 0 + 177, 121#8), (spdAddr 0 + 178, 121#8), (spdAddr 0 + 179, 121#8), (spdAddr 0 + 180, 121#8), (spdAddr 0 + 181, 121#8), (spdAddr 0 + 182, 121#8), (spdAddr 0 + 183, 121#8), (spdAddr 0 + 184, 121#8), (spdAddr 0 + 185, 121#8), (spdAddr 0 + 186, 121#8), (spdAddr 0 + 187, 121#8), (spdAddr 0 + 188, 121#8), (spdAddr 0 + 189, 121#8), (spdAddr 0 + 190, 121#8), (spdAddr 0 + 191, 121#8), (spdAddr 0 + 192, 121#8), (spdAddr 0 + 193, 121#8), (spdAddr 0 + 194, 121#8), (spdAddr 0 + 195, 121#8), (spdAddr 0 + 196, 121#8), (spdAddr 0 + 197, 121#8), (spdAddr 0 + 198, 121#8), (spdAddr 0 + 199, 121#8), (spdAddr 0 + 200, 121#8), (spdAddr 0 + 201, 121#8), (spdAddr 0 + 202, 121#8), (spdAddr 0 + 203, 121#8), (spdAddr 0 + 204, 121#8), (spdAddr 0 + 205, 121#8), (spdAddr 0 + 206, 121#8), (spdAddr 0 + 207, 121#8), (spdAddr 0 + 208, 121#8), (spdAddr 0 + 209, 121#8), (spdAddr 0 + 210, 121#8), (spdAddr 0 + 211, 121#8), (spdAddr 0 + 212, 121#8), (spdAddr 0 + 213, 121#8), (spdAddr 0 + 214, 121#8), (spdAddr 0 + 215, 121#8), (spdAddr 0 + 216, 121#8), (spdAddr 0 + 217, 121#8), (spdAddr 0 + 218, 121#8), (spdAddr 0 + 219, 121#8), (spdAddr 0 + 220, 121#8), (spdAddr 0 + 221, 121#8), (spdAddr 0 + 222, 121#8), (spdAddr 0 + 223, 121#8), (spdAddr 0 + 224, 121#8), (spdAddr 0 + 225, 121#8), (spdAddr 0 + 226, 121#8), (spdAddr 0 + 227, 121#8), (spdAddr 0 + 228, 121#8), (spdAddr 0 + 229, 121#8), (spdAddr 0 + 230, 121#8), (spdAddr 0 + 231, 121#8), (spdAddr 0 + 232, 121#8), (spdAddr 0 + 233, 121#8), (spdAddr 0 + 234, 121#8), (spdAddr 0 + 235, 121#8), (spdAddr 0 + 236, 121#8), (spdAddr 0 + 237, 121#8), (spdAddr 0 + 238, 121#8), (spdAddr 0 + 239, 121#8), (spdAddr 0 + 240, 121#8), (spdAddr 0 + 241, 121#8), (spdAddr 0 + 242, 121#8), (spdAddr 0 + 243, 121#8), (spdAddr 0 + 244, 121#8), (spdAddr 0 + 245, 121#8), (spdAddr 0 + 246, 121#8), (spdAddr 0 + 247, 121#8), (spdAddr 0 + 248, 121#8), (spdAddr 0 + 249, 121#8), (spdAddr 0 + 250, 121#8), (spdAddr 0 + 251, 121#8), (spdAddr 0 + 252, 121#8), (spdAddr 0 + 253, 121#8), (spdAddr 0 + 254, 121#8), (spdAddr 0 + 255, 121#8), (spdAddr 0 + 512, 122#8), (spdAddr 0 + 513, 49#8), (spdAddr 0 + 514, 15#8)], host := [(77, 4#8)], mark := [] } }), ⟨0, 0, 0, 0, 0, 9, none, false⟩, 0, 1, by decide⟩

theorem wit_ArrayCommandFrames_1 : ∃ (n : StallId) (i : Issue) (cmd : Bytes) (s : State) (c : Cx),
    s.hw.cx n 0 i = some c ∧
    (TdaMac.of cmd).bad s.hw n cmd = false ∧
    s.hw.extFault c ((TdaMac.of cmd).wExt :: ((TdaMac.of cmd).aExts ++ (TdaMac.of cmd).xExts ++ (TdaMac.of cmd).ospExts) ++ (TdaMac.of cmd).outs s.hw n) = {} ∧
    s.hw.bankGate c (TdaMac.of cmd).bank (TdaMac.of cmd).op = .go ∧
    ((writesOut (TdaMac.of cmd).op = true → (s.hw.fmtGen n (TdaMac.of cmd).fmt).all (fun g => s.hw.genOk n g 0) = true)) :=
  ⟨0, { frame := 0, task := 9, pos := none, u0 := false }, [33#8, 66#8, 0#8, 4#8, 5#8] ++ zeros 12 ++ [2#8, 0#8, 0#8, 64#8] ++ zeros 12 ++ [4#8, 0#8, 0#8, 0#8, 4#8, 0#8, 0#8, 144#8, 1#8, 0#8, 0#8, 255#8, 255#8, 255#8, 255#8, 3#8] ++ zeros 15, dev (fun d => { d with stls := [(0, { slots := [(3, { gen := 1, full := true, pnext := false, reads := 1 })], regions := [(regionKey 0 9, [(0, 8192)])], banks := [(0, { owner := some (0, 9), acc := [(0, 2147483647), (1, 5)], poison := 0 })] })] }) ({ upPen with mem := { dev := [(spdAddr 0 + 0, 227#8), (spdAddr 0 + 1, 0#8), (spdAddr 0 + 2, 250#8), (spdAddr 0 + 3, 121#8), (spdAddr 0 + 4, 121#8), (spdAddr 0 + 5, 121#8), (spdAddr 0 + 6, 121#8), (spdAddr 0 + 7, 121#8), (spdAddr 0 + 8, 121#8), (spdAddr 0 + 9, 121#8), (spdAddr 0 + 10, 121#8), (spdAddr 0 + 11, 121#8), (spdAddr 0 + 12, 121#8), (spdAddr 0 + 13, 121#8), (spdAddr 0 + 14, 121#8), (spdAddr 0 + 15, 121#8), (spdAddr 0 + 16, 121#8), (spdAddr 0 + 17, 121#8), (spdAddr 0 + 18, 121#8), (spdAddr 0 + 19, 121#8), (spdAddr 0 + 20, 121#8), (spdAddr 0 + 21, 121#8), (spdAddr 0 + 22, 121#8), (spdAddr 0 + 23, 121#8), (spdAddr 0 + 24, 121#8), (spdAddr 0 + 25, 121#8), (spdAddr 0 + 26, 121#8), (spdAddr 0 + 27, 121#8), (spdAddr 0 + 28, 121#8), (spdAddr 0 + 29, 121#8), (spdAddr 0 + 30, 121#8), (spdAddr 0 + 31, 121#8), (spdAddr 0 + 32, 121#8), (spdAddr 0 + 33, 121#8), (spdAddr 0 + 34, 121#8), (spdAddr 0 + 35, 121#8), (spdAddr 0 + 36, 121#8), (spdAddr 0 + 37, 121#8), (spdAddr 0 + 38, 121#8), (spdAddr 0 + 39, 121#8), (spdAddr 0 + 40, 121#8), (spdAddr 0 + 41, 121#8), (spdAddr 0 + 42, 121#8), (spdAddr 0 + 43, 121#8), (spdAddr 0 + 44, 121#8), (spdAddr 0 + 45, 121#8), (spdAddr 0 + 46, 121#8), (spdAddr 0 + 47, 121#8), (spdAddr 0 + 48, 121#8), (spdAddr 0 + 49, 121#8), (spdAddr 0 + 50, 121#8), (spdAddr 0 + 51, 121#8), (spdAddr 0 + 52, 121#8), (spdAddr 0 + 53, 121#8), (spdAddr 0 + 54, 121#8), (spdAddr 0 + 55, 121#8), (spdAddr 0 + 56, 121#8), (spdAddr 0 + 57, 121#8), (spdAddr 0 + 58, 121#8), (spdAddr 0 + 59, 121#8), (spdAddr 0 + 60, 121#8), (spdAddr 0 + 61, 121#8), (spdAddr 0 + 62, 121#8), (spdAddr 0 + 63, 121#8), (spdAddr 0 + 64, 121#8), (spdAddr 0 + 65, 121#8), (spdAddr 0 + 66, 121#8), (spdAddr 0 + 67, 121#8), (spdAddr 0 + 68, 121#8), (spdAddr 0 + 69, 121#8), (spdAddr 0 + 70, 121#8), (spdAddr 0 + 71, 121#8), (spdAddr 0 + 72, 121#8), (spdAddr 0 + 73, 121#8), (spdAddr 0 + 74, 121#8), (spdAddr 0 + 75, 121#8), (spdAddr 0 + 76, 121#8), (spdAddr 0 + 77, 121#8), (spdAddr 0 + 78, 121#8), (spdAddr 0 + 79, 121#8), (spdAddr 0 + 80, 121#8), (spdAddr 0 + 81, 121#8), (spdAddr 0 + 82, 121#8), (spdAddr 0 + 83, 121#8), (spdAddr 0 + 84, 121#8), (spdAddr 0 + 85, 121#8), (spdAddr 0 + 86, 121#8), (spdAddr 0 + 87, 121#8), (spdAddr 0 + 88, 121#8), (spdAddr 0 + 89, 121#8), (spdAddr 0 + 90, 121#8), (spdAddr 0 + 91, 121#8), (spdAddr 0 + 92, 121#8), (spdAddr 0 + 93, 121#8), (spdAddr 0 + 94, 121#8), (spdAddr 0 + 95, 121#8), (spdAddr 0 + 96, 121#8), (spdAddr 0 + 97, 121#8), (spdAddr 0 + 98, 121#8), (spdAddr 0 + 99, 121#8), (spdAddr 0 + 100, 121#8), (spdAddr 0 + 101, 121#8), (spdAddr 0 + 102, 121#8), (spdAddr 0 + 103, 121#8), (spdAddr 0 + 104, 121#8), (spdAddr 0 + 105, 121#8), (spdAddr 0 + 106, 121#8), (spdAddr 0 + 107, 121#8), (spdAddr 0 + 108, 121#8), (spdAddr 0 + 109, 121#8), (spdAddr 0 + 110, 121#8), (spdAddr 0 + 111, 121#8), (spdAddr 0 + 112, 121#8), (spdAddr 0 + 113, 121#8), (spdAddr 0 + 114, 121#8), (spdAddr 0 + 115, 121#8), (spdAddr 0 + 116, 121#8), (spdAddr 0 + 117, 121#8), (spdAddr 0 + 118, 121#8), (spdAddr 0 + 119, 121#8), (spdAddr 0 + 120, 121#8), (spdAddr 0 + 121, 121#8), (spdAddr 0 + 122, 121#8), (spdAddr 0 + 123, 121#8), (spdAddr 0 + 124, 121#8), (spdAddr 0 + 125, 121#8), (spdAddr 0 + 126, 121#8), (spdAddr 0 + 127, 121#8), (spdAddr 0 + 128, 121#8), (spdAddr 0 + 129, 121#8), (spdAddr 0 + 130, 121#8), (spdAddr 0 + 131, 121#8), (spdAddr 0 + 132, 121#8), (spdAddr 0 + 133, 121#8), (spdAddr 0 + 134, 121#8), (spdAddr 0 + 135, 121#8), (spdAddr 0 + 136, 121#8), (spdAddr 0 + 137, 121#8), (spdAddr 0 + 138, 121#8), (spdAddr 0 + 139, 121#8), (spdAddr 0 + 140, 121#8), (spdAddr 0 + 141, 121#8), (spdAddr 0 + 142, 121#8), (spdAddr 0 + 143, 121#8), (spdAddr 0 + 144, 121#8), (spdAddr 0 + 145, 121#8), (spdAddr 0 + 146, 121#8), (spdAddr 0 + 147, 121#8), (spdAddr 0 + 148, 121#8), (spdAddr 0 + 149, 121#8), (spdAddr 0 + 150, 121#8), (spdAddr 0 + 151, 121#8), (spdAddr 0 + 152, 121#8), (spdAddr 0 + 153, 121#8), (spdAddr 0 + 154, 121#8), (spdAddr 0 + 155, 121#8), (spdAddr 0 + 156, 121#8), (spdAddr 0 + 157, 121#8), (spdAddr 0 + 158, 121#8), (spdAddr 0 + 159, 121#8), (spdAddr 0 + 160, 121#8), (spdAddr 0 + 161, 121#8), (spdAddr 0 + 162, 121#8), (spdAddr 0 + 163, 121#8), (spdAddr 0 + 164, 121#8), (spdAddr 0 + 165, 121#8), (spdAddr 0 + 166, 121#8), (spdAddr 0 + 167, 121#8), (spdAddr 0 + 168, 121#8), (spdAddr 0 + 169, 121#8), (spdAddr 0 + 170, 121#8), (spdAddr 0 + 171, 121#8), (spdAddr 0 + 172, 121#8), (spdAddr 0 + 173, 121#8), (spdAddr 0 + 174, 121#8), (spdAddr 0 + 175, 121#8), (spdAddr 0 + 176, 121#8), (spdAddr 0 + 177, 121#8), (spdAddr 0 + 178, 121#8), (spdAddr 0 + 179, 121#8), (spdAddr 0 + 180, 121#8), (spdAddr 0 + 181, 121#8), (spdAddr 0 + 182, 121#8), (spdAddr 0 + 183, 121#8), (spdAddr 0 + 184, 121#8), (spdAddr 0 + 185, 121#8), (spdAddr 0 + 186, 121#8), (spdAddr 0 + 187, 121#8), (spdAddr 0 + 188, 121#8), (spdAddr 0 + 189, 121#8), (spdAddr 0 + 190, 121#8), (spdAddr 0 + 191, 121#8), (spdAddr 0 + 192, 121#8), (spdAddr 0 + 193, 121#8), (spdAddr 0 + 194, 121#8), (spdAddr 0 + 195, 121#8), (spdAddr 0 + 196, 121#8), (spdAddr 0 + 197, 121#8), (spdAddr 0 + 198, 121#8), (spdAddr 0 + 199, 121#8), (spdAddr 0 + 200, 121#8), (spdAddr 0 + 201, 121#8), (spdAddr 0 + 202, 121#8), (spdAddr 0 + 203, 121#8), (spdAddr 0 + 204, 121#8), (spdAddr 0 + 205, 121#8), (spdAddr 0 + 206, 121#8), (spdAddr 0 + 207, 121#8), (spdAddr 0 + 208, 121#8), (spdAddr 0 + 209, 121#8), (spdAddr 0 + 210, 121#8), (spdAddr 0 + 211, 121#8), (spdAddr 0 + 212, 121#8), (spdAddr 0 + 213, 121#8), (spdAddr 0 + 214, 121#8), (spdAddr 0 + 215, 121#8), (spdAddr 0 + 216, 121#8), (spdAddr 0 + 217, 121#8), (spdAddr 0 + 218, 121#8), (spdAddr 0 + 219, 121#8), (spdAddr 0 + 220, 121#8), (spdAddr 0 + 221, 121#8), (spdAddr 0 + 222, 121#8), (spdAddr 0 + 223, 121#8), (spdAddr 0 + 224, 121#8), (spdAddr 0 + 225, 121#8), (spdAddr 0 + 226, 121#8), (spdAddr 0 + 227, 121#8), (spdAddr 0 + 228, 121#8), (spdAddr 0 + 229, 121#8), (spdAddr 0 + 230, 121#8), (spdAddr 0 + 231, 121#8), (spdAddr 0 + 232, 121#8), (spdAddr 0 + 233, 121#8), (spdAddr 0 + 234, 121#8), (spdAddr 0 + 235, 121#8), (spdAddr 0 + 236, 121#8), (spdAddr 0 + 237, 121#8), (spdAddr 0 + 238, 121#8), (spdAddr 0 + 239, 121#8), (spdAddr 0 + 240, 121#8), (spdAddr 0 + 241, 121#8), (spdAddr 0 + 242, 121#8), (spdAddr 0 + 243, 121#8), (spdAddr 0 + 244, 121#8), (spdAddr 0 + 245, 121#8), (spdAddr 0 + 246, 121#8), (spdAddr 0 + 247, 121#8), (spdAddr 0 + 248, 121#8), (spdAddr 0 + 249, 121#8), (spdAddr 0 + 250, 121#8), (spdAddr 0 + 251, 121#8), (spdAddr 0 + 252, 121#8), (spdAddr 0 + 253, 121#8), (spdAddr 0 + 254, 121#8), (spdAddr 0 + 255, 121#8), (spdAddr 0 + 512, 122#8), (spdAddr 0 + 513, 49#8), (spdAddr 0 + 514, 15#8)], host := [(77, 4#8)], mark := [] } }), ⟨0, 0, 0, 0, 0, 9, none, false⟩, by decide⟩

theorem wit_ArrayCommandFrames_2 : ∃ (n : StallId) (i : Issue) (cmd : Bytes) (s : State) (c : Cx),
    s.hw.cx n 1 i = some c ∧
    (LutAcc.of cmd).bad s.hw n cmd = false ∧
    s.hw.extFault c ((LutAcc.of cmd).tExt :: (LutAcc.of cmd).aExts ++ (LutAcc.of cmd).outs s.hw n) = {} ∧
    s.hw.bankGate c (LutAcc.of cmd).bank (LutAcc.of cmd).op = .go ∧
    ((writesOut (LutAcc.of cmd).op = true → (s.hw.fmtGen n (LutAcc.of cmd).fmt).all (fun g => s.hw.genOk n g 1) = true)) :=
  ⟨0, { frame := 0, task := 9, pos := none, u0 := false }, [34#8, 35#8, 0#8, 2#8, 4#8, 0#8, 2#8] ++ zeros 10 ++ [2#8, 0#8, 0#8, 64#8, 0#8, 0#8, 0#8, 0#8, 4#8, 0#8, 0#8, 64#8, 0#8, 0#8, 0#8, 160#8, 15#8, 0#8, 0#8, 255#8, 255#8, 255#8, 255#8, 3#8] ++ zeros 23, dev (fun d => { d with stls := [(0, { slots := [(3, { gen := 1, full := true, pnext := false, reads := 1 })], regions := [(regionKey 1 9, [(0, 8192)])] })] }) ({ upPen with mem := { dev := [(spdAddr 0 + 0, 16#8), (spdAddr 0 + 512, 228#8)], host := [(77, 4#8)], mark := [] } }), ⟨0, 0, 1, 0, 0, 9, none, false⟩, by decide⟩

theorem wit_ArrayCommandFrames_3 : ∃ (n : StallId) (i : Issue) (cmd : Bytes) (s : State) (c : Cx),
    s.hw.cx n 2 i = some c ∧
    (TseMac.of cmd).bad s.hw n cmd = false ∧
    s.hw.extFault c ((TseMac.of cmd).hdr :: (Run.tileExts { hw := s.hw, mem := s.mem } c (TseMac.of cmd) ++ (TseMac.of cmd).aExts ++ (TseMac.of cmd).sideExts) ++ (TseMac.of cmd).outs s.hw n) = {} ∧
    s.hw.bankGate c (TseMac.of cmd).bank (TseMac.of cmd).op = .go ∧
    ((writesOut (TseMac.of cmd).op = true → (s.hw.fmtGen n (TseMac.of cmd).fmt).all (fun g => s.hw.genOk n g 2) = true)) :=
  ⟨0, { frame := 0, task := 9, pos := none, u0 := false }, [35#8, 35#8, 0#8, 2#8] ++ zeros 9 ++ [8#8, 0#8, 0#8, 0#8, 2#8, 0#8, 0#8, 64#8] ++ zeros 12 ++ [4#8, 0#8, 0#8, 64#8, 0#8, 0#8, 0#8, 144#8, 1#8, 0#8, 0#8, 255#8, 255#8, 255#8, 255#8, 3#8, 0#8, 64#8, 0#8, 2#8] ++ zeros 11, dev (fun d => { d with stls := [(0, { slots := [(3, { gen := 1, full := true, pnext := false, reads := 1 })], regions := [(regionKey 2 9, [(0, 8192)])] })] }) ({ upPen with mem := { dev := [(spdAddr 0 + 512, 228#8)], host := [(77, 4#8)], mark := [] } }), ⟨0, 0, 2, 0, 0, 9, none, false⟩, by decide⟩

theorem wit_ArrayCommandFrames_4 : ∃ (n : StallId) (i : Issue) (cmd : Bytes) (s : State) (c : Cx) (outs : List Ext),
    s.hw.cx n 0 i = some c ∧
    (AnpCheck.of cmd).bad cmd = false ∧
    outs = (AnpCheck.of cmd).outs (min (s.leAt (s.hw.extAddr n 0 c.tk (AnpCheck.of cmd).list + 0x200) 2) (AnpCheck.of cmd).ng) ∧
    s.hw.extFault c ((AnpCheck.of cmd).ins ++ outs) = {} ∧
    s.hw.bankGate c (AnpCheck.of cmd).bank 3 = .go :=
  ⟨0, { frame := 0, task := 9, pos := none, u0 := false }, [36#8, 4#8, 0#8, 2#8, 5#8, 0#8, 1#8] ++ zeros 14 ++ [2#8, 0#8, 0#8, 64#8] ++ zeros 16 ++ [8#8, 0#8, 0#8, 0#8, 4#8, 0#8, 0#8, 64#8] ++ zeros 11 ++ [208#8, 7#8, 0#8, 0#8, 255#8, 255#8, 255#8, 255#8, 255#8, 255#8, 3#8] ++ zeros 57, dev (fun d => { d with stls := [(0, { slots := [(3, { gen := 1, full := true, pnext := false, reads := 1 })], regions := [(regionKey 0 9, [(0, 65536)])] })] }) ({ upPen with mem := { dev := [(spdAddr 0 + 0, 242#8), (spdAddr 0 + 1, 121#8), (spdAddr 0 + 2, 121#8), (spdAddr 0 + 3, 121#8), (spdAddr 0 + 4, 121#8), (spdAddr 0 + 5, 121#8), (spdAddr 0 + 512, 85#8), (spdAddr 0 + 513, 1#8)], host := [(77, 4#8)], mark := [] } }), ⟨0, 0, 0, 0, 0, 9, none, false⟩, (AnpCheck.of ([36#8, 4#8, 0#8, 2#8, 5#8, 0#8, 1#8] ++ zeros 14 ++ [2#8, 0#8, 0#8, 64#8] ++ zeros 16 ++ [8#8, 0#8, 0#8, 0#8, 4#8, 0#8, 0#8, 64#8] ++ zeros 11 ++ [208#8, 7#8, 0#8, 0#8, 255#8, 255#8, 255#8, 255#8, 255#8, 255#8, 3#8] ++ zeros 57)).outs 0, by decide +kernel⟩

theorem wit_TritPlaneRecombination_1 : ∃ (n : StallId) (i : Issue) (f : TritCombine) (s : State) (c : Cx) (u : Nat) (col : Nat),
    s.hw.cx n 4 i = some c ∧
    combineBad f s.hw n = false ∧
    s.hw.extFault c (((List.range f.planes).flatMap fun j => rowExts f.inRegion (f.inOff + j * f.planeStride) f.inStride (f.tM1 + 1) (4 * f.n)) ++
        s.hw.outExts n f.outFmt f.oRegion f.oOff f.oStride (f.tM1 + 1) f.n) = {} ∧
    f.outFmt = 0 ∧
    ((f.tM1 = 0 ∨ 4 * f.n ≤ f.oStride)) ∧
    u ≤ f.tM1 ∧
    col < f.n :=
  ⟨0, { frame := 0, task := 9, pos := none, u0 := false }, { tM1 := 0, planes := 3, n := 2, inRegion := 0, oRegion := 0, outFmt := 0, inOff := 0, inStride := 64, planeStride := 64, oOff := 1024, oStride := 64, boundCyc := 400, slotIn := 0xFFFF, slotOut := 3 }, dev (fun d => { d with stls := [(0, { slots := [(3, { gen := 1, full := true, pnext := false, reads := 1 })], regions := [(regionKey 4 9, [(0, 8192)])] })] }) ({ upPen with mem := { dev := [(spdAddr 0 + 0, 7#8), (spdAddr 0 + 4, 9#8), (spdAddr 0 + 64, 255#8), (spdAddr 0 + 65, 255#8), (spdAddr 0 + 66, 255#8), (spdAddr 0 + 67, 255#8), (spdAddr 0 + 131, 64#8)], host := [(77, 4#8)], mark := [] } }), ⟨0, 0, 4, 0, 0, 9, none, false⟩, 0, 0, by decide⟩

theorem wit_TritPlaneRecombination_2 : ∃ (n : StallId) (i : Issue) (f : TritCombine) (s : State) (c : Cx),
    s.hw.cx n 4 i = some c ∧
    combineBad f s.hw n = false ∧
    (s.hw.fmtGen n f.outFmt).all (fun g => s.hw.genOk n g 4) = true ∧
    s.hw.extFault c (((List.range f.planes).flatMap fun j => rowExts f.inRegion (f.inOff + j * f.planeStride) f.inStride (f.tM1 + 1) (4 * f.n)) ++
        s.hw.outExts n f.outFmt f.oRegion f.oOff f.oStride (f.tM1 + 1) f.n) = {} :=
  ⟨0, { frame := 0, task := 9, pos := none, u0 := false }, { tM1 := 0, planes := 3, n := 2, inRegion := 0, oRegion := 0, outFmt := 0, inOff := 0, inStride := 64, planeStride := 64, oOff := 1024, oStride := 64, boundCyc := 400, slotIn := 0xFFFF, slotOut := 3 }, dev (fun d => { d with stls := [(0, { slots := [(3, { gen := 1, full := true, pnext := false, reads := 1 })], regions := [(regionKey 4 9, [(0, 8192)])] })] }) ({ upPen with mem := { dev := [(spdAddr 0 + 0, 7#8), (spdAddr 0 + 67, 192#8), (spdAddr 0 + 131, 64#8)], host := [(77, 4#8)], mark := [] } }), ⟨0, 0, 4, 0, 0, 9, none, false⟩, by decide⟩

theorem wit_VectorAndRoutingCommands_1 : ∃ (n : StallId) (i : Issue) (cmd : Bytes) (s : State) (c : Cx),
    s.hw.cx n 3 i = some c ∧
    (LnuOp.of cmd).bad s.hw n cmd = false ∧
    (s.hw.fmtGen n (LnuOp.of cmd).fmt).all (fun g => s.hw.genOk n g 3) = true ∧
    s.hw.extFault c (((LnuOp.of cmd).aExts ++ (LnuOp.of cmd).bExts ++ (if (LnuOp.of cmd).func = 0 ∧ (LnuOp.of cmd).accIn = true then rowExts (LnuOp.of cmd).oReg (LnuOp.of cmd).oOff (LnuOp.of cmd).oStr (LnuOp.of cmd).t (4 * (LnuOp.of cmd).c) else [])) ++ s.hw.outExts n (LnuOp.of cmd).fmt (LnuOp.of cmd).oReg (LnuOp.of cmd).oOff (LnuOp.of cmd).oStr (LnuOp.of cmd).t (LnuOp.of cmd).outCols) = {} :=
  ⟨0, { frame := 0, task := 9, pos := none, u0 := false }, [49#8, 4#8, 0#8, 0#8, 1#8, 0#8, 2#8] ++ zeros 9 ++ [64#8, 0#8, 0#8, 0#8, 0#8, 2#8, 0#8, 0#8, 64#8, 0#8, 0#8, 0#8, 0#8, 4#8, 0#8, 0#8, 64#8, 0#8, 0#8, 0#8, 144#8, 1#8, 0#8, 0#8, 0#8, 0#8, 0#8, 64#8, 255#8, 255#8, 0#8, 0#8, 255#8, 255#8, 255#8, 255#8, 3#8] ++ zeros 11, dev (fun d => { d with stls := [(0, { slots := [(3, { gen := 1, full := true, pnext := false, reads := 1 })], regions := [(regionKey 3 9, [(0, 8192)])] })] }) ({ upPen with mem := { dev := [(spdAddr 0 + 1, 18#8), (spdAddr 0 + 3, 64#8), (spdAddr 0 + 512, 7#8), (spdAddr 0 + 513, 133#8)], host := [(77, 4#8)], mark := [] } }), ⟨0, 0, 3, 0, 0, 9, none, false⟩, by decide⟩

theorem wit_VectorAndRoutingCommands_2 : ∃ (n : StallId) (i : Issue) (cmd : Bytes) (s : State) (c : Cx),
    s.hw.cx n 4 i = some c ∧
    (RouteTopk.of cmd).bad cmd = false ∧
    s.hw.extFault c (rowExts (RouteTopk.of cmd).sReg (RouteTopk.of cmd).sOff (RouteTopk.of cmd).sStr (RouteTopk.of cmd).t (4 * (RouteTopk.of cmd).e) ++ [⟨(RouteTopk.of cmd).lReg, (RouteTopk.of cmd).lOff, 34816⟩]) = {} :=
  ⟨0, { frame := 0, task := 9, pos := none, u0 := false }, [70#8, 2#8, 0#8, 0#8, 4#8, 0#8, 4#8] ++ zeros 9 ++ [64#8, 0#8, 0#8, 0#8, 0#8, 4#8, 0#8, 0#8, 0#8, 0#8, 0#8, 0#8, 144#8, 1#8, 0#8, 0#8, 255#8, 255#8, 3#8] ++ zeros 29, dev (fun d => { d with stls := [(0, { slots := [(3, { gen := 1, full := true, pnext := false, reads := 1 })], regions := [(regionKey 4 9, [(0, 65536)])] })] }) ({ upPen with mem := { dev := [(spdAddr 0 + 0, 5#8), (spdAddr 0 + 4, 9#8), (spdAddr 0 + 8, 1#8)], host := [(77, 4#8)], mark := [] } }), ⟨0, 0, 4, 0, 0, 9, none, false⟩, by decide +kernel⟩

theorem wit_VectorAndRoutingCommands_3 : ∃ (n : StallId) (i : Issue) (cmd : Bytes) (s : State) (c : Cx) (tk : Nat) (ng : Nat) (mx : Nat),
    s.hw.cx n 4 i = some c ∧
    cmd.length = 64 ∧
    zeroAt cmd 1 1 = true ∧
    zeroAt cmd 3 1 = true ∧
    zeroAt cmd 0xA 2 = true ∧
    zeroAt cmd 0x24 28 = true ∧
    tk = fld cmd 2 1 + 1 ∧
    tk ≤ 64 ∧
    ng = fld cmd 4 2 ∧
    0 < ng ∧
    ng ≤ 4096 ∧
    mx = fld cmd 6 2 ∧
    mx ≤ ng ∧
    fld cmd 8 1 ≤ 7 ∧
    fld cmd 9 1 ≤ 7 ∧
    fld cmd 0xC 4 % 64 = 0 ∧
    fld cmd 0x10 4 % 64 = 0 ∧
    4 * ng ≤ fld cmd 0x10 4 ∧
    fld cmd 0x14 4 % 64 = 0 ∧
    fld cmd 0x1C 4 ≤ 52000 ∧
    16 + cdiv (tk * ng) 256 + cdiv ng 128 ≤ fld cmd 0x1C 4 ∧
    s.hw.extFault c (rowExts (fld cmd 8 1) (fld cmd 0xC 4) (fld cmd 0x10 4) tk (4 * ng) ++ [⟨fld cmd 9 1, fld cmd 0x14 4, 8768⟩]) = {} :=
  ⟨0, { frame := 0, task := 9, pos := none, u0 := false }, [71#8, 0#8, 0#8, 0#8, 4#8, 0#8, 2#8] ++ zeros 9 ++ [64#8, 0#8, 0#8, 0#8, 0#8, 4#8, 0#8, 0#8, 5#8, 0#8, 0#8, 0#8, 144#8, 1#8, 0#8, 0#8, 255#8, 255#8, 3#8] ++ zeros 29, dev (fun d => { d with stls := [(0, { slots := [(3, { gen := 1, full := true, pnext := false, reads := 1 })], regions := [(regionKey 4 9, [(0, 65536)])] })] }) ({ upPen with mem := { dev := [(spdAddr 0 + 0, 5#8), (spdAddr 0 + 4, 9#8), (spdAddr 0 + 8, 1#8), (spdAddr 0 + 12, 7#8)], host := [(77, 4#8)], mark := [] } }), ⟨0, 0, 4, 0, 0, 9, none, false⟩, 1, 4, 2, by decide +kernel⟩

theorem wit_VectorAndRoutingCommands_4 : ∃ (n : StallId) (i : Issue) (cmd : Bytes) (s : State) (c : Cx) (j : Nat) (d : Nat),
    s.hw.cx n 4 i = some c ∧
    ternariseBad cmd = false ∧
    s.hw.extFault c [⟨fld cmd 2 1, fld cmd 8 4, 10 * fld cmd 4 4⟩, ⟨fld cmd 3 1, fld cmd 0xC 4, fld cmd 4 4⟩] = {} ∧
    j < fld cmd 4 4 ∧
    d < 5 :=
  ⟨0, { frame := 0, task := 9, pos := none, u0 := false }, [72#8, 0#8, 0#8, 0#8, 3#8] ++ zeros 8 ++ [4#8, 0#8, 0#8, 0#8, 0#8, 0#8, 0#8, 144#8, 1#8, 0#8, 0#8, 255#8, 255#8, 3#8] ++ zeros 37, dev (fun d => { d with stls := [(0, { slots := [(3, { gen := 1, full := true, pnext := false, reads := 1 })], regions := [(regionKey 4 9, [(0, 8192)])] })] }) ({ upPen with mem := { dev := [(spdAddr 0 + 0, 0#8), (spdAddr 0 + 1, 64#8), (spdAddr 0 + 2, 5#8), (spdAddr 0 + 3, 129#8), (spdAddr 0 + 5, 1#8)], host := [(77, 4#8)], mark := [] } }), ⟨0, 0, 4, 0, 0, 9, none, false⟩, 0, 1, by decide⟩

theorem wit_DescriptorLoad_1 : ∃ (n : StallId) (i : Issue) (f : CvdLoad) (s : State) (c : Cx),
    s.hw.cx n 4 i = some c ∧
    f.index ≤ 15 ∧
    f.region ≤ 7 ∧
    s.hw.extFault c [⟨f.region, f.off, 32⟩] = {} :=
  ⟨0, { frame := 0, task := 9, pos := none, u0 := false }, { index := 4, region := 0, off := 128 }, dev (fun d => { d with stls := [(0, { slots := [], regions := [(regionKey 4 9, [(0, 8192)])] })] }) (mem1 upPen), ⟨0, 0, 4, 0, 0, 9, none, false⟩, by decide⟩

theorem wit_DescriptorLoad_2 : ∃ (n : StallId) (i : Issue) (f : CvdLoad) (s : State) (c : Cx),
    s.hw.cx n 4 i = some c ∧
    ((15 < f.index ∨ 7 < f.region)) :=
  ⟨0, { frame := 0, task := 9, pos := none, u0 := false }, { index := 15, region := 8, off := 128 }, dev (fun d => { d with stls := [(0, { slots := [], regions := [(regionKey 4 9, [(0, 8192)])] })] }) (mem1 upPen), ⟨0, 0, 4, 0, 0, 9, none, false⟩, by decide⟩

theorem wit_GeneratorBinding_1 : ∃ (n : StallId) (i : Issue) (cmd : Bytes) (s : State) (c : Cx) (g : Nat) (lo : Nat),
    s.hw.cx n 4 i = some c ∧
    fld cmd 1 1 = g ∧
    ((∀ b, Tbl.find? g (s.hw.stl n).gens = some b → b.fromCtx = false)) ∧
    lo = (if bit (fld cmd 3 1) 1 = true then Run.recGet { hw := s.hw, mem := s.mem } c.p (fld cmd 4 2) 0x28 8 else fld cmd 0x10 8) ∧
    genBindBad cmd lo = false ∧
    s.hw.extFault c [⟨fld cmd 6 1, fld cmd 8 4, 16⟩] = {} ∧
    (s.hw.pen c.p).ledger.length < 2048 ∧
    (s.hw.pen c.p).ledger.any (ledgerClash ((List.range 16).map fun j => s.devByte (s.hw.extAddr n 4 c.tk ⟨fld cmd 6 1, fld cmd 8 4, 0⟩ + j)) lo (lo + fld cmd 0xC 4) (bit (fld cmd 3 1) 0)) = false :=
  ⟨0, { frame := 0, task := 9, pos := none, u0 := false }, [68#8, 2#8, 3#8, 0#8, 0#8, 0#8, 0#8, 0#8, 64#8, 0#8, 0#8, 0#8, 5#8, 0#8, 0#8, 0#8, 100#8, 0#8, 0#8, 0#8, 0#8, 0#8, 0#8, 0#8, 144#8, 1#8] ++ zeros 38, (reg R.GEN_STATE_BOUND 2 1 (dev (fun d => { d with stls := [(0, { slots := [], regions := [(regionKey 4 9, [(0, 8192)])], gens := [(2, ⟨3, false, false, 0, [], 7, 9, 0, 9⟩)] })] }) (mem1 upPen))), ⟨0, 0, 4, 0, 0, 9, none, false⟩, 2, 100, by decide⟩

theorem wit_GeneratorBinding_2 : ∃ (n : StallId) (i : Issue) (cmd : Bytes) (s : State) (c : Cx) (g : Nat) (lo : Nat),
    s.hw.cx n 4 i = some c ∧
    fld cmd 1 1 = g ∧
    ((∀ b, Tbl.find? g (s.hw.stl n).gens = some b → b.fromCtx = false)) ∧
    lo = (if bit (fld cmd 3 1) 1 = true then Run.recGet { hw := s.hw, mem := s.mem } c.p (fld cmd 4 2) 0x28 8 else fld cmd 0x10 8) ∧
    genBindBad cmd lo = false ∧
    s.hw.extFault c [⟨fld cmd 6 1, fld cmd 8 4, 16⟩] = {} ∧
    (s.hw.pen c.p).ledger.any (ledgerClash ((List.range 16).map fun j => s.devByte (s.hw.extAddr n 4 c.tk ⟨fld cmd 6 1, fld cmd 8 4, 0⟩ + j)) lo (lo + fld cmd 0xC 4) (bit (fld cmd 3 1) 0)) = true :=
  ⟨0, { frame := 0, task := 9, pos := none, u0 := false }, [68#8, 2#8, 3#8, 0#8, 0#8, 0#8, 0#8, 0#8, 64#8, 0#8, 0#8, 0#8, 5#8, 0#8, 0#8, 0#8, 100#8, 0#8, 0#8, 0#8, 0#8, 0#8, 0#8, 0#8, 144#8, 1#8] ++ zeros 38, (fun s : State => { s with hw := s.hw.modPen 0 fun ps => { ps with ledger := [(2#8 :: zeros 15, 104, 105, true)] } }) (reg R.GEN_STATE_BOUND 2 1 (dev (fun d => { d with stls := [(0, { slots := [], regions := [(regionKey 4 9, [(0, 8192)])], gens := [(2, ⟨3, false, false, 0, [], 7, 9, 0, 9⟩)] })] }) (mem1 upPen))), ⟨0, 0, 4, 0, 0, 9, none, false⟩, 2, 100, by decide⟩

theorem wit_GeneratorBinding_3 : ∃ (n : StallId) (i : Issue) (cmd : Bytes) (s : State) (c : Cx) (g : Nat) (lo : Nat),
    s.hw.cx n 4 i = some c ∧
    fld cmd 1 1 = g ∧
    ((∀ b, Tbl.find? g (s.hw.stl n).gens = some b → b.fromCtx = false)) ∧
    lo = (if bit (fld cmd 3 1) 1 = true then Run.recGet { hw := s.hw, mem := s.mem } c.p (fld cmd 4 2) 0x28 8 else fld cmd 0x10 8) ∧
    genBindBad cmd lo = false ∧
    s.hw.extFault c [⟨fld cmd 6 1, fld cmd 8 4, 16⟩] = {} ∧
    2048 ≤ (s.hw.pen c.p).ledger.length ∧
    (s.hw.pen c.p).ledger.any (ledgerClash ((List.range 16).map fun j => s.devByte (s.hw.extAddr n 4 c.tk ⟨fld cmd 6 1, fld cmd 8 4, 0⟩ + j)) lo (lo + fld cmd 0xC 4) (bit (fld cmd 3 1) 0)) = false :=
  ⟨0, { frame := 0, task := 9, pos := none, u0 := false }, [68#8, 2#8, 3#8, 0#8, 0#8, 0#8, 0#8, 0#8, 64#8, 0#8, 0#8, 0#8, 5#8, 0#8, 0#8, 0#8, 100#8, 0#8, 0#8, 0#8, 0#8, 0#8, 0#8, 0#8, 144#8, 1#8] ++ zeros 38, (fun s : State => { s with hw := s.hw.modPen 0 fun ps => { ps with ledger := List.replicate 2048 ([], 0, 0, false) } }) (reg R.GEN_STATE_BOUND 2 1 (dev (fun d => { d with stls := [(0, { slots := [], regions := [(regionKey 4 9, [(0, 8192)])], gens := [(2, ⟨3, false, false, 0, [], 7, 9, 0, 9⟩)] })] }) (mem1 upPen))), ⟨0, 0, 4, 0, 0, 9, none, false⟩, 2, 100, by decide +kernel⟩

theorem wit_GeneratorBinding_4 : ∃ (n : StallId) (i : Issue) (cmd : Bytes) (s : State) (c : Cx) (g : Nat) (b : GenBind),
    s.hw.cx n 4 i = some c ∧
    fld cmd 1 1 = g ∧
    Tbl.find? g (s.hw.stl n).gens = some b ∧
    b.fromCtx = true ∧
    b.next < 2 ^ 64 ∧
    ((granulesOf (s.hw.recAddr c.p b.ctx) 64).any s.hw.deadGranule) = false ∧
    bit (fld cmd 3 1) 1 = true ∧
    fld cmd 4 2 = b.ctx ∧
    genBindBad cmd b.next = false ∧
    s.hw.extFault c [⟨fld cmd 6 1, fld cmd 8 4, 16⟩] = {} ∧
    (s.hw.pen c.p).ledger = [] :=
  ⟨0, { frame := 0, task := 9, pos := none, u0 := false }, [68#8, 2#8, 3#8, 2#8, 4#8, 0#8, 0#8, 0#8, 64#8, 0#8, 0#8, 0#8, 5#8] ++ zeros 11 ++ [144#8, 1#8] ++ zeros 38, (reg R.GEN_STATE_BOUND 2 1 (dev (fun d => { d with stls := [(0, { slots := [], regions := [(regionKey 4 9, [(0, 8192)])], gens := [(2, ⟨3, false, true, 4, [], 7, 9, 0, 9⟩)] })] }) (mem1 upPen))), ⟨0, 0, 4, 0, 0, 9, none, false⟩, 2, ⟨3, false, true, 4, [], 7, 9, 0, 9⟩, by decide +kernel⟩

theorem wit_GeneratorBinding_5 : ∃ (n : StallId) (i : Issue) (cmd : Bytes) (s : State) (c : Cx) (g : Nat) (lo : Nat),
    s.hw.cx n 4 i = some c ∧
    fld cmd 1 1 = g ∧
    ((∀ b, Tbl.find? g (s.hw.stl n).gens = some b → b.fromCtx = false)) ∧
    lo = (if bit (fld cmd 3 1) 1 = true then Run.recGet { hw := s.hw, mem := s.mem } c.p (fld cmd 4 2) 0x28 8 else fld cmd 0x10 8) ∧
    genBindBad cmd lo = true :=
  ⟨0, { frame := 0, task := 9, pos := none, u0 := false }, [68#8, 2#8, 3#8, 0#8, 0#8, 0#8, 0#8, 0#8, 64#8, 0#8, 0#8, 0#8, 0#8, 0#8, 0#8, 0#8, 100#8, 0#8, 0#8, 0#8, 0#8, 0#8, 0#8, 0#8, 144#8, 1#8] ++ zeros 38, (reg R.GEN_STATE_BOUND 2 1 (dev (fun d => { d with stls := [(0, { slots := [], regions := [(regionKey 4 9, [(0, 8192)])], gens := [(2, ⟨3, false, false, 0, [], 7, 9, 0, 9⟩)] })] }) (mem1 upPen))), ⟨0, 0, 4, 0, 0, 9, none, false⟩, 2, 100, by decide⟩

theorem wit_GeneratorRelease_1 : ∃ (n : StallId) (i : Issue) (g : Nat) (s : State) (c : Cx) (b : GenBind),
    s.hw.cx n 4 i = some c ∧
    g ≤ 7 ∧
    Tbl.find? g (s.hw.stl n).gens = some b ∧
    b.fromCtx = false :=
  ⟨0, { frame := 0, task := 9, pos := none, u0 := false }, 2, (reg R.GEN_STATE_BOUND 2 1 (dev (fun d => { d with stls := [(0, { slots := [], regions := [(regionKey 4 9, [(0, 8192)])], gens := [(2, ⟨3, false, false, 0, [], 7, 9, 0, 9⟩)] })] }) (mem1 upPen))), ⟨0, 0, 4, 0, 0, 9, none, false⟩, ⟨3, false, false, 0, [], 7, 9, 0, 9⟩, by decide⟩

theorem wit_GeneratorRelease_2 : ∃ (n : StallId) (i : Issue) (g : Nat) (s : State) (c : Cx) (b : GenBind),
    s.hw.cx n 4 i = some c ∧
    g ≤ 7 ∧
    Tbl.find? g (s.hw.stl n).gens = some b ∧
    b.fromCtx = true ∧
    ((granulesOf (s.hw.recAddr c.p b.ctx) 64).any s.hw.deadGranule) = false :=
  ⟨0, { frame := 0, task := 9, pos := none, u0 := false }, 2, (reg R.GEN_STATE_BOUND 2 1 (dev (fun d => { d with stls := [(0, { slots := [], regions := [(regionKey 4 9, [(0, 8192)])], gens := [(2, ⟨3, false, true, 4, [], 7, 9, 0, 9⟩)] })] }) (mem1 upPen))), ⟨0, 0, 4, 0, 0, 9, none, false⟩, ⟨3, false, true, 4, [], 7, 9, 0, 9⟩, by decide +kernel⟩

theorem wit_GeneratorRelease_3 : ∃ (n : StallId) (i : Issue) (g : Nat) (s : State) (c : Cx),
    s.hw.cx n 4 i = some c ∧
    g ≤ 7 ∧
    Tbl.find? g (s.hw.stl n).gens = none :=
  ⟨0, { frame := 0, task := 9, pos := none, u0 := false }, 3, (reg R.GEN_STATE_BOUND 2 1 (dev (fun d => { d with stls := [(0, { slots := [], regions := [(regionKey 4 9, [(0, 8192)])], gens := [(2, ⟨3, false, false, 0, [], 7, 9, 0, 9⟩)] })] }) (mem1 upPen))), ⟨0, 0, 4, 0, 0, 9, none, false⟩, by decide⟩

theorem wit_GeneratorRelease_4 : ∃ (n : StallId) (i : Issue) (g : Nat) (s : State) (c : Cx),
    s.hw.cx n 4 i = some c ∧
    7 < g :=
  ⟨0, { frame := 0, task := 9, pos := none, u0 := false }, 8, (reg R.GEN_STATE_BOUND 2 1 (dev (fun d => { d with stls := [(0, { slots := [], regions := [(regionKey 4 9, [(0, 8192)])], gens := [(2, ⟨3, false, false, 0, [], 7, 9, 0, 9⟩)] })] }) (mem1 upPen))), ⟨0, 0, 4, 0, 0, 9, none, false⟩, by decide⟩

theorem wit_Sampling_1 : ∃ (n : StallId) (i : Issue) (cmd : Bytes) (s : State) (c : Cx),
    s.hw.cx n 5 i = some c ∧
    (Smp.of cmd).bad cmd = false ∧
    s.hw.extFault c [(Smp.of cmd).logits, (Smp.of cmd).entry, (Smp.of cmd).mask, (Smp.of cmd).ctx, (Smp.of cmd).out] = {} ∧
    bit (s.leAt (s.hw.extAddr n 5 c.tk (Smp.of cmd).entry + 3) 1) 1 = false :=
  ⟨0, { frame := 0, task := 9, pos := none, u0 := false }, [97#8, 0#8, 0#8, 0#8, 4#8] ++ zeros 12 ++ [8#8, 0#8, 0#8, 0#8, 16#8, 0#8, 0#8, 0#8, 4#8, 0#8, 0#8, 0#8, 2#8, 0#8, 0#8, 144#8, 1#8, 0#8, 0#8, 255#8, 255#8, 255#8, 255#8, 3#8] ++ zeros 23, dev (fun d => { d with stls := [(0, { slots := [(3, { gen := 1, full := true, pnext := false, reads := 1 })], regions := [(regionKey 5 9, [(0, 8192)])] })] }) ({ upPen with mem := { dev := [(spdAddr 0 + 0, 5#8)], host := [(77, 4#8)], mark := [] } }), ⟨0, 0, 5, 0, 0, 9, none, false⟩, by decide⟩

theorem wit_Sampling_2 : ∃ (n : StallId) (i : Issue) (cmd : Bytes) (s : State) (c : Cx),
    s.hw.cx n 5 i = some c ∧
    (Smp.of cmd).bad cmd = false ∧
    s.hw.extFault c [(Smp.of cmd).logits, (Smp.of cmd).entry, (Smp.of cmd).mask, (Smp.of cmd).ctx, (Smp.of cmd).out] = {} ∧
    bit (s.leAt (s.hw.extAddr n 5 c.tk (Smp.of cmd).entry + 3) 1) 1 = true ∧
    s.leAt (s.hw.extAddr n 5 c.tk (Smp.of cmd).entry + 0xC) 2 = 0xFFFF ∧
    s.leAt (s.hw.extAddr n 5 c.tk (Smp.of cmd).entry + 0x10) 2 = 0x4000 :=
  ⟨0, { frame := 0, task := 9, pos := none, u0 := false }, [97#8, 0#8, 0#8, 0#8, 4#8] ++ zeros 12 ++ [8#8, 0#8, 0#8, 0#8, 16#8, 0#8, 0#8, 0#8, 4#8, 0#8, 0#8, 0#8, 2#8, 0#8, 0#8, 144#8, 1#8, 0#8, 0#8, 255#8, 255#8, 255#8, 255#8, 3#8] ++ zeros 23, dev (fun d => { d with stls := [(0, { slots := [(3, { gen := 1, full := true, pnext := false, reads := 1 })], regions := [(regionKey 5 9, [(0, 8192)])] })] }) ({ upPen with mem := { dev := [(spdAddr 0 + 0, 5#8), (spdAddr 0 + 2, 9#8), (spdAddr 0 + 4, 9#8), (spdAddr 0 + 6, 8#8), (spdAddr 0 + 2051, 2#8), (spdAddr 0 + 2060, 255#8), (spdAddr 0 + 2061, 255#8), (spdAddr 0 + 2065, 64#8)], host := [(77, 4#8)], mark := [] } }), ⟨0, 0, 5, 0, 0, 9, none, false⟩, by decide⟩

theorem wit_Sampling_3 : ∃ (n : StallId) (i : Issue) (cmd : Bytes) (s : State) (c : Cx),
    s.hw.cx n 5 i = some c ∧
    (Smp.of cmd).bad cmd = false ∧
    s.hw.extFault c [(Smp.of cmd).logits, (Smp.of cmd).entry, (Smp.of cmd).mask, (Smp.of cmd).ctx, (Smp.of cmd).out] = {} ∧
    bit (s.leAt (s.hw.extAddr n 5 c.tk (Smp.of cmd).entry + 3) 1) 1 = true ∧
    s.leAt (s.hw.extAddr n 5 c.tk (Smp.of cmd).entry + 0xC) 2 = 0xFFFF ∧
    s.leAt (s.hw.extAddr n 5 c.tk (Smp.of cmd).entry + 0x10) 2 ≠ 0x4000 ∧
    s.hw.genOk n (Smp.of cmd).gen 5 = true :=
  ⟨0, { frame := 0, task := 9, pos := none, u0 := false }, [97#8, 0#8, 0#8, 0#8, 4#8] ++ zeros 12 ++ [8#8, 0#8, 0#8, 0#8, 16#8, 0#8, 0#8, 0#8, 4#8, 0#8, 0#8, 0#8, 2#8, 0#8, 0#8, 144#8, 1#8, 0#8, 0#8, 255#8, 255#8, 255#8, 255#8, 3#8] ++ zeros 23, dev (fun d => { d with stls := [(0, { slots := [(3, { gen := 1, full := true, pnext := false, reads := 1 })], regions := [(regionKey 5 9, [(0, 8192)])], gens := [(0, ⟨5, false, false, 0, zeros 16, 7, 9, 0, 9⟩)] })] }) ({ upPen with mem := { dev := [(spdAddr 0 + 0, 5#8), (spdAddr 0 + 2, 9#8), (spdAddr 0 + 4, 9#8), (spdAddr 0 + 6, 8#8), (spdAddr 0 + 2051, 2#8), (spdAddr 0 + 2060, 255#8), (spdAddr 0 + 2061, 255#8)], host := [(77, 4#8)], mark := [] } }), ⟨0, 0, 5, 0, 0, 9, none, false⟩, by decide⟩

theorem wit_Sampling_4 : ∃ (n : StallId) (i : Issue) (cmd : Bytes) (s : State) (c : Cx),
    s.hw.cx n 5 i = some c ∧
    (Smp.of cmd).bad cmd = false ∧
    s.hw.extFault c [(Smp.of cmd).logits, (Smp.of cmd).entry, (Smp.of cmd).mask, (Smp.of cmd).ctx, (Smp.of cmd).out] = {} ∧
    bit (s.leAt (s.hw.extAddr n 5 c.tk (Smp.of cmd).entry + 3) 1) 1 = true ∧
    s.leAt (s.hw.extAddr n 5 c.tk (Smp.of cmd).entry + 0xC) 2 ≠ 0xFFFF ∧
    s.leAt (s.hw.extAddr n 5 c.tk (Smp.of cmd).mask) 4 ≠ 0x4B534D4B :=
  ⟨0, { frame := 0, task := 9, pos := none, u0 := false }, [97#8, 0#8, 0#8, 0#8, 4#8] ++ zeros 12 ++ [8#8, 0#8, 0#8, 0#8, 16#8, 0#8, 0#8, 0#8, 4#8, 0#8, 0#8, 0#8, 2#8, 0#8, 0#8, 144#8, 1#8, 0#8, 0#8, 255#8, 255#8, 255#8, 255#8, 3#8] ++ zeros 23, dev (fun d => { d with stls := [(0, { slots := [(3, { gen := 1, full := true, pnext := false, reads := 1 })], regions := [(regionKey 5 9, [(0, 8192)])] })] }) ({ upPen with mem := { dev := [(spdAddr 0 + 0, 5#8), (spdAddr 0 + 2051, 2#8)], host := [(77, 4#8)], mark := [] } }), ⟨0, 0, 5, 0, 0, 9, none, false⟩, by decide⟩

theorem wit_Sampling_5 : ∃ (n : StallId) (i : Issue) (cmd : Bytes) (s : State) (c : Cx) (off : Nat),
    s.hw.cx n 5 i = some c ∧
    (Smp.of cmd).bad cmd = false ∧
    s.hw.extFault c [(Smp.of cmd).logits, (Smp.of cmd).entry, (Smp.of cmd).mask, (Smp.of cmd).ctx, (Smp.of cmd).out] = {} ∧
    bit (s.leAt (s.hw.extAddr n 5 c.tk (Smp.of cmd).entry + 3) 1) 1 = true ∧
    s.leAt (s.hw.extAddr n 5 c.tk (Smp.of cmd).entry + 0xC) 2 ≠ 0xFFFF ∧
    s.leAt (s.hw.extAddr n 5 c.tk (Smp.of cmd).mask) 4 = 0x4B534D4B ∧
    s.leAt ((s.hw.extAddr n 5 c.tk (Smp.of cmd).mask) + 8) 4 = (Smp.of cmd).v ∧
    (s.leAt (s.hw.extAddr n 5 c.tk (Smp.of cmd).entry + 0xC) 2) < s.leAt ((s.hw.extAddr n 5 c.tk (Smp.of cmd).mask) + 4) 2 ∧
    s.leAt ((s.hw.extAddr n 5 c.tk (Smp.of cmd).mask) + 16 + 16 * (s.leAt (s.hw.extAddr n 5 c.tk (Smp.of cmd).entry + 0xC) 2)) 1 = 1 ∧
    off = s.leAt ((s.hw.extAddr n 5 c.tk (Smp.of cmd).mask) + 16 + 16 * (s.leAt (s.hw.extAddr n 5 c.tk (Smp.of cmd).entry + 0xC) 2) + 4) 4 ∧
    s.leAt (s.hw.extAddr n 5 c.tk (Smp.of cmd).entry + 0x10) 2 = 0x4000 ∧
    (∃ k, k < (Smp.of cmd).v ∧ (s.leAt ((s.hw.extAddr n 5 c.tk (Smp.of cmd).mask) + off) (cdiv (Smp.of cmd).v 8)).testBit k = true) :=
  ⟨0, { frame := 0, task := 9, pos := none, u0 := false }, [97#8, 0#8, 0#8, 0#8, 4#8] ++ zeros 12 ++ [8#8, 0#8, 0#8, 0#8, 16#8, 0#8, 0#8, 0#8, 4#8, 0#8, 0#8, 0#8, 2#8, 0#8, 0#8, 144#8, 1#8, 0#8, 0#8, 255#8, 255#8, 255#8, 255#8, 3#8] ++ zeros 23, dev (fun d => { d with stls := [(0, { slots := [(3, { gen := 1, full := true, pnext := false, reads := 1 })], regions := [(regionKey 5 9, [(0, 8192)])] })] }) ({ upPen with mem := { dev := [(spdAddr 0 + 0, 5#8), (spdAddr 0 + 2, 9#8), (spdAddr 0 + 4, 7#8), (spdAddr 0 + 6, 6#8), (spdAddr 0 + 2051, 2#8), (spdAddr 0 + 2065, 64#8), (spdAddr 0 + 4096, 75#8), (spdAddr 0 + 4097, 77#8), (spdAddr 0 + 4098, 83#8), (spdAddr 0 + 4099, 75#8), (spdAddr 0 + 4100, 1#8), (spdAddr 0 + 4101, 0#8), (spdAddr 0 + 4104, 4#8), (spdAddr 0 + 4112, 1#8), (spdAddr 0 + 4116, 64#8), (spdAddr 0 + 4160, 12#8)], host := [(77, 4#8)], mark := [] } }), ⟨0, 0, 5, 0, 0, 9, none, false⟩, 64, by decide +kernel⟩

theorem wit_Sampling_6 : ∃ (n : StallId) (i : Issue) (cmd : Bytes) (s : State) (c : Cx) (off : Nat),
    s.hw.cx n 5 i = some c ∧
    (Smp.of cmd).bad cmd = false ∧
    s.hw.extFault c [(Smp.of cmd).logits, (Smp.of cmd).entry, (Smp.of cmd).mask, (Smp.of cmd).ctx, (Smp.of cmd).out] = {} ∧
    bit (s.leAt (s.hw.extAddr n 5 c.tk (Smp.of cmd).entry + 3) 1) 1 = true ∧
    s.leAt (s.hw.extAddr n 5 c.tk (Smp.of cmd).entry + 0xC) 2 ≠ 0xFFFF ∧
    s.leAt (s.hw.extAddr n 5 c.tk (Smp.of cmd).mask) 4 = 0x4B534D4B ∧
    s.leAt ((s.hw.extAddr n 5 c.tk (Smp.of cmd).mask) + 8) 4 = (Smp.of cmd).v ∧
    (s.leAt (s.hw.extAddr n 5 c.tk (Smp.of cmd).entry + 0xC) 2) < s.leAt ((s.hw.extAddr n 5 c.tk (Smp.of cmd).mask) + 4) 2 ∧
    s.leAt ((s.hw.extAddr n 5 c.tk (Smp.of cmd).mask) + 16 + 16 * (s.leAt (s.hw.extAddr n 5 c.tk (Smp.of cmd).entry + 0xC) 2)) 1 = 1 ∧
    off = s.leAt ((s.hw.extAddr n 5 c.tk (Smp.of cmd).mask) + 16 + 16 * (s.leAt (s.hw.extAddr n 5 c.tk (Smp.of cmd).entry + 0xC) 2) + 4) 4 ∧
    ((∀ k, k < (Smp.of cmd).v → (s.leAt ((s.hw.extAddr n 5 c.tk (Smp.of cmd).mask) + off) (cdiv (Smp.of cmd).v 8)).testBit k = false)) :=
  ⟨0, { frame := 0, task := 9, pos := none, u0 := false }, [97#8, 0#8, 0#8, 0#8, 4#8] ++ zeros 12 ++ [8#8, 0#8, 0#8, 0#8, 16#8, 0#8, 0#8, 0#8, 4#8, 0#8, 0#8, 0#8, 2#8, 0#8, 0#8, 144#8, 1#8, 0#8, 0#8, 255#8, 255#8, 255#8, 255#8, 3#8] ++ zeros 23, dev (fun d => { d with stls := [(0, { slots := [(3, { gen := 1, full := true, pnext := false, reads := 1 })], regions := [(regionKey 5 9, [(0, 8192)])] })] }) ({ upPen with mem := { dev := [(spdAddr 0 + 0, 5#8), (spdAddr 0 + 2, 9#8), (spdAddr 0 + 2051, 2#8), (spdAddr 0 + 2065, 64#8), (spdAddr 0 + 4096, 75#8), (spdAddr 0 + 4097, 77#8), (spdAddr 0 + 4098, 83#8), (spdAddr 0 + 4099, 75#8), (spdAddr 0 + 4100, 1#8), (spdAddr 0 + 4101, 0#8), (spdAddr 0 + 4104, 4#8), (spdAddr 0 + 4112, 1#8), (spdAddr 0 + 4116, 64#8)], host := [(77, 4#8)], mark := [] } }), ⟨0, 0, 5, 0, 0, 9, none, false⟩, 64, by decide⟩

theorem wit_Sampling_7 : ∃ (n : StallId) (i : Issue) (cmd : Bytes) (s : State) (c : Cx),
    s.hw.cx n 5 i = some c ∧
    (Smp.of cmd).bad cmd = false ∧
    s.hw.extFault c [(Smp.of cmd).logits, (Smp.of cmd).entry, (Smp.of cmd).mask, (Smp.of cmd).ctx, (Smp.of cmd).out] = {} ∧
    s.hw.genOk n (Smp.of cmd).gen 5 = true :=
  ⟨0, { frame := 0, task := 9, pos := none, u0 := false }, [97#8, 0#8, 0#8, 0#8, 4#8] ++ zeros 12 ++ [8#8, 0#8, 0#8, 0#8, 16#8, 0#8, 0#8, 0#8, 4#8, 0#8, 0#8, 0#8, 2#8, 0#8, 0#8, 144#8, 1#8, 0#8, 0#8, 255#8, 255#8, 255#8, 255#8, 3#8] ++ zeros 23, dev (fun d => { d with stls := [(0, { slots := [(3, { gen := 1, full := true, pnext := false, reads := 1 })], regions := [(regionKey 5 9, [(0, 8192)])], gens := [(0, ⟨5, false, false, 0, zeros 16, 7, 9, 0, 9⟩)] })] }) ({ upPen with mem := { dev := [(spdAddr 0 + 0, 5#8), (spdAddr 0 + 2, 9#8), (spdAddr 0 + 2051, 2#8), (spdAddr 0 + 2065, 64#8), (spdAddr 0 + 4096, 75#8), (spdAddr 0 + 4097, 77#8), (spdAddr 0 + 4098, 83#8), (spdAddr 0 + 4099, 75#8), (spdAddr 0 + 4100, 1#8), (spdAddr 0 + 4101, 0#8), (spdAddr 0 + 4104, 4#8), (spdAddr 0 + 4112, 2#8), (spdAddr 0 + 4116, 64#8), (spdAddr 0 + 4120, 3#8), (spdAddr 0 + 4160, 96#8), (spdAddr 0 + 4192, 15#8)], host := [(77, 4#8)], mark := [] } }), ⟨0, 0, 5, 0, 0, 9, none, false⟩, by decide⟩

theorem wit_ArrivalsAndWaits_1 : ∃ (n : StallId) (e : EngKind) (i : Issue) (cmd : Bytes) (s : State) (c : Cx) (w : WaitArr),
    s.hw.cx n (engNum e) i = some c ∧
    waitBad (engNum e) cmd = false ∧
    (s.hw.stl n).waits = [] ∧
    bit (fld cmd 1 1) 1 = false ∧
    w = ⟨engNum e, c.frame, c.task, fld cmd 2 1, fld cmd 4 4, bit (fld cmd 1 1) 0, none⟩ :=
  ⟨0, .tda, { frame := 0, task := 9, pos := none, u0 := false }, [17#8, 1#8, 5#8, 0#8, 2#8, 0#8, 0#8, 0#8, 40#8] ++ zeros 55, reg R.SPD_ARR_COUNT 5 3 (mem1 upPen), ⟨0, 0, 0, 0, 0, 9, none, false⟩, ⟨0, 0, 9, 5, 2, true, none⟩, by decide⟩

theorem wit_ArrivalsAndWaits_2 : ∃ (n : StallId) (e : EngKind) (i : Issue) (cmd : Bytes) (s : State) (c : Cx) (w : WaitArr) (d : Nat),
    s.hw.cx n (engNum e) i = some c ∧
    waitBad (engNum e) cmd = false ∧
    (s.hw.stl n).waits = [] ∧
    bit (fld cmd 1 1) 1 = true ∧
    s.hw.freeSlot n c.u0 = some d ∧
    w = ⟨engNum e, c.frame, c.task, fld cmd 2 1, fld cmd 4 4, bit (fld cmd 1 1) 0, some d⟩ :=
  ⟨0, .dma, { frame := 0, task := 9, pos := none, u0 := false }, [17#8, 3#8, 5#8, 0#8, 4#8, 0#8, 0#8, 0#8, 40#8] ++ zeros 55, reg R.SPD_ARR_COUNT 5 3 (mem1 upPen), ⟨0, 0, 6, 0, 0, 9, none, false⟩, ⟨6, 0, 9, 5, 4, true, some 0⟩, 0, by decide⟩

theorem wit_ArrivalsAndWaits_3 : ∃ (n : StallId) (off : Nat) (bytes : Bytes) (s : State),
    (s.hw.penOf n).isSome = true ∧
    s.hw.mgt.phase = .run ∧
    off + bytes.length ≤ spdSize ∧
    s.hw.is R.SPD_STATUS_ZEROING n = false ∧
    (s.hw.stl n).waits = [] :=
  ⟨0, 64, [9#8, 0#8, 7#8], mem1 upPen, by decide⟩

theorem wit_ArrivalsAndWaits_4 : ∃ (n : StallId) (off : Nat) (bytes : Bytes) (s : State),
    (s.hw.penOf n).isSome = true ∧
    s.hw.mgt.phase = .run ∧
    off + bytes.length ≤ spdSize ∧
    s.hw.is R.SPD_STATUS_ZEROING n = true :=
  ⟨0, 64, [9#8, 0#8, 7#8], reg R.SPD_STATUS_ZEROING 0 1 (mem1 upPen), by decide⟩

theorem wit_ArrivalsAndWaits_5 : ∃ (n : StallId) (s : State),
    s.hw.penOf n = none :=
  ⟨191, mem1 upPen, by decide⟩

theorem wit_ArrivalsAndWaits_6 : ∃ (n : StallId) (s : State),
    s.hw.is R.SPD_STATUS_ZEROING n = true :=
  ⟨0, reg R.SPD_STATUS_ZEROING 0 1 (dev (fun d => { d with stls := [(0, { held := [⟨spdAddr 0 + 64, [9#8, 0#8, 7#8], 0, 0, none, 0xFFFF, 0⟩] })] }) (mem1 upPen)), by decide⟩

theorem wit_ArrivalsAndWaits_7 : ∃ (n : StallId) (d : Fin 8) (s : State) (x : Detached),
    Tbl.find? d.val (s.hw.stl n).det = some x ∧
    x.op = 0x12 ∧
    x.waits = 1 :=
  ⟨0, 2, dev (fun d => { d with stls := [(0, { det := [(2, { op := 0x12, waits := 1 })] })] }) (mem1 upPen), { op := 0x12, waits := 1 }, by decide⟩

theorem wit_DmaMoves_1 : ∃ (n : StallId) (i : Issue) (cmd : Bytes) (s : State) (c : Cx),
    s.hw.cx n 6 i = some c ∧
    (DmaMove.of cmd).bad s.hw c cmd = false ∧
    (DmaMove.of cmd).gath = false ∧
    ((List.range (DmaMove.of cmd).count).all fun k => ((DmaMove.of cmd).elemFault s.hw c ((DmaMove.of cmd).copies k k)).isNone) = true ∧
    (DmaMove.of cmd).src.kind < 3 ∧
    (DmaMove.of cmd).dst.kind < 3 :=
  ⟨0, { frame := 0, task := 9, pos := none, u0 := false }, [18#8, 8#8, 0#8, 0#8, 0#8, 0#8, 0#8, 0#8, 64#8] ++ zeros 10 ++ [2#8, 0#8, 0#8, 0#8, 0#8, 3#8, 0#8, 0#8, 0#8, 1#8, 0#8, 1#8] ++ zeros 29 ++ [184#8, 11#8, 0#8, 0#8, 255#8, 255#8, 255#8, 255#8, 3#8] ++ zeros 59, dev (fun d => { d with stls := [(0, { slots := [(3, { gen := 1, full := true, pnext := false, reads := 1 })], regions := [(regionKey 6 9, [(0, 8192)])] })] }) (mem1 upPen), ⟨0, 0, 6, 0, 0, 9, none, false⟩, by decide +kernel⟩

theorem wit_DmaMoves_2 : ∃ (n : StallId) (i : Issue) (cmd : Bytes) (s : State) (c : Cx) (j : Nat),
    s.hw.cx n 6 i = some c ∧
    (DmaMove.of cmd).bad s.hw c cmd = false ∧
    (DmaMove.of cmd).gath = false ∧
    ((List.range (DmaMove.of cmd).count).all fun k => ((DmaMove.of cmd).elemFault s.hw c ((DmaMove.of cmd).copies k k)).isNone) = true ∧
    (DmaMove.of cmd).src.kind = 0 ∧
    (DmaMove.of cmd).dst.kind = 0 ∧
    (DmaMove.of cmd).count = 1 ∧
    (DmaMove.of cmd).rep = 1 ∧
    j < (DmaMove.of cmd).elem :=
  ⟨0, { frame := 0, task := 9, pos := none, u0 := false }, [18#8, 0#8, 0#8, 0#8, 0#8, 0#8, 0#8, 0#8, 64#8] ++ zeros 8 ++ [4#8, 0#8, 0#8, 0#8, 0#8, 0#8, 0#8, 3#8, 0#8, 0#8, 0#8, 1#8, 0#8, 1#8] ++ zeros 29 ++ [184#8, 11#8, 0#8, 0#8, 255#8, 255#8, 255#8, 255#8, 3#8] ++ zeros 59, dev (fun d => { d with stls := [(0, { slots := [(3, { gen := 1, full := true, pnext := false, reads := 1 })], regions := [(regionKey 6 9, [(0, 8192)])] })] }) (mem1 upPen), ⟨0, 0, 6, 0, 0, 9, none, false⟩, 0, by decide +kernel⟩

theorem wit_DmaMoves_3 : ∃ (n : StallId) (i : Issue) (cmd : Bytes) (s : State) (c : Cx) (els : List (List (Nat × Nat))),
    s.hw.cx n 6 i = some c ∧
    (DmaMove.of cmd).bad s.hw c cmd = false ∧
    (DmaMove.of cmd).gath = true ∧
    s.hw.extFault c (DmaMove.of cmd).idxExts = {} ∧
    els = (List.range (min (if (DmaMove.of cmd).cntI = true then s.leAt (s.hw.extAddr n 6 c.tk ⟨(DmaMove.of cmd).iReg, (DmaMove.of cmd).cntO, 2⟩) 2 else (DmaMove.of cmd).count) (DmaMove.of cmd).count)).map (fun k =>
        (DmaMove.of cmd).copies k (s.leAt (s.hw.extAddr n 6 c.tk ⟨(DmaMove.of cmd).iReg, (DmaMove.of cmd).idxO + (if (DmaMove.of cmd).idx16 = true then 2 else 1) * k, (if (DmaMove.of cmd).idx16 = true then 2 else 1)⟩) (if (DmaMove.of cmd).idx16 = true then 2 else 1))) ∧
    (els.all fun cs => ((DmaMove.of cmd).elemFault s.hw c cs).isNone) = true ∧
    (DmaMove.of cmd).src.kind < 3 ∧
    (DmaMove.of cmd).dst.kind < 3 :=
  ⟨0, { frame := 0, task := 9, pos := none, u0 := false }, [18#8, 112#8, 0#8, 0#8, 0#8, 0#8, 16#8, 0#8, 64#8] ++ zeros 8 ++ [4#8, 0#8, 0#8, 0#8, 0#8, 0#8, 0#8, 3#8, 0#8, 0#8, 0#8, 2#8, 0#8, 1#8, 0#8, 0#8, 8#8, 0#8, 0#8, 184#8, 11#8, 0#8, 0#8, 3#8, 0#8, 0#8, 0#8, 3#8, 0#8, 0#8, 0#8, 0#8, 0#8, 0#8, 0#8, 3#8, 0#8, 0#8, 0#8, 0#8, 0#8, 0#8, 0#8, 184#8, 11#8, 0#8, 0#8, 255#8, 255#8, 255#8, 255#8, 3#8] ++ zeros 59, dev (fun d => { d with stls := [(0, { slots := [(3, { gen := 1, full := true, pnext := false, reads := 1 })], regions := [(regionKey 6 9, [(0, 8192)])] })] }) ({ upPen with mem := { dev := [(spdAddr 0 + 64, 1#8), (spdAddr 0 + 66, 2#8), (spdAddr 0 + 67, 5#8), (spdAddr 0 + 69, 6#8), (spdAddr 0 + 2048, 1#8), (spdAddr 0 + 2050, 0#8), (spdAddr 0 + 3000, 2#8)], host := [(77, 4#8)], mark := [] } }), ⟨0, 0, 6, 0, 0, 9, none, false⟩, [[(1024, 67)], [(1027, 64)]], by decide +kernel⟩

theorem wit_DmaMoves_4 : ∃ (n : StallId) (i : Issue) (cmd : Bytes) (s : State) (c : Cx) (els : List (List (Nat × Nat))) (x : Nat × Nat) (j : Nat),
    s.hw.cx n 6 i = some c ∧
    (DmaMove.of cmd).bad s.hw c cmd = false ∧
    (DmaMove.of cmd).gath = true ∧
    s.hw.extFault c (DmaMove.of cmd).idxExts = {} ∧
    els = (List.range (min (if (DmaMove.of cmd).cntI = true then s.leAt (s.hw.extAddr n 6 c.tk ⟨(DmaMove.of cmd).iReg, (DmaMove.of cmd).cntO, 2⟩) 2 else (DmaMove.of cmd).count) (DmaMove.of cmd).count)).map (fun k =>
        (DmaMove.of cmd).copies k (s.leAt (s.hw.extAddr n 6 c.tk ⟨(DmaMove.of cmd).iReg, (DmaMove.of cmd).idxO + (if (DmaMove.of cmd).idx16 = true then 2 else 1) * k, (if (DmaMove.of cmd).idx16 = true then 2 else 1)⟩) (if (DmaMove.of cmd).idx16 = true then 2 else 1))) ∧
    (els.all fun cs => ((DmaMove.of cmd).elemFault s.hw c cs).isNone) = true ∧
    (DmaMove.of cmd).src.kind = 0 ∧
    (DmaMove.of cmd).dst.kind = 0 ∧
    els = [[x]] ∧
    j < (DmaMove.of cmd).elem :=
  ⟨0, { frame := 0, task := 9, pos := none, u0 := false }, [18#8, 112#8, 0#8, 0#8, 0#8, 0#8, 16#8, 0#8, 64#8] ++ zeros 8 ++ [4#8, 0#8, 0#8, 0#8, 0#8, 0#8, 0#8, 3#8, 0#8, 0#8, 0#8, 2#8, 0#8, 1#8, 0#8, 0#8, 8#8, 0#8, 0#8, 184#8, 11#8, 0#8, 0#8, 3#8, 0#8, 0#8, 0#8, 3#8, 0#8, 0#8, 0#8, 0#8, 0#8, 0#8, 0#8, 3#8, 0#8, 0#8, 0#8, 0#8, 0#8, 0#8, 0#8, 184#8, 11#8, 0#8, 0#8, 255#8, 255#8, 255#8, 255#8, 3#8] ++ zeros 59, dev (fun d => { d with stls := [(0, { slots := [(3, { gen := 1, full := true, pnext := false, reads := 1 })], regions := [(regionKey 6 9, [(0, 8192)])] })] }) ({ upPen with mem := { dev := [(spdAddr 0 + 64, 1#8), (spdAddr 0 + 66, 2#8), (spdAddr 0 + 67, 5#8), (spdAddr 0 + 69, 6#8), (spdAddr 0 + 2048, 1#8), (spdAddr 0 + 2050, 0#8), (spdAddr 0 + 3000, 1#8)], host := [(77, 4#8)], mark := [] } }), ⟨0, 0, 6, 0, 0, 9, none, false⟩, [[(1024, 67)]], (1024, 67), 2, by decide +kernel⟩

theorem wit_DmaMoves_5 : ∃ (n : StallId) (i : Issue) (cmd : Bytes) (s : State) (c : Cx) (d : Nat),
    s.hw.cx n 6 i = some c ∧
    (DmaMove.of cmd).bad s.hw c cmd = false ∧
    (DmaMove.of cmd).gath = false ∧
    ((List.range (DmaMove.of cmd).count).all fun k => ((DmaMove.of cmd).elemFault s.hw c ((DmaMove.of cmd).copies k k)).isNone) = true ∧
    (DmaMove.of cmd).src.kind = 3 ∧
    s.hw.freeSlot n c.u0 = some d :=
  ⟨0, { frame := 0, task := 9, pos := none, u0 := false }, [18#8, 3#8, 0#8, 0#8, 0#8, 0#8, 0#8, 0#8, 72#8] ++ zeros 8 ++ [4#8, 0#8, 0#8, 0#8, 0#8, 0#8, 0#8, 8#8, 0#8, 0#8, 0#8, 1#8, 0#8, 1#8] ++ zeros 29 ++ [184#8, 11#8, 0#8, 0#8, 255#8, 255#8, 255#8, 255#8, 3#8] ++ zeros 59, dev (fun d => { d with dmaWin := [(0, (7, 0x10000))] }) (dev (fun d => { d with stls := [(0, { slots := [(3, { gen := 1, full := true, pnext := false, reads := 1 })], regions := [(regionKey 6 9, [(0, 8192)])] })] }) (mem1 upPen)), ⟨0, 0, 6, 0, 0, 9, none, false⟩, 0, by decide +kernel⟩

theorem wit_DmaMoves_6 : ∃ (n : StallId) (d : Fin 8) (s : State) (x : Detached),
    Tbl.find? d.val (s.hw.stl n).det = some x ∧
    x.waits = 0 ∧
    x.op = 0x11 ∧
    s.hw.penLive x.pen = true ∧
    (s.hw.pen x.pen).frames = [] :=
  ⟨0, 2, dev (fun d => { d with stls := [(0, { det := [(2, { op := 0x11 })] })] }) (mem1 upPen), { op := 0x11 }, by decide⟩

theorem wit_DmaMoves_7 : ∃ (n : StallId) (d : Fin 8) (s : State) (x : Detached) (j : Nat),
    Tbl.find? d.val (s.hw.stl n).det = some x ∧
    x.waits = 0 ∧
    x.op = 0x12 ∧
    s.hw.penLive x.pen = true ∧
    (s.hw.pen x.pen).frames = [] ∧
    x.pos = none ∧
    (DmaMove.of x.cmd).src.kind = 3 ∧
    (DmaMove.of x.cmd).dst.kind = 0 ∧
    (s.hw.penOf n).isSome = true ∧
    x.copies = [((DmaMove.of x.cmd).dst.addr, (DmaMove.of x.cmd).src.addr)] ∧
    (DmaMove.of x.cmd).dst.fault s.hw (x.cx n) true (DmaMove.of x.cmd).dst.addr (DmaMove.of x.cmd).elem = none ∧
    j < (DmaMove.of x.cmd).elem :=
  ⟨0, 2, dev (fun d => { d with stls := [(0, { regions := [(regionKey 6 9, [(0, 8192)])], det := [(2, { task := 9, op := 0x12, cmd := [18#8, 3#8, 0#8, 0#8, 0#8, 0#8, 0#8, 0#8, 72#8] ++ zeros 8 ++ [4#8, 0#8, 0#8, 0#8, 0#8, 0#8, 0#8, 8#8, 0#8, 0#8, 0#8, 1#8, 0#8, 1#8] ++ zeros 29 ++ [184#8, 11#8, 0#8, 0#8, 255#8, 255#8, 255#8, 255#8, 3#8] ++ zeros 59, copies := [(1024, 72)] })] })] }) (mem1 upPen), { task := 9, op := 0x12, cmd := [18#8, 3#8, 0#8, 0#8, 0#8, 0#8, 0#8, 0#8, 72#8] ++ zeros 8 ++ [4#8, 0#8, 0#8, 0#8, 0#8, 0#8, 0#8, 8#8, 0#8, 0#8, 0#8, 1#8, 0#8, 1#8] ++ zeros 29 ++ [184#8, 11#8, 0#8, 0#8, 255#8, 255#8, 255#8, 255#8, 3#8] ++ zeros 59, copies := [(1024, 72)] }, 5, by decide +kernel⟩

theorem wit_CribEmission_1 : ∃ (n : StallId) (i : Issue) (cmd : Bytes) (s : State) (c : Cx) (b : Bound) (d : Nat) (k : Nat),
    s.hw.cx n 6 i = some c ∧
    emitBad cmd = false ∧
    s.hw.extFault c ((if fld cmd 4 4 = 0xFFFFFFFF then [] else [⟨fld cmd 2 1, fld cmd 4 4, 16⟩]) ++
        if fld cmd 0xC 4 = 0 then [] else [⟨fld cmd 3 1, fld cmd 8 4, fld cmd 0xC 4⟩]) = {} ∧
    ((s.hw.pen c.p).bound.find? fun b => b.frame == c.frame && b.pos == fld cmd 1 1) = some b ∧
    s.hw.penRun c.p = true ∧
    (s.hw.ten b.tenant).disabling = none ∧
    (s.hw.pen c.p).yoke.demote = none ∧
    b.emitted = false ∧
    s.hw.freeSlot n c.u0 = some d ∧
    k = min (fld cmd 0xC 4) (if fld b.entry 0x20 8 = 0 then 0 else fld b.entry 0x28 4) ∧
    s.hw.dmaOk (s.hw.fnOf b.tenant) (fld b.entry 0x20 8) k true = true :=
  ⟨0, { frame := 0, task := 9, pos := none, u0 := false }, [19#8, 4#8, 0#8, 0#8, 255#8, 255#8, 255#8, 255#8, 0#8, 0#8, 0#8, 0#8, 3#8, 0#8, 0#8, 0#8, 144#8, 1#8, 0#8, 0#8, 255#8, 255#8, 3#8] ++ zeros 41, (fun s : State => { s with hw := s.hw.modPen 0 fun ps => { ps with bound := [{ tenant := 7, seq := 1, idx := 0, pos := 4, frame := 0, cls := 2, slot := 0, ctx := 2, x := 0, pos0 := 0, entry := zeros 32 ++ leBytes 8 0x2000 ++ leBytes 4 16 ++ zeros 20 }] } }) (dev (fun d => { d with truss := some { image with tenants := [tenant7] }, dmaWin := [(24, (7, 0x10000))] }) (dev (fun d => { d with stls := [(0, { slots := [], regions := [(regionKey 6 9, [(0, 8192)])] })] }) ({ upPen with mem := { dev := [(spdAddr 0 + 0, 5#8), (spdAddr 0 + 2, 9#8)], host := [(77, 4#8)], mark := [] } }))), ⟨0, 0, 6, 0, 0, 9, none, false⟩, { tenant := 7, seq := 1, idx := 0, pos := 4, frame := 0, cls := 2, slot := 0, ctx := 2, x := 0, pos0 := 0, entry := zeros 32 ++ leBytes 8 0x2000 ++ leBytes 4 16 ++ zeros 20 }, 0, 3, by decide⟩

theorem wit_CribEmission_2 : ∃ (n : StallId) (i : Issue) (cmd : Bytes) (s : State) (c : Cx) (b : Bound),
    s.hw.cx n 6 i = some c ∧
    emitBad cmd = false ∧
    s.hw.extFault c ((if fld cmd 4 4 = 0xFFFFFFFF then [] else [⟨fld cmd 2 1, fld cmd 4 4, 16⟩]) ++
        if fld cmd 0xC 4 = 0 then [] else [⟨fld cmd 3 1, fld cmd 8 4, fld cmd 0xC 4⟩]) = {} ∧
    ((s.hw.pen c.p).bound.find? fun b => b.frame == c.frame && b.pos == fld cmd 1 1) = some b ∧
    s.hw.penRun c.p = true ∧
    (s.hw.ten b.tenant).disabling = none ∧
    (s.hw.pen c.p).yoke.demote = none ∧
    b.emitted = true :=
  ⟨0, { frame := 0, task := 9, pos := none, u0 := false }, [19#8, 4#8, 0#8, 0#8, 255#8, 255#8, 255#8, 255#8, 0#8, 0#8, 0#8, 0#8, 3#8, 0#8, 0#8, 0#8, 144#8, 1#8, 0#8, 0#8, 255#8, 255#8, 3#8] ++ zeros 41, (fun s : State => { s with hw := s.hw.modPen 0 fun ps => { ps with bound := [{ tenant := 7, seq := 1, idx := 0, pos := 4, frame := 0, cls := 2, slot := 0, ctx := 2, x := 0, emitted := true, pos0 := 0, entry := zeros 32 ++ leBytes 8 0x2000 ++ leBytes 4 16 ++ zeros 20 }] } }) (dev (fun d => { d with stls := [(0, { slots := [], regions := [(regionKey 6 9, [(0, 8192)])] })] }) ({ upPen with mem := { dev := [(spdAddr 0 + 0, 5#8), (spdAddr 0 + 2, 9#8)], host := [(77, 4#8)], mark := [] } })), ⟨0, 0, 6, 0, 0, 9, none, false⟩, { tenant := 7, seq := 1, idx := 0, pos := 4, frame := 0, cls := 2, slot := 0, ctx := 2, x := 0, emitted := true, pos0 := 0, entry := zeros 32 ++ leBytes 8 0x2000 ++ leBytes 4 16 ++ zeros 20 }, by decide⟩

theorem wit_CribEmission_3 : ∃ (n : StallId) (i : Issue) (cmd : Bytes) (s : State) (c : Cx),
    s.hw.cx n 6 i = some c ∧
    emitBad cmd = false ∧
    s.hw.extFault c ((if fld cmd 4 4 = 0xFFFFFFFF then [] else [⟨fld cmd 2 1, fld cmd 4 4, 16⟩]) ++
        if fld cmd 0xC 4 = 0 then [] else [⟨fld cmd 3 1, fld cmd 8 4, fld cmd 0xC 4⟩]) = {} ∧
    ((s.hw.pen c.p).bound.find? fun b => b.frame == c.frame && b.pos == fld cmd 1 1) = none ∧
    (s.hw.pen c.p).emits.contains (c.frame, fld cmd 1 1) = true :=
  ⟨0, { frame := 0, task := 9, pos := none, u0 := false }, [19#8, 4#8, 0#8, 0#8, 255#8, 255#8, 255#8, 255#8, 0#8, 0#8, 0#8, 0#8, 3#8, 0#8, 0#8, 0#8, 144#8, 1#8, 0#8, 0#8, 255#8, 255#8, 3#8] ++ zeros 41, (fun s : State => { s with hw := s.hw.modPen 0 fun ps => { ps with emits := [(0, 4)] } }) (dev (fun d => { d with stls := [(0, { slots := [], regions := [(regionKey 6 9, [(0, 8192)])] })] }) ({ upPen with mem := { dev := [(spdAddr 0 + 0, 5#8), (spdAddr 0 + 2, 9#8)], host := [(77, 4#8)], mark := [] } })), ⟨0, 0, 6, 0, 0, 9, none, false⟩, by decide⟩

theorem wit_LinkTraining_1 : ∃ (l : LinkId) (lanes : Fin 256) (peerDev : BitVec 16) (s : State) (p : PortDef) (w : Nat),
    s.hw.portOf l = some p ∧
    p.mode ≠ 1 ∧
    ((s.hw.get R.LNK_STATUS_STATE l = 1 ∨ s.hw.get R.LNK_STATUS_STATE l = 3)) ∧
    peerDev.toNat ≠ 0xFFFF ∧
    peerDev.toNat ≠ s.hw.devId ∧
    ([8, 6, 4, 2, 1].find? fun v => decide (v ≤ popcount 8 lanes.val) && decide (v ≤ (s.hw.link l).target)) = some w :=
  ⟨1, 127, 6, reg R.LNK_STATUS_STATE 1 1 herd, ⟨0, 0, 7⟩, 6, by decide⟩

theorem wit_LinkTraining_2 : ∃ (l : LinkId) (peerDev : BitVec 16) (s : State) (p : PortDef),
    s.hw.portOf l = some p ∧
    p.mode ≠ 1 ∧
    ((s.hw.get R.LNK_STATUS_STATE l = 1 ∨ s.hw.get R.LNK_STATUS_STATE l = 3)) ∧
    ((peerDev.toNat = 0xFFFF ∨ peerDev.toNat = s.hw.devId)) :=
  ⟨1, 0xFFFF, reg R.LNK_STATUS_STATE 1 1 herd, ⟨0, 0, 7⟩, by decide⟩

theorem wit_LinkTraining_3 : ∃ (l : LinkId) (lanes : Fin 256) (s : State) (p : PortDef),
    s.hw.portOf l = some p ∧
    p.mode = 1 ∧
    ((s.hw.get R.LNK_STATUS_STATE l = 1 ∨ s.hw.get R.LNK_STATUS_STATE l = 3)) ∧
    popcount 8 lanes.val = 8 :=
  ⟨3, 255, reg R.LNK_STATUS_STATE 3 3 herd, ⟨1, 1, 8⟩, by decide⟩

theorem wit_LinkTraining_4 : ∃ (l : LinkId) (s : State),
    s.hw.get R.LNK_STATUS_STATE l = 1 :=
  ⟨1, reg R.LNK_STATUS_STATE 1 1 herd, by decide⟩

theorem wit_LinkTraining_5 : ∃ (l : LinkId) (s : State) (p : PortDef),
    s.hw.get R.LNK_STATUS_STATE l = 4 ∧
    s.hw.portOf l = some p :=
  ⟨1, reg R.LNK_STATUS_STATE 1 4 herd, ⟨0, 0, 7⟩, by decide⟩

theorem wit_LinkTraining_6 : ∃ (l : LinkId) (s : State),
    s.hw.hostUp = true ∧
    s.hw.get R.LNK_STATUS_STATE l ≠ 0 :=
  ⟨1, herd, by decide⟩

theorem wit_LinkFaults_1 : ∃ (l : LinkId) (lane : Fin 8) (s : State) (v : Nat),
    s.hw.get R.LNK_STATUS_STATE l = 2 ∧
    s.hw.get R.LNK_STATUS_MODE l = 0 ∧
    ([8, 6, 4, 2, 1].find? fun v => decide (v < s.hw.get R.LNK_STATUS_WIDTH l) &&
      decide (v + popcount 8 (s.hw.get R.LNK_STATUS_LANE_FAIL l ||| 2 ^ lane.val) ≤ 8)) = some v :=
  ⟨1, 3, reg R.LNK_STATUS_WIDTH 1 8 herd, 6, by decide⟩

theorem wit_LinkFaults_2 : ∃ (l : LinkId) (s : State),
    s.hw.get R.LNK_STATUS_STATE l = 2 ∧
    s.hw.get R.LNK_STATUS_MODE l = 0 ∧
    s.hw.get R.LNK_STATUS_WIDTH l ≤ 1 :=
  ⟨1, reg R.LNK_STATUS_WIDTH 1 1 herd, by decide⟩

theorem wit_LinkFaults_3 : ∃ (l : LinkId) (s : State),
    s.hw.get R.LNK_STATUS_STATE l = 2 ∧
    s.hw.get R.LNK_STATUS_MODE l = 1 :=
  ⟨3, reg R.LNK_STATUS_SPLIT 3 1 (reg R.LNK_STATUS_WIDTH 3 8 (reg R.LNK_STATUS_MODE 3 1 (reg R.LNK_STATUS_STATE 3 2 herd))), by decide⟩

theorem wit_LinkFaults_4 : ∃ (l : LinkId) (s : State),
    s.hw.get R.LNK_STATUS_STATE l = 2 ∧
    s.hw.get R.LNK_STATUS_MODE l = 1 :=
  ⟨3, reg R.LNK_STATUS_MODE 3 1 (reg R.LNK_STATUS_STATE 3 2 herd), by decide⟩

theorem wit_LinkFaults_5 : ∃ (l : LinkId) (s : State),
    s.hw.get R.LNK_STATUS_STATE l = 2 ∧
    s.hw.get R.LNK_STATUS_MODE l = 0 ∧
    s.hw.linkWaiting l = true :=
  ⟨1, dev (fun d => { d with txq := [(0, { typ := 1, tc := 2, src := 5, dst := 6 })] }) herd, by decide⟩

theorem wit_LinkFaults_6 : ∃ (l : LinkId) (s : State),
    s.hw.get R.LNK_STATUS_STATE l = 2 ∧
    s.hw.get R.LNK_STATUS_MODE l = 0 ∧
    s.hw.dev.txq = [] :=
  ⟨1, herd, by decide⟩

theorem wit_LinkFaults_7 : ∃ (l : LinkId) (s : State),
    s.hw.get R.LNK_STATUS_STATE l = 2 ∧
    s.hw.get R.LNK_STATUS_MODE l = 0 :=
  ⟨1, dev (fun d => { d with txq := [(0, { typ := 1, tc := 2, src := 5, dst := 6 })] }) herd, by decide⟩

theorem wit_LinkFaults_8 : ∃ (l : LinkId) (s : State),
    s.hw.get R.LNK_STATUS_STATE l = 2 :=
  ⟨1, herd, by decide⟩

theorem wit_LinkFaults_9 : ∃ (s : State),
    s.hw.hostUp = true :=
  ⟨herd, by decide⟩

theorem wit_TransportPackets_1 : ∃ (l : LinkId) (raw : Bytes) (udpOk : Bool) (ce : Bool) (s : State) (p : Pkt) (n : Nat),
    s.hw.Reads l raw udpOk p ∧
    s.hw.IsNew p ∧
    p.typ = 1 ∧
    (s.hw.seen l raw ce p).zltAllowed p = true ∧
    s.hw.penSpd p.pen p.addr = some n ∧
    s.hw.is R.SPD_STATUS_ZEROING n = false ∧
    (((s.hw.dev.rxm.any fun m => m.is p) = true ∨ s.hw.dev.rxm.length < 8192)) :=
  ⟨1, ({ typ := 1, tc := 2, flags := 1, src := 6, dst := 5, job := 77, msg := 3, npkt := 2, ctr := 9, slot := 0xFFFF, addr := spdAddr 0 + 128, payload := [1#8, 2#8, 3#8] } : Pkt).bytes, false, false, reg R.ZLT_JOB_JOB_ID 0 77 (mem1 penHerd), { typ := 1, tc := 2, flags := 1, src := 6, dst := 5, job := 77, msg := 3, npkt := 2, ctr := 9, slot := 0xFFFF, addr := spdAddr 0 + 128, payload := [1#8, 2#8, 3#8] }, 0, by decide +kernel⟩

theorem wit_TransportPackets_2 : ∃ (l : LinkId) (raw : Bytes) (udpOk : Bool) (ce : Bool) (s : State) (p : Pkt) (n : Nat),
    s.hw.Reads l raw udpOk p ∧
    s.hw.IsNew p ∧
    p.typ = 1 ∧
    (s.hw.seen l raw ce p).zltAllowed p = true ∧
    s.hw.penSpd p.pen p.addr = some n ∧
    s.hw.is R.SPD_STATUS_ZEROING n = false ∧
    (((s.hw.dev.rxm.any fun m => m.is p) = true ∨ s.hw.dev.rxm.length < 8192)) ∧
    p.npkt = 1 ∧
    p.flags % 2 = 1 ∧
    p.slot < 4096 ∧
    (s.hw.stl n).waits = [] ∧
    (s.hw.dev.rxm.any fun m => m.is p) = false :=
  ⟨1, ({ typ := 1, tc := 2, flags := 1, src := 6, dst := 5, job := 77, msg := 3, npkt := 1, ctr := 9, slot := 8, addr := spdAddr 0 + 128, payload := [1#8, 2#8, 3#8] } : Pkt).bytes, false, false, reg R.ZLT_JOB_JOB_ID 0 77 (mem1 penHerd), { typ := 1, tc := 2, flags := 1, src := 6, dst := 5, job := 77, msg := 3, npkt := 1, ctr := 9, slot := 8, addr := spdAddr 0 + 128, payload := [1#8, 2#8, 3#8] }, 0, by decide +kernel⟩

theorem wit_TransportPackets_3 : ∃ (l : LinkId) (raw : Bytes) (udpOk : Bool) (ce : Bool) (s : State) (p : Pkt),
    s.hw.Reads l raw udpOk p ∧
    s.hw.IsNew p ∧
    p.typ = 1 ∧
    (s.hw.seen l raw ce p).zltAllowed p = false :=
  ⟨1, ({ typ := 1, tc := 2, flags := 1, src := 6, dst := 5, job := 77, msg := 3, npkt := 1, ctr := 9, slot := 8, addr := spdAddr 0 + 128, payload := [1#8, 2#8, 3#8] } : Pkt).bytes, false, false, mem1 penHerd, { typ := 1, tc := 2, flags := 1, src := 6, dst := 5, job := 77, msg := 3, npkt := 1, ctr := 9, slot := 8, addr := spdAddr 0 + 128, payload := [1#8, 2#8, 3#8] }, by decide +kernel⟩

theorem wit_TransportPackets_4 : ∃ (l : LinkId) (raw : Bytes) (udpOk : Bool) (s : State) (p : Pkt),
    s.hw.Reads l raw udpOk p ∧
    p.typ = 2 ∧
    p.flags = 0 ∧
    ((∀ kv ∈ s.hw.dev.stls, ∀ d ∈ kv.2.det, d.2.op ≠ 0x14)) ∧
    ((∀ q ∈ s.hw.penList, ∀ b ∈ (s.hw.pen q).bound, b.held = false)) :=
  ⟨1, ({ typ := 2, tc := 2, src := 6, dst := 5, psn := 12, payload := leBytes 8 2 } : Pkt).bytes, false, dev (fun d => { d with flows := [(26, { psn := 20, unacked := [10, 11, 12, 13, 14].map fun n => ⟨{ typ := 1, tc := 2, src := 5, dst := 6, psn := n }, 0, 0, 0, 1⟩ })] }) herd, { typ := 2, tc := 2, src := 6, dst := 5, psn := 12, payload := leBytes 8 2 }, by decide +kernel⟩

theorem wit_TransportPackets_5 : ∃ (d : BitVec 12) (tc : Fin 3) (s : State) (port : Nat),
    (s.hw.rxFlow (flowKey d.toNat tc)).unack ≠ 0 ∧
    s.hw.ackPort d.toNat tc = some port ∧
    s.hw.maySend d.toNat port = true :=
  ⟨6, 2, dev (fun d => { d with rxf := [(26, { next := 4, unack := 3, due := 55, ece := true })] }) herd, 0, by decide⟩

theorem wit_TransportPackets_6 : ∃ (d : BitVec 12) (tc : Fin 3) (psn : BitVec 32) (s : State) (x : TxPk),
    (s.hw.flow (flowKey d.toNat tc)).unacked.find? (fun y => y.pkt.psn == psn.toNat) = some x ∧
    x.tries ≤ s.hw.get R.ZLT_CFG_RETRY_MAX 0 ∧
    s.hw.devId ≠ 0xFFFF ∧
    s.hw.maySend x.pkt.dst x.port = true ∧
    ((∀ kv ∈ s.hw.dev.stls, ∀ d ∈ kv.2.det, d.2.op ≠ 0x14)) ∧
    ((∀ q ∈ s.hw.penList, ∀ b ∈ (s.hw.pen q).bound, b.held = false)) :=
  ⟨6, 2, 11, dev (fun d => { d with flows := [(26, { psn := 20, unacked := [10, 11, 12, 13, 14].map fun n => ⟨{ typ := 1, tc := 2, src := 5, dst := 6, psn := n }, 0, 0, 0, 1⟩ })] }) herd, ⟨{ typ := 1, tc := 2, src := 5, dst := 6, psn := 11 }, 0, 0, 0, 1⟩, by decide⟩

theorem wit_TransportPackets_7 : ∃ (d : BitVec 12) (tc : Fin 3) (psn : BitVec 32) (s : State) (x : TxPk),
    (s.hw.flow (flowKey d.toNat tc)).unacked.find? (fun y => y.pkt.psn == psn.toNat) = some x ∧
    s.hw.get R.ZLT_CFG_RETRY_MAX 0 < x.tries ∧
    x.pkt.typ = 1 ∧
    x.pkt.dst = d.toNat ∧
    x.pkt.tc = tc.val ∧
    s.hw.devId ≠ 0xFFFF ∧
    ((∀ kv ∈ s.hw.dev.stls, ∀ d ∈ kv.2.det, d.2.op ≠ 0x14)) ∧
    ((∀ q ∈ s.hw.penList, ∀ b ∈ (s.hw.pen q).bound, b.held = false)) :=
  ⟨6, 2, 11, dev (fun d => { d with flows := [(26, { psn := 20, unacked := [10, 11, 12, 13, 14].map fun n => ⟨{ typ := 1, tc := 2, src := 5, dst := 6, psn := n }, 0, 0, 0, 17⟩ })] }) herd, ⟨{ typ := 1, tc := 2, src := 5, dst := 6, psn := 11 }, 0, 0, 0, 17⟩, by decide⟩

theorem wit_TransportPackets_8 : ∃ (d : BitVec 12) (tc : Fin 3) (psn : BitVec 32) (s : State) (x : TxPk),
    (s.hw.flow (flowKey d.toNat tc)).unacked.find? (fun y => y.pkt.psn == psn.toNat) = some x ∧
    x.tries ≤ s.hw.get R.ZLT_CFG_RETRY_MAX 0 ∧
    s.hw.maySend x.pkt.dst x.port = false ∧
    x.pkt.typ = 1 ∧
    x.pkt.dst = d.toNat ∧
    x.pkt.tc = tc.val ∧
    s.hw.devId ≠ 0xFFFF ∧
    ((∀ kv ∈ s.hw.dev.stls, ∀ d ∈ kv.2.det, d.2.op ≠ 0x14)) ∧
    ((∀ q ∈ s.hw.penList, ∀ b ∈ (s.hw.pen q).bound, b.held = false)) :=
  ⟨7, 2, 11, dev (fun d => { d with flows := [(30, { psn := 20, unacked := [10, 11, 12, 13, 14].map fun n => ⟨{ typ := 1, tc := 2, src := 5, dst := 7, psn := n }, 1, 0, 0, 1⟩ })] }) herd, ⟨{ typ := 1, tc := 2, src := 5, dst := 7, psn := 11 }, 1, 0, 0, 1⟩, by decide⟩

theorem wit_TransportPackets_9 : ∃ (d : BitVec 12) (s : State) (port : Nat) (e : Egress),
    s.hw.route d.toNat = some port ∧
    s.hw.egress d.toNat port = some e :=
  ⟨9, dev (fun d => { d with rates := [(9, (30000, 7, 7))] }) herd, 1, ⟨9, [9#8, 0#8, 1#8, 2#8] ++ zeros 28⟩, by decide⟩

theorem wit_PutsAndPegs_1 : ∃ (n : StallId) (i : Issue) (cmd : Bytes) (s : State) (c : Cx) (d : Nat) (port : Nat),
    ((s.hw.upset i.upsets).metPorts n 6 i).cx n 6 i = some c ∧
    putBad ((s.hw.upset i.upsets).metPorts n 6 i) cmd = false ∧
    ((s.hw.upset i.upsets).metPorts n 6 i).extFault c [⟨fld cmd 2 1, fld cmd 8 4, fld cmd 0xC 4⟩] = {} ∧
    ((s.hw.upset i.upsets).metPorts n 6 i).freeSlot c.n c.u0 = some d ∧
    fld cmd 0xC 4 ≤ 4096 ∧
    ((s.hw.upset i.upsets).metPorts n 6 i).penRoute (fld cmd 4 2) = some port ∧
    s.hw.network port = false ∧
    s.hw.bufRoom port (44 + fld cmd 0xC 4) = true :=
  ⟨0, { frame := 0, task := 9, pos := none, u0 := false }, [0x14#8, 0#8, 0#8, 4#8] ++ leBytes 2 6 ++ [1#8, 0#8] ++ leBytes 4 64 ++ leBytes 4 5 ++ leBytes 8 0x1234 ++ leBytes 2 0xFFFF ++ leBytes 2 3 ++ zeros 4 ++ zeros 32, dev (fun d => { d with stls := [(0, { slots := [(3, { gen := 1, full := true, pnext := false, reads := 1 })], regions := [(regionKey 6 9, [(0, 4096)])] })] }) (mem1 penHerd), ⟨0, 0, 6, 0, 0, 9, none, false⟩, 0, 0, by decide⟩

theorem wit_PutsAndPegs_2 : ∃ (n : StallId) (i : Issue) (cmd : Bytes) (s : State) (c : Cx) (d : Nat),
    ((s.hw.upset i.upsets).metPorts n 6 i).cx n 6 i = some c ∧
    syncBad ((s.hw.upset i.upsets).metPorts n 6 i) c.p cmd = false ∧
    ((s.hw.upset i.upsets).metPorts n 6 i).extFault c (if fld cmd 4 4 = 0xFFFFFFFF then [] else [⟨fld cmd 2 1, fld cmd 4 4, 16⟩]) = {} ∧
    ((s.hw.upset i.upsets).metPorts n 6 i).freeSlot c.n c.u0 = some d ∧
    s.hw.get R.PEG_GSTATUS_STATE (fld cmd 1 1) = 1 ∧
    (s.hw.peg (fld cmd 1 1)).locals + 1 < s.hw.get R.PEG_GCFG_LOCAL_N (fld cmd 1 1) :=
  ⟨0, { frame := 0, task := 9, pos := none, u0 := false }, [0x15#8, 7#8, 0#8, 0#8] ++ leBytes 4 128 ++ leBytes 2 3 ++ zeros 2 ++ zeros 4 ++ zeros 48, dev (fun d => { d with stls := [(0, { slots := [(3, { gen := 1, full := true, pnext := false, reads := 1 })], regions := [(regionKey 6 9, [(0, 4096)])] })] }) (reg R.PEG_GCFG_LOCAL_N 7 3 (reg R.PEG_GSTATUS_STATE 7 1 (reg R.PEG_GSEQ_SEQ 7 1 (reg R.PEG_GCFG_ENABLE 7 1 (reg R.ZLT_JOB_JOB_ID 0 77 (mem1 penHerd)))))), ⟨0, 0, 6, 0, 0, 9, none, false⟩, 0, by decide⟩

theorem wit_PutsAndPegs_3 : ∃ (n : StallId) (i : Issue) (cmd : Bytes) (s : State) (c : Cx) (d : Nat),
    ((s.hw.upset i.upsets).metPorts n 6 i).cx n 6 i = some c ∧
    syncBad ((s.hw.upset i.upsets).metPorts n 6 i) c.p cmd = false ∧
    ((s.hw.upset i.upsets).metPorts n 6 i).extFault c [⟨fld cmd 2 1, fld cmd 4 4, 16⟩] = {} ∧
    ((s.hw.upset i.upsets).metPorts n 6 i).freeSlot c.n c.u0 = some d ∧
    fld cmd 4 4 ≠ 0xFFFFFFFF ∧
    s.hw.get R.PEG_GSTATUS_STATE (fld cmd 1 1) = 1 ∧
    s.hw.get R.PEG_GCFG_LOCAL_N (fld cmd 1 1) = 1 ∧
    s.hw.get R.PEG_GCFG_CHILD_COUNT (fld cmd 1 1) = 0 ∧
    s.hw.get R.PEG_GPARENT_PARENT_DEV (fld cmd 1 1) = 0xFFFF ∧
    s.hw.peg (fld cmd 1 1) = {} ∧
    s.hw.pegWaits (fld cmd 1 1) = [] :=
  ⟨0, { frame := 0, task := 9, pos := none, u0 := false }, [0x15#8, 7#8, 0#8, 0#8] ++ leBytes 4 128 ++ leBytes 2 3 ++ zeros 2 ++ zeros 4 ++ zeros 48, dev (fun d => { d with stls := [(0, { slots := [(3, { gen := 1, full := true, pnext := false, reads := 1 })], regions := [(regionKey 6 9, [(0, 4096)])] })] }) (reg R.PEG_GSTATUS_STATE 7 1 (reg R.PEG_GSEQ_SEQ 7 1 (reg R.PEG_GCFG_ENABLE 7 1 (reg R.ZLT_JOB_JOB_ID 0 77 (mem1 penHerd))))), ⟨0, 0, 6, 0, 0, 9, none, false⟩, 0, by decide⟩

theorem wit_PutsAndPegs_4 : ∃ (l : LinkId) (raw : Bytes) (udpOk : Bool) (ce : Bool) (s : State) (p : Pkt) (g : Nat),
    s.hw.Reads l raw udpOk p ∧
    s.hw.IsNew p ∧
    p.typ = 3 ∧
    s.hw.present p.pen = true ∧
    s.hw.get R.ZLT_JOB_JOB_ID p.pen = p.job ∧
    p.job ≠ 0 ∧
    g < 64 ∧
    (s.hw.taken l raw ce p).pegFind 1 p = some g ∧
    fld p.payload 4 4 = s.hw.get R.PEG_GSEQ_SEQ g ∧
    (s.hw.peg g).kids.length + 1 < s.hw.get R.PEG_GCFG_CHILD_COUNT g :=
  ⟨1, ({ typ := 3, tc := 0, src := 6, dst := 5, job := 77, payload := leBytes 4 0 ++ leBytes 4 1 ++ leBytes 2 6 ++ leBytes 1 2 ++ zeros 5 } : Pkt).bytes, false, false, reg R.PEG_GCFG_CHILD_COUNT 7 2 (reg R.PEG_GSTATUS_STATE 7 1 (reg R.PEG_GSEQ_SEQ 7 1 (reg R.PEG_GCFG_ENABLE 7 1 (reg R.ZLT_JOB_JOB_ID 0 77 (mem1 penHerd))))), { typ := 3, tc := 0, src := 6, dst := 5, job := 77, payload := leBytes 4 0 ++ leBytes 4 1 ++ leBytes 2 6 ++ leBytes 1 2 ++ zeros 5 }, 7, by decide +kernel⟩

theorem wit_PutsAndPegs_5 : ∃ (l : LinkId) (raw : Bytes) (udpOk : Bool) (ce : Bool) (s : State) (p : Pkt) (g : Nat),
    s.hw.Reads l raw udpOk p ∧
    s.hw.IsNew p ∧
    p.typ = 4 ∧
    s.hw.present p.pen = true ∧
    s.hw.get R.ZLT_JOB_JOB_ID p.pen = p.job ∧
    p.job ≠ 0 ∧
    g < 64 ∧
    (s.hw.taken l raw ce p).pegFind 1 p = some g ∧
    fld p.payload 4 4 = s.hw.get R.PEG_GSEQ_SEQ g ∧
    (s.hw.peg g).kids = [] ∧
    (s.hw.peg g).locals ≤ s.hw.get R.PEG_GCFG_LOCAL_N g ∧
    0 < s.hw.get R.PEG_GCFG_LOCAL_N g ∧
    s.hw.pegWaits g = [] :=
  ⟨1, ({ typ := 4, tc := 0, src := 6, dst := 5, job := 77, payload := leBytes 4 0 ++ leBytes 4 1 ++ leBytes 2 6 ++ leBytes 1 2 ++ zeros 5 } : Pkt).bytes, false, false, dev (fun d => { d with pegs := [(7, { locals := 1, setAt := some 0 })] }) (reg R.PEG_GSTATUS_STATE 7 1 (reg R.PEG_GSEQ_SEQ 7 1 (reg R.PEG_GCFG_ENABLE 7 1 (reg R.ZLT_JOB_JOB_ID 0 77 (mem1 penHerd))))), { typ := 4, tc := 0, src := 6, dst := 5, job := 77, payload := leBytes 4 0 ++ leBytes 4 1 ++ leBytes 2 6 ++ leBytes 1 2 ++ zeros 5 }, 7, by decide +kernel⟩

theorem wit_PutsAndPegs_6 : ∃ (g : GroupId) (s : State) (t0 : Nat),
    s.hw.get R.PEG_GSTATUS_STATE g = 1 ∧
    (s.hw.peg g).setAt = some t0 ∧
    s.hw.pegWaits g = [] :=
  ⟨7, reg R.PEG_GTO_PEER_TO_US 7 500 (dev (fun d => { d with pegs := [(7, { locals := 1, setAt := some 9 })] }) (reg R.PEG_GSTATUS_STATE 7 1 (reg R.PEG_GSEQ_SEQ 7 1 (reg R.PEG_GCFG_ENABLE 7 1 (reg R.ZLT_JOB_JOB_ID 0 77 (mem1 penHerd)))))), 9, by decide⟩

theorem wit_PutsAndPegs_7 : ∃ (g : GroupId) (s : State),
    s.hw.hostUp = true ∧
    s.hw.pegBusy g = false ∧
    s.hw.is R.PEG_GCFG_ENABLE g = false ∧
    s.hw.get R.PEG_GSTATUS_STATE g ≠ 2 :=
  ⟨7, herd, by decide⟩

theorem wit_PutsAndPegs_8 : ∃ (g : GroupId) (s : State),
    s.hw.hostUp = true ∧
    s.hw.pegBusy g = false ∧
    s.hw.is R.PEG_GCFG_ENABLE g = false ∧
    s.hw.get R.PEG_GSTATUS_STATE g = 2 :=
  ⟨7, reg R.PEG_GSTATUS_STATE 7 2 herd, by decide⟩

theorem wit_PutsAndPegs_9 : ∃ (g : GroupId) (s : State),
    s.hw.hostUp = true ∧
    s.hw.pegBusy g = false :=
  ⟨7, reg R.PEG_GSTATUS_STATE 7 2 (reg R.PEG_GSTATUS_STATE 7 1 (reg R.PEG_GSEQ_SEQ 7 1 (reg R.PEG_GCFG_ENABLE 7 1 (reg R.ZLT_JOB_JOB_ID 0 77 (mem1 penHerd))))), by decide⟩

theorem wit_PutsAndPegs_10 : ∃ (g : GroupId) (s : State),
    s.hw.hostUp = true ∧
    s.hw.pegBusy g = true :=
  ⟨7, dev (fun d => { d with pegs := [(7, { locals := 1 })] }) (reg R.PEG_GSTATUS_STATE 7 1 (reg R.PEG_GSEQ_SEQ 7 1 (reg R.PEG_GCFG_ENABLE 7 1 (reg R.ZLT_JOB_JOB_ID 0 77 (mem1 penHerd))))), by decide⟩

theorem wit_PutsAndPegs_11 : ∃ (s : State),
    s.hw.hostUp = true :=
  ⟨herd, by decide⟩

theorem wit_YokePairing_1 : ∃ (l : LinkId) (raw : Bytes) (udpOk : Bool) (s : State) (p : Pkt) (q : Nat),
    s.hw.Reads l raw udpOk p ∧
    s.hw.IsNew p ∧
    p.typ = 7 ∧
    s.hw.isYoke l 7 1 p = true ∧
    fld p.payload 1 1 = q ∧
    s.hw.yoked q = true ∧
    s.hw.noneWhole = true ∧
    fld p.payload 0x28 4 = (s.hw.yokeCfg.map (·.pairTag)).getD 0 ∧
    s.hw.yokeSt q = 0 ∧
    fld p.payload 2 1 = 0 ∧
    (s.hw.pen q).bound.all (fun b => !b.held) = true ∧
    (s.hw.pen q).kv.cfg = none :=
  ⟨1, (ctrlPk 1 0 0 0 0 0).bytes, false, paired, (ctrlPk 1 0 0 0 0 0), 0, by decide +kernel⟩

theorem wit_YokePairing_2 : ∃ (l : LinkId) (raw : Bytes) (udpOk : Bool) (s : State) (p : Pkt) (q : Nat),
    s.hw.Reads l raw udpOk p ∧
    s.hw.IsNew p ∧
    p.typ = 7 ∧
    s.hw.isYoke l 7 1 p = true ∧
    fld p.payload 1 1 = q ∧
    s.hw.yoked q = true ∧
    s.hw.noneWhole = true ∧
    fld p.payload 0x28 4 = (s.hw.yokeCfg.map (·.pairTag)).getD 0 ∧
    slice p.payload 0x18 16 = s.hw.descDigest q ∧
    s.hw.yokeSt q = 5 ∧
    fld p.payload 2 1 = 5 :=
  ⟨1, ({ ctrlPk 1 5 0 0 0 0 with payload := ctrlPayload 1 0 5 0 0 0 0 (paired.hw.descDigest 0) 9 }).bytes, false, reg R.YOK_PEN_STATE_STATE 0 5 (paired), ({ ctrlPk 1 5 0 0 0 0 with payload := ctrlPayload 1 0 5 0 0 0 0 (paired.hw.descDigest 0) 9 }), 0, by decide +kernel⟩

theorem wit_YokePairing_3 : ∃ (l : LinkId) (raw : Bytes) (udpOk : Bool) (s : State) (p : Pkt) (q : Nat),
    s.hw.Reads l raw udpOk p ∧
    s.hw.IsNew p ∧
    p.typ = 7 ∧
    s.hw.isYoke l 7 2 p = true ∧
    fld p.payload 1 1 = q ∧
    s.hw.yoked q = true ∧
    s.hw.noneWhole = true ∧
    fld p.payload 0x28 4 = (s.hw.yokeCfg.map (·.pairTag)).getD 0 ∧
    s.hw.yokeSt q ≠ 0 ∧
    s.hw.yokeSt q ≠ 6 ∧
    (s.hw.pen q).bound.all (fun b => !b.held) = true :=
  ⟨1, (ctrlPk 2 2 0 0 0 0).bytes, false, reg R.YOK_PEN_STATE_STATE 0 2 (paired), (ctrlPk 2 2 0 0 0 0), 0, by decide +kernel⟩

theorem wit_YokePairing_4 : ∃ (l : LinkId) (raw : Bytes) (udpOk : Bool) (s : State) (p : Pkt) (q : Nat) (c : CommitSt),
    s.hw.Reads l raw udpOk p ∧
    s.hw.IsNew p ∧
    p.typ = 7 ∧
    s.hw.isYoke l 7 4 p = true ∧
    fld p.payload 1 1 = q ∧
    s.hw.yoked q = true ∧
    s.hw.noneWhole = true ∧
    (s.hw.pen q).yoke.flight.find? (fun c => c.no == fld p.payload 4 4) = some c ∧
    c.held = [] :=
  ⟨1, (ctrlPk 4 2 3 0 0 0).bytes, false, reg R.YOK_PEN_STATE_STATE 0 1 (yok (fun y => { y with bulk := some 3, flight := [⟨3, [], [8], [2], true, 64, 0⟩] }) paired), (ctrlPk 4 2 3 0 0 0), 0, ⟨3, [], [8], [2], true, 64, 0⟩, by decide +kernel⟩

theorem wit_YokePairing_5 : ∃ (q : PenId) (s : State) (c : CommitSt) (y : YokeCfg),
    (s.hw.pen q).yoke.flight.find? (fun c => !c.sent) = some c ∧
    s.hw.yokeCfg = some y ∧
    (s.hw.dev.txq.any fun x => (x.2.typ == 5 || x.2.typ == 6) && x.2.pen == q.val) = false ∧
    c.bytes ≤ (s.hw.stageHalf q).2 :=
  ⟨0, yok (fun y => { y with flight := [⟨3, [], [8], [2], false, 64, 0⟩] }) paired, ⟨3, [], [8], [2], false, 64, 0⟩, yoke0, by decide⟩

theorem wit_YokePairing_6 : ∃ (q : PenId) (s : State),
    s.hw.yokeSt q = 3 ∧
    s.hw.partnerLost q = true ∧
    (s.hw.pen q).yoke.cribs = [] ∧
    s.hw.dev.load = none :=
  ⟨0, reg R.YOK_PEN_STATE_STATE 0 3 (reg R.YOK_PEN_STATE_MISSED 0 3 paired), by decide⟩

theorem wit_YokePairing_7 : ∃ (q : PenId) (s : State),
    s.hw.yokeSt q = 2 ∧
    s.hw.partnerLost q = true ∧
    (s.hw.pen q).bound.all (fun b => !b.held) = true :=
  ⟨0, reg R.YOK_PEN_STATE_STATE 0 2 (at5 (yok (fun y => { y with lost := some 0, flight := [⟨3, [], [8], [2], false, 64, 0⟩] }) paired)), by decide⟩

theorem wit_YokePairing_8 : ∃ (q : PenId) (s : State),
    s.hw.hostUp = true ∧
    s.hw.yoked q = true ∧
    (s.hw.pen q).yoke.demote = none ∧
    s.hw.penTenants q ≠ [] :=
  ⟨0, dev (fun d => { d with truss := some { herdImage with yoke := some yoke0, tenants := [tenant7] } }) paired, by decide⟩

theorem wit_YokePairing_9 : ∃ (q : PenId) (s : State),
    s.hw.yokeSt q = 1 ∧
    s.hw.is R.YOK_PEN_STATE_ROLE q = true ∧
    (s.hw.pen q).yoke.bulk = none :=
  ⟨0, reg R.YOK_PEN_STATE_STATE 0 1 (reg R.YOK_PEN_STATE_ROLE 0 1 paired), by decide⟩

theorem wit_YokeData_1 : ∃ (l : LinkId) (raw : Bytes) (udpOk : Bool) (s : State) (p : Pkt) (q : Nat),
    s.hw.Reads l raw udpOk p ∧
    s.hw.IsNew p ∧
    p.typ = 5 ∧
    s.hw.isYoke l 5 0 p = true ∧
    p.pen = q ∧
    s.hw.yoked q = true ∧
    s.hw.noneWhole = true ∧
    0 < p.payload.length ∧
    p.payload.length ≤ 4096 ∧
    s.hw.directOk p.addr p.payload.length = true ∧
    ((spdBase ≤ p.addr → s.hw.is R.SPD_STATUS_ZEROING ((p.addr - spdBase) / spdSlot) = false)) ∧
    (granulesOf p.addr p.payload.length).all (fun g => !(s.hw.deadGranule g)) = true :=
  ⟨1, (dataPk 5 0 (20 * granule - 2) [7#8, 8#8, 9#8]).bytes, false, mem1 paired, (dataPk 5 0 (20 * granule - 2) [7#8, 8#8, 9#8]), 0, by decide +kernel⟩

theorem wit_YokeData_2 : ∃ (l : LinkId) (raw : Bytes) (udpOk : Bool) (s : State) (p : Pkt) (q : Nat) (j : Nat),
    s.hw.Reads l raw udpOk p ∧
    s.hw.IsNew p ∧
    p.typ = 6 ∧
    s.hw.isYoke l 6 0 p = true ∧
    p.pen = q ∧
    s.hw.yoked q = true ∧
    s.hw.noneWhole = true ∧
    s.hw.receives q = true ∧
    (s.hw.pen q).yoke.fresh p.psn = true ∧
    s.hw.get R.YOK_COMMIT_NO_COMMIT q < p.commit ∧
    p.addr + p.payload.length ≤ (s.hw.stageHalf q).2 ∧
    j = (s.hw.stageHalf q).1 + p.commit % 2 * (s.hw.stageHalf q).2 + p.addr ∧
    (granulesOf j p.payload.length).all (fun g => !(s.hw.deadGranule g)) = true ∧
    j + p.payload.length ≤ spdBase :=
  ⟨1, (dataPk 6 1 32 [7#8, 8#8, 9#8]).bytes, false, reg R.YOK_PEN_STATE_STATE 0 3 (mem1 paired), (dataPk 6 1 32 [7#8, 8#8, 9#8]), 0, 64 * granule + 2 * granule + 32, by decide +kernel⟩

theorem wit_YokeData_3 : ∃ (l : LinkId) (raw : Bytes) (udpOk : Bool) (ce : Bool) (s : State) (p : Pkt) (q : Nat) (x : RxJournal) (bs : Bytes) (j : JItem),
    s.hw.Reads l raw udpOk p ∧
    s.hw.IsNew p ∧
    p.typ = 7 ∧
    s.hw.isYoke l 7 3 p = true ∧
    fld p.payload 1 1 = q ∧
    s.hw.yoked q = true ∧
    (s.hw.penList.all fun n => n == q || (s.hw.pen n).yoke.rx.all fun j => j.len.isNone) = true ∧
    s.hw.present q = true ∧
    s.hw.receives q = true ∧
    (s.hw.pen q).yoke.fresh p.psn = true ∧
    (s.hw.taken l raw ce p).holdsAll p.psn = true ∧
    fld p.payload 4 4 = s.hw.get R.YOK_COMMIT_NO_COMMIT q + 1 ∧
    (s.hw.pen q).yoke.rx = [x] ∧
    x.no = fld p.payload 4 4 ∧
    ({ x with len := some (fld p.payload 0xC 4) } : RxJournal).whole = some bs ∧
    bs.length ≤ (s.hw.stageHalf q).2 ∧
    journalItems (bs.length / 16 + 1) bs = [j] ∧
    j.kind = 1 ∧
    j.addr + j.bytes.length ≤ spdBase ∧
    (granulesOf j.addr j.bytes.length).all (fun g => !(s.hw.deadGranule g)) = true :=
  ⟨1, (ctrlPk 3 2 1 0 32 0).bytes, false, false, reg R.YOK_PEN_STATE_STATE 0 3 (yok (fun y => { y with rx := [⟨1, [(0, item1.enc)], none, 0⟩] }) (mem1 paired)), (ctrlPk 3 2 1 0 32 0), 0, ⟨1, [(0, item1.enc)], none, 0⟩, item1.enc, item1, by decide +kernel⟩

theorem wit_YokeData_4 : ∃ (l : LinkId) (raw : Bytes) (udpOk : Bool) (s : State) (p : Pkt) (q : Nat),
    s.hw.Reads l raw udpOk p ∧
    s.hw.IsNew p ∧
    p.typ = 7 ∧
    s.hw.isYoke l 7 5 p = true ∧
    fld p.payload 1 1 = q ∧
    s.hw.yoked q = true ∧
    s.hw.noneWhole = true ∧
    s.hw.is R.YOK_STATUS_PAIRED = true ∧
    0 < fld p.payload 0xC 4 ∧
    fld p.payload 0xC 4 ≤ 0x1000000 ∧
    fld p.payload 0x10 8 + fld p.payload 0xC 4 ≤ hbmEnd ∧
    ((s.hw.desc q).any fun d => d.hbm.any fun g => within (fld p.payload 0x10 8) (fld p.payload 0xC 4) (g.start * granule) (g.count * granule)) = true :=
  ⟨1, (ctrlPk 5 2 0 0 64 (17 * granule)).bytes, false, reg R.YOK_STATUS_PAIRED 0 1 (mem1 paired), (ctrlPk 5 2 0 0 64 (17 * granule)), 0, by decide +kernel⟩

theorem wit_YokeData_5 : ∃ (l : LinkId) (raw : Bytes) (udpOk : Bool) (s : State) (p : Pkt) (q : Nat),
    s.hw.Reads l raw udpOk p ∧
    s.hw.IsNew p ∧
    p.typ = 7 ∧
    s.hw.isYoke l 7 5 p = true ∧
    fld p.payload 1 1 = q ∧
    s.hw.yoked q = true ∧
    s.hw.noneWhole = true ∧
    fld p.payload 0xC 4 = 0 :=
  ⟨1, (ctrlPk 5 2 0 0 0 0x1000000).bytes, false, mem1 paired, (ctrlPk 5 2 0 0 0 0x1000000), 0, by decide +kernel⟩

theorem wit_YokeData_6 : ∃ (l : LinkId) (raw : Bytes) (udpOk : Bool) (s : State) (p : Pkt) (q : Nat) (u : Nat) (e : Nat) (x : Unavail),
    s.hw.Reads l raw udpOk p ∧
    s.hw.IsNew p ∧
    p.typ = 7 ∧
    s.hw.isYoke l 7 6 p = true ∧
    fld p.payload 1 1 = q ∧
    s.hw.yoked q = true ∧
    s.hw.noneWhole = true ∧
    s.hw.unavOf (fld p.payload 0x10 8) (fld p.payload 0xC 4) = some (u, e) ∧
    s.hw.unavAt u e = some x ∧
    x.need.filter (· != (fld p.payload 0x10 8, fld p.payload 0xC 4)) ≠ [] :=
  ⟨1, (ctrlPk 6 2 0 0 64 0x1000000).bytes, false, dev (fun d => { d with unav := [(2, [unav1])] }) paired, (ctrlPk 6 2 0 0 64 0x1000000), 0, 2, 0, unav1, by decide +kernel⟩

theorem wit_YokeData_7 : ∃ (l : LinkId) (raw : Bytes) (udpOk : Bool) (s : State) (p : Pkt) (q : Nat) (u : Nat) (e : Nat) (x : Unavail),
    s.hw.Reads l raw udpOk p ∧
    s.hw.IsNew p ∧
    p.typ = 7 ∧
    s.hw.isYoke l 7 7 p = true ∧
    fld p.payload 1 1 = q ∧
    s.hw.yoked q = true ∧
    s.hw.noneWhole = true ∧
    s.hw.unavOf (fld p.payload 0x10 8) (fld p.payload 0xC 4) = some (u, e) ∧
    s.hw.unavAt u e = some x :=
  ⟨1, (ctrlPk 7 2 0 0 64 0x1000000).bytes, false, dev (fun d => { d with unav := [(2, [unav1])] }) paired, (ctrlPk 7 2 0 0 64 0x1000000), 0, 2, 0, unav1, by decide +kernel⟩

theorem wit_LoadControl_1 : ∃ (s : State),
    s.hw.hostUp = true ∧
    s.hw.get R.TRS_STATUS_STATE 0 = 0 :=
  ⟨reg R.TRS_SRC_LEN_LEN 0 546 up, by decide⟩

theorem wit_LoadControl_2 : ∃ (s : State),
    s.hw.hostUp = true ∧
    s.hw.get R.TRS_STATUS_STATE 0 ≠ 0 :=
  ⟨reg R.TRS_STATUS_STATE 0 3 up, by decide⟩

theorem wit_LoadControl_3 : ∃ (s : State),
    s.hw.hostUp = true ∧
    1 ≤ s.hw.get R.TRS_STATUS_STATE 0 ∧
    s.hw.get R.TRS_STATUS_STATE 0 ≤ 4 :=
  ⟨loading 4 (fun l => { l with whole := false }) upPen, by decide⟩

theorem wit_LoadControl_4 : ∃ (s : State),
    s.hw.hostUp = true :=
  ⟨upPen, by decide⟩

theorem wit_LoadControl_5 : ∃ (s : State),
    s.hw.hostUp = true ∧
    (s.hw.dev.load.any (·.whole) && decide (5 ≤ s.hw.get R.TRS_STATUS_STATE 0)) = false :=
  ⟨reg R.TRS_STATUS_QUIESCED 0 1 upPen, by decide⟩

theorem wit_LoadControl_6 : ∃ (s : State),
    s.hw.is R.TRS_CTRL_QUIESCE 0 = true ∧
    ((s.hw.penList = [] ∨ s.hw.dev.quiet = true)) ∧
    s.hw.penList.all (fun p => (s.hw.pen p).frames.isEmpty && (s.hw.pen p).bound.isEmpty && (s.hw.pen p).deferred.isEmpty) = true :=
  ⟨reg R.TRS_CTRL_QUIESCE 0 1 (dev (fun d => { d with quiet := true }) upPen), by decide⟩

theorem wit_TrussLoads_1 : ∃ (s : State) (l : Load),
    s.hw.dev.load = some l ∧
    s.hw.get R.TRS_STATUS_STATE 0 = 1 ∧
    512 ≤ l.len ∧
    l.len ≤ 0x1000000 ∧
    l.src % 8 = 0 ∧
    s.hw.dmaOk 0 l.src l.len false = true ∧
    (granulesOf 0 l.len).all (fun g => !(s.hw.deadGranule g)) = true :=
  ⟨loading 1 id (dev (fun d => { d with dmaWin := [(0, (7, 0xF000))] }) up), { len := 546, src := 0x1000 }, by decide⟩

theorem wit_TrussLoads_2 : ∃ (s : State) (l : Load) (b : Bytes),
    s.hw.dev.load = some l ∧
    s.hw.get R.TRS_STATUS_STATE 0 = 2 ∧
    b = (List.range l.len).map (fun i => s.devByte i) ∧
    (Run.memRead ⟨s.hw, s.mem, []⟩ .device 0 l.len).2.1 = 0 ∧
    checkFormat b l.len = none ∧
    s.hw.checkCompat b = none ∧
    s.hw.checkSerial b = none ∧
    ((fld b 0xC 1 = 0 → s.hw.is R.TRS_STATUS_QUIESCED 0 = true)) ∧
    Tbl.get [] (fld b 0x34 4) l.keys ≠ [] :=
  ⟨loading 2 (fun l => { l with keys := [(0, [1#8])] }) (reg R.TRS_STATUS_QUIESCED 0 1 up), { len := 546, src := 0x1000, keys := [(0, [1#8])] }, smallImage, by decide +kernel⟩

theorem wit_TrussLoads_3 : ∃ (s : State) (l : Load) (b : Bytes),
    s.hw.dev.load = some l ∧
    s.hw.get R.TRS_STATUS_STATE 0 = 3 ∧
    b = (List.range l.len).map (fun i => s.devByte i) ∧
    (Run.memRead ⟨s.hw, s.mem, []⟩ .device 0 l.len).2.1 = 0 ∧
    l.whole = true ∧
    s.hw.is R.TRS_STATUS_QUIESCED 0 = true ∧
    s.hw.checkSections b (wholeTruss b) = none :=
  ⟨loading 3 id (reg R.TRS_STATUS_QUIESCED 0 1 up), { len := 546, src := 0x1000 }, smallImage, by decide +kernel⟩

theorem wit_TrussLoads_4 : ∃ (s : State) (l : Load) (b : Bytes) (o : Truss),
    s.hw.dev.load = some l ∧
    s.hw.get R.TRS_STATUS_STATE 0 = 3 ∧
    b = (List.range l.len).map (fun i => s.devByte i) ∧
    (Run.memRead ⟨s.hw, s.mem, []⟩ .device 0 l.len).2.1 = 0 ∧
    l.whole = false ∧
    l.pen < 16 ∧
    s.hw.dev.truss = some o ∧
    s.hw.checkSections b (penTruss o b) = none :=
  ⟨{ loading 3 (fun _ => { len := 514, src := 0x1000, whole := false, pen := 0 }) upPen with mem := { dev := cells 0 penImage, host := [], mark := [] } }, { len := 514, src := 0x1000, whole := false, pen := 0 }, penImage, image, by decide +kernel⟩

theorem wit_TrussLoads_5 : ∃ (s : State) (l : Load) (n : Truss),
    s.hw.dev.load = some l ∧
    s.hw.get R.TRS_STATUS_STATE 0 = 5 ∧
    l.whole = true ∧
    l.next = some n :=
  ⟨loading 5 (fun l => { l with serial := 3, next := some image }) up, { len := 546, src := 0x1000, serial := 3, next := some image }, image, by decide⟩

theorem wit_TrussLoads_6 : ∃ (s : State) (l : Load),
    s.hw.dev.load = some l ∧
    s.hw.get R.TRS_STATUS_STATE 0 = 6 ∧
    l.whole = true ∧
    ((List.range 192).any fun n => s.hw.is R.SPD_STATUS_ZEROING n) = false ∧
    s.hw.yokeCfg = none :=
  ⟨loading 6 (fun l => { l with scrub := [⟨0, 2⟩] }) noZero, { len := 546, src := 0x1000, scrub := [⟨0, 2⟩] }, by decide +kernel⟩

theorem wit_TrussLoads_7 : ∃ (s : State) (l : Load) (n : Truss) (o : Truss),
    s.hw.dev.load = some l ∧
    s.hw.dev.truss = some o ∧
    l.next = some n ∧
    s.hw.mayCommit l.pen = true :=
  ⟨loading 4 (fun l => { l with whole := false, heavy := true, refuseF := some 3, serial := 4, next := some image }) upPen, { len := 546, src := 0x1000, whole := false, heavy := true, refuseF := some 3, serial := 4, next := some image }, image, image, by decide⟩

theorem wit_RetireScrubRefetch_1 : ∃ (k : Fin 16) (e : Fin 1024) (v : BitVec 32) (s : State),
    s.hw.hostUp = true ∧
    s.hw.is R.MHB_RET_ENTRY_VALID (k.val * 1024 + e.val) = false ∧
    bit v.toNat 31 = true ∧
    v.toNat % 2 ^ 15 < 24576 ∧
    ¬(k.val = 0 ∧ v.toNat % 2 ^ 15 < 16) ∧
    ((List.range 1024).any fun j => s.hw.is R.MHB_RET_ENTRY_VALID (k.val * 1024 + j) && s.hw.get R.MHB_RET_ENTRY_PAGE (k.val * 1024 + j) == v.toNat % 2 ^ 15) = false :=
  ⟨3, 5, 0x80000020#32, mem1 upPen, by decide +kernel⟩

theorem wit_RetireScrubRefetch_2 : ∃ (k : Fin 16) (e : Fin 1024) (v : BitVec 32) (s : State),
    s.hw.hostUp = true ∧
    s.hw.is R.MHB_RET_ENTRY_VALID (k.val * 1024 + e.val) = false ∧
    bit v.toNat 31 = true ∧
    ((24576 ≤ v.toNat % 2 ^ 15 ∨ (k.val = 0 ∧ v.toNat % 2 ^ 15 < 16))) :=
  ⟨0, 5, 0x8000000F#32, upPen, by decide⟩

theorem wit_RetireScrubRefetch_3 : ∃ (k : Fin 16) (e : Fin 1024) (s : State),
    s.hw.hostUp = true ∧
    s.hw.is R.MHB_RET_ENTRY_VALID (k.val * 1024 + e.val) = true :=
  ⟨0, 5, reg R.MHB_RET_ENTRY_VALID 5 1 upPen, by decide⟩

theorem wit_RetireScrubRefetch_4 : ∃ (e : Fin 4096) (v : BitVec 32) (s : State),
    s.hw.hostUp = true ∧
    s.hw.is R.MHB_LOFT_RET_ENTRY_VALID e = false ∧
    bit v.toNat 31 = true ∧
    v.toNat % 2 ^ 20 < (loftEnd s.hw.loftTib - loftBase) / granule ∧
    s.hw.loftRetired.contains (v.toNat % 2 ^ 20) = false :=
  ⟨7, 0x80000003#32, reg R.HIF_MODULE_ID_LOFT_TIB 0 1 upPen, by decide⟩

theorem wit_RetireScrubRefetch_5 : ∃ (u : ScrubUnit) (ups : List Upset) (s : State),
    s.hw.mgt.phase = .run ∧
    (s.hw.upset ups).dev.soft.all (fun kv => !(Machine.ScrubUnit.holds u kv.1) || decide (kv.1 * 64 < loftEnd s.hw.loftTib)) = true :=
  ⟨.hub 0, [{ line := 18, kind := .double }], dev (fun d => { d with soft := [(17, 1)] }) (mem1 upPen), by decide⟩

theorem wit_RetireScrubRefetch_6 : ∃ (s : State) (x : Unavail),
    s.hw.hostUp = true ∧
    s.hw.unavAt (s.hw.get R.ERR_RF_SEL_HUB 0) (s.hw.get R.ERR_RF_SEL_ENTRY 0) = some x ∧
    x.state = 2 ∧
    x.src = none ∧
    x.need.all (fun n => s.hw.dmaOk 0 (s.hw.get R.ERR_RF_SRC_ADDR 0 + n.1 - x.hdr) n.2 false) = true :=
  ⟨reg R.ERR_RF_SRC_ADDR 0 0x1000 (dev (fun d => { d with unav := [(0, [{ unav1 with state := 2 }])], dmaWin := [(0, (7, 0xF000))] }) up), { unav1 with state := 2 }, by decide⟩

theorem wit_RetireScrubRefetch_7 : ∃ (m : HubId) (e : Fin 64) (s : State) (x : Unavail) (src : Nat),
    s.hw.unavAt m e = some x ∧
    x.src = some src ∧
    x.need.all (fun n => decide (x.hdr ≤ n.1) && decide (n.1 + n.2 ≤ hbmEnd) && (granulesOf n.1 n.2).all (fun g => !(s.hw.deadGranule g))) = true :=
  ⟨0, 0, dev (fun d => { d with unav := [(0, [{ unav1 with state := 2, src := some 0x1000 }])] }) { up with mem := { dev := [], host := [(0x1100, 9#8)], mark := [] } }, { unav1 with state := 2, src := some 0x1000 }, 0x1000, by decide⟩

theorem wit_RetireScrubRefetch_8 : ∃ (m : HubId) (e : Fin 64) (s : State) (x : Unavail),
    s.hw.unavAt m e = some x ∧
    x.state ≠ 3 ∧
    x.listed + 8 ≤ s.hw.clk.frame :=
  ⟨0, 0, dev (fun d => { d with unav := [(0, [unav1])] }) { up with hw := { up.hw with clk := { up.hw.clk with frame := 9 } } }, unav1, by decide⟩

theorem wit_MeasureAndEstimate_1 : ∃ (s : State),
    s.hw.lit = true :=
  ⟨up, by decide⟩

theorem wit_MeasureAndEstimate_2 : ∃ (s : State),
    s.hw.diesUp = true :=
  ⟨upPen, by decide⟩

theorem wit_MeasureAndEstimate_3 : ∃ (s : State),
    s.hw.diesUp = true ∧
    s.hw.mgt.sdgUp = true ∧
    0 < s.hw.mgt.pwr.raw ∧
    3 * s.hw.mgt.pwr.raw ≤ 4 * s.hw.mgt.pwr.meas ∧
    2 * s.hw.mgt.pwr.meas ≤ 3 * s.hw.mgt.pwr.raw :=
  ⟨pwr (fun p => { p with raw := 1000, meas := 1100 }) up, by decide⟩

theorem wit_MeasureAndEstimate_4 : ∃ (s : State),
    s.hw.diesUp = true ∧
    s.hw.mgt.sdgUp = true ∧
    ((4 * s.hw.mgt.pwr.meas < 3 * s.hw.mgt.pwr.raw ∨ 3 * s.hw.mgt.pwr.raw < 2 * s.hw.mgt.pwr.meas)) :=
  ⟨pwr (fun p => { p with raw := 1000, meas := 1600 }) up, by decide⟩

theorem wit_CapAndClamp_1 : ∃ (s : State),
    s.hw.hostUp = true :=
  ⟨up, by decide⟩

theorem wit_CapAndClamp_2 : ∃ (s : State),
    s.hw.diesUp = true ∧
    100 ≤ s.hw.mgt.pwr.overUs ∧
    s.hw.is R.PWR_STATUS_CAP_HELD = false :=
  ⟨pwr (fun p => { p with overUs := 100 }) up, by decide⟩

theorem wit_CapAndClamp_3 : ∃ (s : State),
    s.hw.diesUp = true ∧
    s.hw.is R.PWR_STATUS_CLAMP = false :=
  ⟨up, by decide⟩

theorem wit_CapAndClamp_4 : ∃ (t0 : Nat) (s : State),
    s.hw.is R.PWR_STATUS_CLAMP = true ∧
    s.hw.mgt.pwr.clampAt = some t0 :=
  ⟨7, reg R.PWR_STATUS_CLAMP 0 1 (pwr (fun p => { p with clampAt := some 7 }) up), by decide⟩

theorem wit_CapAndClamp_5 : ∃ (s : State),
    s.hw.diesUp = true :=
  ⟨up, by decide⟩

theorem wit_SagWarning_1 : ∃ (ext : Bool) (s : State),
    s.hw.lit = true ∧
    (ext && s.hw.drivesSagN) = false ∧
    s.hw.is R.PWR_STATUS_SAG_WARN = false :=
  ⟨true, upPen, by decide⟩

theorem wit_SagWarning_2 : ∃ (ext : Bool) (s : State),
    s.hw.lit = true ∧
    (ext && s.hw.drivesSagN) = false ∧
    s.hw.is R.PWR_STATUS_SAG_WARN = true :=
  ⟨false, reg R.PWR_STATUS_SAG_WARN 0 1 upPen, by decide⟩

theorem wit_SagWarning_3 : ∃ (t0 : Nat) (s : State),
    s.hw.lit = true ∧
    s.hw.is R.PWR_STATUS_SAG_WARN = true ∧
    s.hw.mgt.pwr.sample = none ∧
    s.hw.mgt.pwr.sagExt = false ∧
    s.hw.mgt.pwr.sagFree = false ∧
    s.hw.mgt.pwr.in52 = some t0 :=
  ⟨0, reg R.PWR_STATUS_SAG_WARN 0 1 upPen, by decide⟩

theorem wit_SagWarning_4 : ∃ (t0 : Nat) (s : State),
    s.hw.lit = true ∧
    s.hw.is R.PWR_STATUS_SAG_WARN = true ∧
    s.hw.mgt.pwr.sample = none ∧
    s.hw.mgt.pwr.sagExt = false ∧
    s.hw.mgt.pwr.sagFree = true ∧
    s.hw.mgt.pwr.in52 = some t0 :=
  ⟨0, reg R.PWR_STATUS_SAG_WARN 0 1 (pwr (fun p => { p with sagFree := true }) upPen), by decide⟩

theorem wit_SagWarning_5 : ∃ (t0 : Nat) (s : State),
    s.hw.lit = true ∧
    s.hw.mgt.pwr.sample = some t0 :=
  ⟨3, reg R.PWR_STATUS_SAG_WARN 0 1 (pwr (fun p => { p with sample := some 3 }) upPen), by decide⟩

theorem wit_SagWarning_6 : ∃ (t0 : Nat) (s : State),
    s.hw.lit = true ∧
    s.hw.mgt.pwr.sample = some t0 :=
  ⟨3, reg R.PWR_STATUS_SAG_WARN 0 1 (pwr (fun p => { p with sample := some 3 }) upPen), by decide⟩

theorem wit_SagWarning_7 : ∃ (s : State),
    s.hw.lit = true ∧
    s.hw.is R.PWR_STATUS_SAG_WARN = true ∧
    s.hw.mgt.pwr.sagExt = true :=
  ⟨reg R.PWR_STATUS_SAG_WARN 0 1 (pwr (fun p => { p with sagExt := true }) upPen), by decide⟩

theorem wit_SagWarning_8 : ∃ (s : State),
    s.hw.lit = true :=
  ⟨up, by decide⟩

theorem wit_ThermalConditions_1 : ∃ (d : Fin 24) (s : State),
    s.hw.lit = true ∧
    s.hw.tripped (.ct d) = false :=
  ⟨0, upPen, by decide⟩

theorem wit_ThermalConditions_2 : ∃ (s : State),
    s.hw.lit = true :=
  ⟨upPen, by decide⟩

theorem wit_ThermalConditions_3 : ∃ (u : ThermUnit) (s : State),
    s.hw.lit = true ∧
    s.hw.tripped u = false :=
  ⟨.zone 0, upPen, by decide⟩

theorem wit_ThermalConditions_4 : ∃ (u : ThermUnit) (s : State),
    s.hw.lit = true ∧
    s.hw.tripped u = true ∧
    (((match u with | .ct _ => true | .zone _ => true | _ => false) = true → 100 ≤ (s.hw.therm u).cool)) :=
  ⟨.hx, reg R.THM_DIE_TRIP 6 1 upPen, by decide⟩

theorem wit_ThermalConditions_5 : ∃ (d : Fin 24) (aclk : Nat) (s : State),
    s.hw.diesUp = true ∧
    aclk < (Tbl.get {} d.val s.hw.mgt.pwr.droop).win * 100 ∧
    s.hw.is R.PWR_DROOP_EXCESS_ACTIVE d = false :=
  ⟨0, 1000, pwr (fun p => { p with droop := [(0, { win := 11 })] }) upPen, by decide⟩

theorem wit_ThermalConditions_6 : ∃ (d : Fin 24) (aclk : Nat) (s : State),
    s.hw.diesUp = true ∧
    (Tbl.get {} d.val s.hw.mgt.pwr.droop).win * 100 ≤ aclk :=
  ⟨0, 1000, reg R.PWR_DROOP_EXCESS_ACTIVE 0 1 (pwr (fun p => { p with droop := [(0, { win := 10, calm := 9 })] }) upPen), by decide⟩

theorem wit_LevelTracking : ∃ (x : Therm) (e1 e2 : Nat), e1 < e2 ∧ x.level ≤ 2 := ⟨{}, 95, 100, by decide⟩

theorem wit_DeviceResets_1 : ∃ (s : State),
    s.hw.diesUp = true :=
  ⟨mem1 (dev (fun d => { d with ports := [0] }) upPen), by decide⟩

theorem wit_DeviceResets_2 : ∃ (s : State),
    s.hw.diesUp = true :=
  ⟨mem1 (dev (fun d => { d with ports := [0] }) upPen), by decide⟩

theorem wit_DeviceResets_3 : ∃ (t0 : Nat) (s : State),
    s.hw.diesUp = true ∧
    s.hw.is R.PWR_STATUS_CLAMP = true ∧
    s.hw.mgt.pwr.clampAt = some t0 :=
  ⟨5, reg R.PWR_STATUS_CLAMP 0 1 (pwr (fun p => { p with clampAt := some 5 }) (mem1 (dev (fun d => { d with ports := [0] }) upPen))), by decide⟩

theorem wit_DeviceResets_4 : ∃ (s : State),
    s.hw.diesUp = true :=
  ⟨mem1 (dev (fun d => { d with ports := [0] }) upPen), by decide⟩

theorem wit_DeviceResets_5 : ∃ (d : Fin 40) (s : State),
    s.hw.diesUp = true ∧
    24 ≤ d.val :=
  ⟨24, mem1 (dev (fun d => { d with ports := [0] }) upPen), by decide⟩

theorem wit_DeviceResets_6 : ∃ (d : Fin 40) (s : State),
    s.hw.diesUp = true ∧
    24 ≤ d.val ∧
    d.val < 39 :=
  ⟨38, mem1 (dev (fun d => { d with ports := [0] }) upPen), by decide⟩

theorem wit_DeviceResets_7 : ∃ (s : State),
    s.hw.hostUp = true :=
  ⟨mem1 (dev (fun d => { d with ports := [0] }) upPen), by decide⟩

theorem wit_DeviceResets_8 : ∃ (s : State),
    s.hw.diesUp = true ∧
    s.hw.dev.ports.contains 0 = true :=
  ⟨mem1 (dev (fun d => { d with ports := [0] }) upPen), by decide⟩

theorem wit_DeviceResets_9 : ∃ (s : State),
    s.hw.portUp 0 = true :=
  ⟨mem1 (dev (fun d => { d with ports := [0] }) upPen), by decide⟩

theorem wit_DeviceResets_10 : ∃ (s : State),
    s.hw.portUp 0 = true :=
  ⟨mem1 (dev (fun d => { d with ports := [0] }) upPen), by decide⟩

theorem wit_FencesStart_1 : ∃ (p : PenId) (s : State),
    s.hw.hostUp = true ∧
    s.hw.present p = true ∧
    s.hw.get R.ERR_PEN_STATE_STATE p = 0 :=
  ⟨0, upPen, by decide⟩

theorem wit_FencesStart_2 : ∃ (p : PenId) (f : Nat) (x : PenFrame) (t0 : Nat) (s : State),
    (s.hw.pen p).frames.find? (fun y => y.frame == f) = some x ∧
    s.hw.penRun p = true ∧
    s.hw.present p = true ∧
    s.hw.is R.FSQ_STATE_SUSPENDED p = false ∧
    s.hw.startOf (f + 1) = some t0 ∧
    (x.tailDone || (x.tailOk && x.bodyDone)) = false :=
  ⟨0, 3, openFrame, 400000, overrun, by decide⟩

theorem wit_FencesStart_3 : ∃ (p : PenId) (f : Nat) (x : PenFrame) (t0 : Nat) (s : State),
    (s.hw.pen p).frames.find? (fun y => y.frame == f) = some x ∧
    s.hw.penRun p = true ∧
    s.hw.present p = true ∧
    s.hw.is R.FSQ_STATE_SUSPENDED p = true ∧
    s.hw.startOf (f + 4) = some t0 ∧
    (x.tailDone || (x.tailOk && x.bodyDone)) = false :=
  ⟨0, 0, { openFrame with frame := 0 }, 400000, reg R.FSQ_STATE_SUSPENDED 0 1 (dev (fun d => { d with pens := [(0, { frames := [{ openFrame with frame := 0 }] })] }) overrun), by decide⟩

theorem wit_FencesStart_4 : ∃ (d : Fin 40) (s : State),
    s.hw.diesUp = true ∧
    d.val < 24 :=
  ⟨0, mem1 upPen, by decide⟩

theorem wit_FencesStart_5 : ∃ (n : StallId) (e : EngKind) (p : Nat) (s : State),
    engNum e < 7 ∧
    (s.hw.eng (Eng.key (.stall n e))).reset = true ∧
    s.hw.penOf n = some p ∧
    s.hw.get R.ERR_PEN_STATE_STATE p = 0 :=
  ⟨1, .lnu, 0, dev (fun d => { d with engs := [(19, { reset := true, resetAt := 9 })] }) upPen, by decide⟩

theorem wit_FencesStart_6 : ∃ (m : HubId) (e : EngKind) (p : PenId) (s : State),
    7 ≤ engNum e ∧
    (s.hw.eng (Eng.key (.hub m e p))).reset = true ∧
    s.hw.present p = true ∧
    s.hw.get R.ERR_PEN_STATE_STATE p = 0 :=
  ⟨1, .cde, 0, dev (fun d => { d with engs := [(4096 + 23 * 16, { reset := true })] }) upPen, by decide⟩

theorem wit_FencesGoOn_1 : ∃ (p : PenId) (s : State),
    s.hw.get R.ERR_PEN_STATE_STATE p = 1 ∧
    s.hw.runningOf p = [] ∧
    (s.hw.pen p).u0Swaps = false :=
  ⟨0, reg R.ERR_PEN_STATE_STATE 0 1 (mem1 upPen), by decide⟩

theorem wit_FencesGoOn_2 : ∃ (p : PenId) (s : State),
    s.hw.get R.ERR_PEN_STATE_STATE p = 1 :=
  ⟨0, reg R.ERR_PEN_STATE_STATE 0 1 (dev (fun d => { d with engs := [(3, { run := some qcmd })] }) upPen), by decide⟩

theorem wit_FencesGoOn_3 : ∃ (p : PenId) (s : State),
    s.hw.get R.ERR_PEN_STATE_STATE p = 2 ∧
    (s.hw.pen p).runAt = none ∧
    s.hw.is R.ERR_PEN_CTRL_HOLD p = true ∧
    s.hw.yoked p = false :=
  ⟨0, reg R.ERR_PEN_CTRL_HOLD 0 1 (reg R.ERR_PEN_STATE_STATE 0 2 upPen), by decide⟩

theorem wit_FencesGoOn_4 : ∃ (p : PenId) (s : State),
    s.hw.get R.ERR_PEN_STATE_STATE p = 2 ∧
    (s.hw.pen p).runAt = none ∧
    s.hw.is R.ERR_PEN_CTRL_HOLD p = false ∧
    s.hw.yoked p = false :=
  ⟨0, reg R.ERR_PEN_STATE_STATE 0 2 upPen, by decide⟩

theorem wit_FencesGoOn_5 : ∃ (p : PenId) (s : State),
    s.hw.get R.ERR_PEN_STATE_STATE p = 2 ∧
    (s.hw.pen p).runAt = none ∧
    s.hw.yoked p = true :=
  ⟨0, reg R.ERR_PEN_STATE_STATE 0 2 (reg R.YOK_PEN_STATE_STATE 0 3 paired), by decide⟩

theorem wit_FencesGoOn_6 : ∃ (p : PenId) (s : State),
    s.hw.hostUp = true ∧
    s.hw.get R.ERR_PEN_STATE_STATE p = 3 :=
  ⟨0, reg R.ERR_PEN_STATE_STATE 0 3 upPen, by decide⟩

theorem wit_FencesGoOn_7 : ∃ (e : Eng) (q : QCmd) (s : State),
    (s.hw.eng (Eng.key e)).run = some q ∧
    ((s.hw.eng (Eng.key e)).wdogF == some s.hw.clk.frame) = false :=
  ⟨.stall 0 .lnu, qcmd, dev (fun d => { d with engs := [(3, { run := some qcmd })] }) upPen, by decide⟩

theorem wit_FencesGoOn_8 : ∃ (e : Eng) (q : QCmd) (s : State),
    (s.hw.eng (Eng.key e)).run = some q ∧
    ((s.hw.eng (Eng.key e)).wdogF == some s.hw.clk.frame) = false ∧
    s.hw.penRun q.pen = false ∧
    q.pen < 16 :=
  ⟨.stall 0 .lnu, qcmd, reg R.ERR_PEN_STATE_STATE 0 1 (dev (fun d => { d with engs := [(3, { run := some qcmd })] }) upPen), by decide⟩

theorem wit_FencesGoOn_9 : ∃ (e : Eng) (s : State),
    (s.hw.eng (Eng.key e)).reset = true ∧
    (match e with | .stall n _ => s.hw.is R.SPD_STATUS_ZEROING n | .hub _ _ _ => false) = false ∧
    (match e with | .stall _ k => decide (engNum k < 7) | .hub _ k _ => decide (7 ≤ engNum k)) = true :=
  ⟨.stall 0 .lnu, dev (fun d => { d with engs := [(3, { reset := true, main := [qcmd] })] }) upPen, by decide⟩

theorem wit_FencesGoOn_10 : ∃ (f : FnId) (s : State),
    s.hw.is R.ERR_FN_STATUS_DISABLING f = true ∧
    (s.hw.dev.engs.all fun kv => kv.2.run.isNone) = true :=
  ⟨0, reg R.ERR_FN_STATUS_DISABLING 0 1 (dev (fun d => { d with tens := [(7, { disabling := some 3 })] }) upPen), by decide⟩

theorem wit_FencesGoOn_11 : ∃ (f : FnId) (s : State),
    s.hw.is R.ERR_FN_STATUS_DISABLING f = true ∧
    (s.hw.dev.engs.all fun kv => kv.2.run.isNone) = true ∧
    s.hw.tellsVf f = true :=
  ⟨5, reg R.ERR_FN_STATUS_DISABLING 5 1 (dev (fun d => { d with msixEn := [5], msix := [(5 * 4096, { masked := false, addr := 16, data := 3 })], tens := [(7, { disabling := some 3, ghost := some ⟨7, false, 0, 0, 5, 1, 0, 0, 0, 0, 0, 1, []⟩ })] }) upPen), by decide⟩

theorem wit_LogAndDumps_1 : ∃ (s : State),
    s.hw.mgt.phase = .capture :=
  ⟨mgt (fun m => { m with phase := .capture }) up, by decide⟩

theorem wit_LogAndDumps_2 : ∃ (d : Dump) (s : State),
    s.hw.mgt.phase = .dump ∧
    s.hw.mgt.rst.cap = some d ∧
    s.hw.is R.SEC_FW_PENDING_PENDING = false :=
  ⟨dump1, mgt (fun m => { m with phase := .dump, rst := { m.rst with cap := some dump1 } }) up, by decide⟩

theorem wit_LogAndDumps_3 : ∃ (d : Dump) (s : State),
    s.hw.hostUp = true ∧
    s.hw.mgt.sdgUp = true ∧
    s.hw.mgt.copy = none ∧
    s.hw.dumpOf (s.hw.get R.ERR_DUMP_CTRL_SOURCE) = some d ∧
    s.hw.get R.ERR_DUMP_DST_ADDR % 4096 = 0 ∧
    s.hw.dmaOk 0 (s.hw.get R.ERR_DUMP_DST_ADDR) d.size true = true :=
  ⟨dump1, reg R.ERR_DUMP_CTRL_SOURCE 0 2 (mgt (fun m => { m with shorts := [(0, dump1)] }) (dev (fun d => { d with dmaWin := [(0, (7, 0xF000))] }) up)), by decide⟩

theorem wit_LogAndDumps_4 : ∃ (src : Nat) (dst : Nat) (d : Dump) (s : State),
    s.hw.mgt.copy = some (src, dst) ∧
    s.hw.dumpOf src = some d :=
  ⟨2, 4096, dump1, mgt (fun m => { m with shorts := [(0, dump1)], copy := some (2, 4096) }) up, by decide⟩

theorem wit_LogAndDumps_5 : ∃ (x : Rec) (rest : List Rec) (s : State),
    s.hw.mgt.sdgUp = true ∧
    s.hw.mgt.log.toFl = x :: rest :=
  ⟨rec1, [], mgt (fun m => { m with log := { m.log with toFl := [rec1] } }) up, by decide⟩

theorem wit_LogAndDumps_6 : ∃ (x : Rec) (rest : List Rec) (s : State),
    s.hw.mgt.sdgUp = true ∧
    s.hw.mgt.log.events = x :: rest :=
  ⟨rec1, [], mgt (fun m => { m with log := { m.log with events := [rec1] } }) up, by decide⟩

theorem wit_LogAndDumps_7 : ∃ (kd : Fin 8) (u : Fin 192) (fec : Nat) (x : CeCount) (s : State),
    s.hw.diesUp = true ∧
    s.hw.ceOf kd.val u.val fec = x ∧
    x.logged = false ∧
    s.hw.get R.ERR_CE_THRESH_PER_S < x.count :=
  ⟨0, 3, 7, { count := 2000 }, dev (fun d => { d with ce := [(3, { count := 2000 })] }) up, by decide⟩

theorem wit_LogAndDumps_8 : ∃ (kd : Fin 8) (u : Fin 192) (fec : Nat) (x : CeCount) (s : State),
    s.hw.diesUp = true ∧
    s.hw.ceOf kd.val u.val fec = x ∧
    ((x.logged = true ∨ x.count ≤ s.hw.get R.ERR_CE_THRESH_PER_S)) :=
  ⟨0, 3, 7, { count := 2000, logged := true }, dev (fun d => { d with ce := [(3, { count := 2000, logged := true })] }) up, by decide⟩

theorem wit_LogAndDumps_9 : ∃ (s : State),
    s.hw.mgt.sdgUp = true :=
  ⟨upPen, by decide⟩

theorem wit_BootSequence_1 : ∃ (s : State),
    s.hw.mgt.phase = .dark :=
  ⟨mgt (fun m => { m with phase := .dark }) State.reset, by decide⟩

theorem wit_BootSequence_2 : ∃ (s : State),
    s.hw.lit = true ∧
    s.hw.mgt.pwr.charged = none :=
  ⟨State.reset, by decide⟩

theorem wit_BootSequence_3 : ∃ (s : State),
    s.hw.mgt.phase = .reset ∧
    s.hw.mgt.rst.hot = true :=
  ⟨mgt (fun m => { m with rst := { cause := 4, clear := none, hot := true } }) State.reset, by decide⟩

theorem wit_BootSequence_4 : ∃ (a : Nat) (b : Nat) (c : Nat) (d : Nat) (s : State),
    s.hw.mgt.phase = .reset ∧
    s.hw.mgt.pwr.charged = some a ∧
    s.hw.mgt.pwr.in48 = some b ∧
    s.hw.mgt.pwr.in65 = some c ∧
    s.hw.mgt.rst.clear = some d :=
  ⟨5, 0, 0, 0, pwr (fun p => { p with charged := some 5 }) State.reset, by decide⟩

theorem wit_BootSequence_5 : ∃ (s : State),
    s.hw.lit = true ∧
    s.hw.mgt.sdgUp = false ∧
    s.hw.rom = false :=
  ⟨State.reset, by decide⟩

theorem wit_BootSequence_6 : ∃ (s : State),
    s.hw.mgt.phase = .boot ∧
    (s.hw.mgt.sdgUp || s.hw.rom) = true :=
  ⟨mgt (fun m => { m with phase := .boot, sdgUp := true }) State.reset, by decide⟩

theorem wit_BootSequence_7 : ∃ (port : Fin 2) (lanes : Fin 17) (rate : Fin 3) (s : State),
    s.hw.mgt.phase = .run ∧
    s.hw.dev.ports.contains port.val = true ∧
    ((port.val = 1 → s.hw.is R.HIF_PORT_BIFUR = true)) ∧
    ((lanes.val ∈ [2, 4, 8] ∨ (lanes.val = 16 ∧ s.hw.is R.HIF_PORT_BIFUR = false))) ∧
    rate.val ≠ 0 :=
  ⟨0, 16, 2, dev (fun d => { d with ports := [0] }) up, by decide⟩

theorem wit_BootSequence_8 : ∃ (port : Fin 2) (s : State),
    s.hw.lit = true ∧
    s.hw.dev.ports.contains port.val = false :=
  ⟨0, State.reset, by decide⟩

theorem wit_BootSequence_9 : ∃ (s : State),
    s.hw.lit = true :=
  ⟨mem1 upPen, by decide⟩

theorem wit_MailboxAnswers_1 : ∃ (s : State),
    s.hw.hostUp = true ∧
    s.hw.mgt.sdgUp = true ∧
    s.hw.mgt.update = none :=
  ⟨up, by decide⟩

theorem wit_MailboxAnswers_2 : ∃ (s : State),
    s.hw.hostUp = true ∧
    s.hw.mgt.sdgUp = true ∧
    s.hw.mgt.update = none :=
  ⟨up, by decide⟩

theorem wit_MailboxAnswers_3 : ∃ (s : State),
    s.hw.hostUp = true ∧
    s.hw.mgt.sdgUp = true ∧
    s.hw.mgt.update = none :=
  ⟨up, by decide⟩

theorem wit_MailboxAnswers_4 : ∃ (s : State),
    s.hw.hostUp = true ∧
    s.hw.mgt.sdgUp = true ∧
    s.hw.mgt.update = none :=
  ⟨up, by decide⟩

theorem wit_MailboxAnswers_5 : ∃ (s : State),
    s.hw.hostUp = true ∧
    s.hw.mgt.sdgUp = true ∧
    s.hw.mgt.update = none :=
  ⟨up, by decide⟩

theorem wit_MailboxAnswers_6 : ∃ (slot : Fin 256) (p : FwPackage) (s : State),
    s.hw.hostUp = true ∧
    s.hw.mgt.sdgUp = true ∧
    s.hw.mgt.update = none ∧
    ((slot.val = 1 ∨ slot.val = 2)) ∧
    slot.val - 1 ≠ s.hw.get R.SEC_BOOT_STATUS_BANK ∧
    fwWhole p = true :=
  ⟨2, package, up, by decide⟩

theorem wit_MailboxAnswers_7 : ∃ (slot : Fin 256) (s : State),
    s.hw.hostUp = true ∧
    s.hw.mgt.sdgUp = true ∧
    s.hw.mgt.update = none ∧
    ((slot.val = 0 ∨ 2 < slot.val ∨ slot.val - 1 = s.hw.get R.SEC_BOOT_STATUS_BANK)) :=
  ⟨1, up, by decide⟩

theorem wit_MailboxAnswers_8 : ∃ (u : Update) (s : State),
    s.hw.mgt.update = some u ∧
    u.busy = true ∧
    u.pldm = false :=
  ⟨⟨false, 1, ⟨[], [], []⟩, true, 0⟩, mgt (fun m => { m with update := some ⟨false, 1, ⟨[], [], []⟩, true, 0⟩ }) up, by decide⟩

theorem wit_MailboxAnswers_9 : ∃ (slot : Fin 256) (s : State),
    s.hw.hostUp = true ∧
    s.hw.mgt.sdgUp = true ∧
    s.hw.mgt.update = none ∧
    slot.val ≠ 0 ∧
    s.hw.mgt.passed.contains (slot.val - 1) = true :=
  ⟨2, mgt (fun m => { m with passed := [1] }) up, by decide⟩

theorem wit_MailboxAnswers_10 : ∃ (s : State),
    s.hw.hostUp = true ∧
    s.hw.mgt.sdgUp = true ∧
    s.hw.mgt.update = none :=
  ⟨up, by decide⟩

theorem wit_MailboxAnswers_11 : ∃ (u : Update) (s : State),
    s.hw.mgt.update = some u ∧
    u.busy = false :=
  ⟨⟨false, 1, ⟨[], [], []⟩, false, 4⟩, mgt (fun m => { m with update := some ⟨false, 1, ⟨[], [], []⟩, false, 4⟩ }) up, by decide⟩

theorem wit_FirmwareTrust_1 : ∃ (t0 : Nat) (s : State),
    s.hw.mgt.sdgUp = true ∧
    s.hw.mgt.spoilt = false ∧
    s.hw.get R.SEC_BOOT_STATUS_STATE = 0 ∧
    s.hw.mgt.trial = some t0 :=
  ⟨9, mgt (fun m => { m with trial := some 9 }) up, by decide⟩

theorem wit_FirmwareTrust_2 : ∃ (s : State),
    s.hw.hostUp = true ∧
    s.hw.mgt.sdgUp = true ∧
    s.hw.get R.SEC_BOOT_STATUS_STATE = 0 ∧
    s.hw.is R.SEC_FW_PENDING_TRY = false ∧
    s.hw.get R.SEC_ARC_ARC < s.hw.get R.SEC_ARC_COMMIT_TARGET :=
  ⟨reg R.SEC_ARC_COMMIT_TARGET 0 4 up, by decide⟩

theorem wit_FirmwareTrust_3 : ∃ (key : BitVec 16) (s : State),
    s.hw.hostUp = true ∧
    ((key ≠ 0x4B41#16 ∨ s.hw.mgt.sdgUp = false ∨ s.hw.get R.SEC_BOOT_STATUS_STATE ≠ 0 ∨ s.hw.is R.SEC_FW_PENDING_TRY = true)) :=
  ⟨0#16, up, by decide⟩

theorem wit_FirmwareTrust_4 : ∃ (g : Nat) (s : State),
    s.hw.mgt.arcTo = some g ∧
    s.hw.get R.SEC_ARC_ARC < g :=
  ⟨4, mgt (fun m => { m with arcTo := some 4 }) up, by decide⟩

theorem wit_FirmwareTrust_5 : ∃ (s : State),
    s.hw.hostUp = true ∧
    s.hw.mgt.sdgUp = true ∧
    s.hw.mgt.keyRec = none :=
  ⟨up, by decide⟩

theorem wit_FirmwareTrust_6 : ∃ (s : State),
    s.hw.hostUp = true ∧
    s.hw.mgt.keyRec.isSome = true :=
  ⟨mgt (fun m => { m with keyRec := some 64 }) up, by decide⟩

theorem wit_FirmwareTrust_7 : ∃ (a : Nat) (res : Completion) (s : State),
    s.hw.mgt.keyRec = some a ∧
    ((a % 8 ≠ 0 ∨ s.hw.dmaOk 0 a 210 false = false ∨ res ≠ .ok)) :=
  ⟨64, .ok, mgt (fun m => { m with keyRec := some 64 }) up, by decide⟩

theorem wit_FirmwareTrust_8 : ∃ (a : Nat) (b : Bytes) (s : State),
    s.hw.mgt.keyRec = some a ∧
    a % 8 = 0 ∧
    s.hw.dmaOk 0 a 210 false = true ∧
    b = (List.range 210).map (fun i => s.hostByte (a + i)) :=
  ⟨64, zeros 210, dev (fun d => { d with dmaWin := [(0, (3, 0))] }) (mgt (fun m => { m with keyRec := some 64 }) up), by decide +kernel⟩

theorem wit_FirmwareTrust_9 : ∃ (b : Bus) (s : State),
    s.hw.hearsBus b = true :=
  ⟨.i3c, up, by decide⟩

theorem wit_ManagementPair_1 : ∃ (b : Bus) (s : State),
    s.hw.hearsBus b = true :=
  ⟨.smbus, up, by decide⟩

theorem wit_ManagementPair_2 : ∃ (b : Bus) (s : State),
    s.hw.hearsBus b = true :=
  ⟨.smbus, up, by decide⟩

theorem wit_ManagementPair_3 : ∃ (b : Bus) (id : Nat) (s : State),
    s.hw.hearsBus b = true ∧
    id ≠ 1 :=
  ⟨.smbus, 2, up, by decide⟩

theorem wit_ManagementPair_4 : ∃ (b : Bus) (id : Nat) (v : Nat) (s : State),
    s.hw.hearsBus b = true ∧
    ((id ≤ 48 ∨ id = 57 ∨ id = 58 ∨ id = 59 ∨ id = 62)) ∧
    s.hw.sensor id = some v :=
  ⟨.smbus, 62, 1500, up, by decide⟩

theorem wit_ManagementPair_5 : ∃ (b : Bus) (id : Nat) (s : State),
    s.hw.hearsBus b = true ∧
    49 ≤ id ∧
    id ≤ 56 :=
  ⟨.smbus, 56, up, by decide⟩

theorem wit_ManagementPair_6 : ∃ (b : Bus) (s : State),
    s.hw.hearsBus b = true :=
  ⟨.i3c, up, by decide⟩

theorem wit_ManagementPair_7 : ∃ (b : Bus) (s : State),
    s.hw.hearsBus b = true :=
  ⟨.i3c, up, by decide⟩

theorem wit_ManagementPair_8 : ∃ (b : Bus) (s : State),
    s.hw.hearsBus b = true :=
  ⟨.i3c, up, by decide⟩

theorem wit_ManagementPair_9 : ∃ (b : Bus) (s : State),
    s.hw.hearsBus b = true :=
  ⟨.i3c, up, by decide⟩

theorem wit_ManagementPair_10 : ∃ (s : State),
    s.hw.hearsBus .i3c = true :=
  ⟨up, by decide⟩

theorem wit_ManagementPair_11 : ∃ (b : Bus) (p : FwPackage) (s : State),
    s.hw.hearsBus b = true ∧
    s.hw.mgt.update = none ∧
    fwWhole p = true :=
  ⟨.i3c, package, up, by decide⟩

theorem wit_ManagementPair_12 : ∃ (b : Bus) (u : Update) (s : State),
    s.hw.hearsBus b = true ∧
    s.hw.mgt.update = some u ∧
    u.pldm = true ∧
    u.busy = false ∧
    s.hw.mgt.passed.contains u.slot = true :=
  ⟨.i3c, ⟨true, 1, ⟨[], [], []⟩, false, 4⟩, mgt (fun m => { m with passed := [1], update := some ⟨true, 1, ⟨[], [], []⟩, false, 4⟩ }) up, by decide⟩

theorem wit_ManagementPair_13 : ∃ (out : Bool) (c : Fin 256) (s : State),
    s.hw.mgt.sdgUp = true ∧
    s.hw.mgt.events = true ∧
    coolantRange out (s.hw.get (if out then R.SDG_COOLANT_OUTLET_C else R.SDG_COOLANT_INLET_C)) ≠ coolantRange out c.val :=
  ⟨false, 46, mgt (fun m => { m with events := true }) (reg R.SDG_COOLANT_INLET_C 0 30 up), by decide⟩

theorem wit_SpdmResponder_1 : ∃ (p : SpdmPort) (s : State),
    s.hw.hearsSpdm p = true :=
  ⟨.mctp .i3c, up, by decide⟩

theorem wit_SpdmResponder_2 : ∃ (p : SpdmPort) (s : State),
    s.hw.hearsSpdm p = true ∧
    1 ≤ (s.hw.spdmSt p).stage :=
  ⟨.doe, reg R.HIF_PORT_BIFUR 0 1 (mgt (fun m => { m with spdm := [(1, ⟨3, 0⟩)] }) up), by decide⟩

theorem wit_SpdmResponder_3 : ∃ (p : SpdmPort) (s : State),
    s.hw.hearsSpdm p = true ∧
    2 ≤ (s.hw.spdmSt p).stage :=
  ⟨.doe, reg R.HIF_PORT_BIFUR 0 1 (mgt (fun m => { m with spdm := [(1, ⟨3, 0⟩)] }) up), by decide⟩

theorem wit_SpdmResponder_4 : ∃ (p : SpdmPort) (s : State),
    s.hw.hearsSpdm p = true ∧
    3 ≤ (s.hw.spdmSt p).stage :=
  ⟨.doe, reg R.HIF_PORT_BIFUR 0 1 (mgt (fun m => { m with spdm := [(1, ⟨3, 0⟩)] }) up), by decide⟩

theorem wit_SpdmResponder_5 : ∃ (p : SpdmPort) (s : State),
    s.hw.hearsSpdm p = true ∧
    3 ≤ (s.hw.spdmSt p).stage :=
  ⟨.doe, reg R.HIF_PORT_BIFUR 0 1 (mgt (fun m => { m with spdm := [(1, ⟨3, 0⟩)] }) up), by decide⟩

theorem wit_SpdmResponder_6 : ∃ (p : SpdmPort) (sl : Fin 8) (s : State),
    s.hw.hearsSpdm p = true ∧
    3 ≤ (s.hw.spdmSt p).stage ∧
    sl.val ≠ 0 :=
  ⟨.doe, 1, reg R.HIF_PORT_BIFUR 0 1 (mgt (fun m => { m with spdm := [(1, ⟨3, 0⟩)] }) up), by decide⟩

theorem wit_SpdmResponder_7 : ∃ (p : SpdmPort) (s : State),
    s.hw.hearsSpdm p = true ∧
    3 ≤ (s.hw.spdmSt p).stage ∧
    s.hw.is R.SEC_BOOT_STATUS_DEBUG = false :=
  ⟨.doe, reg R.HIF_PORT_BIFUR 0 1 (mgt (fun m => { m with spdm := [(1, ⟨3, 0⟩)] }) up), by decide⟩

theorem wit_SpdmResponder_8 : ∃ (p : SpdmPort) (s : State),
    s.hw.hearsSpdm p = true ∧
    3 ≤ (s.hw.spdmSt p).stage ∧
    s.hw.is R.SEC_BOOT_STATUS_DEBUG = true :=
  ⟨.doe, reg R.SEC_BOOT_STATUS_DEBUG 0 1 (reg R.HIF_PORT_BIFUR 0 1 (mgt (fun m => { m with spdm := [(1, ⟨3, 0⟩)] }) up)), by decide⟩

theorem wit_SpdmResponder_9 : ∃ (p : SpdmPort) (i : Fin 256) (s : State),
    s.hw.hearsSpdm p = true ∧
    3 ≤ (s.hw.spdmSt p).stage ∧
    1 ≤ i.val ∧
    i.val ≤ 9 :=
  ⟨.doe, 8, reg R.HIF_PORT_BIFUR 0 1 (mgt (fun m => { m with spdm := [(1, ⟨3, 0⟩)] }) up), by decide⟩

theorem wit_SpdmResponder_10 : ∃ (s : State),
    s.hw.hearsSpdm .doe = true ∧
    3 ≤ (s.hw.spdmSt .doe).stage ∧
    s.hw.is R.SEC_BOOT_STATUS_DEBUG = false :=
  ⟨reg R.HIF_PORT_BIFUR 0 1 (mgt (fun m => { m with spdm := [(1, ⟨3, 0⟩)] }) up), by decide⟩

theorem wit_SpdmResponder_11 : ∃ (s : State),
    s.hw.hearsSpdm .doe = true ∧
    3 ≤ (s.hw.spdmSt .doe).stage ∧
    (s.hw.spdmSt .doe).session = 1 :=
  ⟨reg R.HIF_PORT_BIFUR 0 1 (mgt (fun m => { m with spdm := [(1, ⟨3, 1⟩)] }) up), by decide⟩

theorem wit_SpdmResponder_12 : ∃ (s : State),
    s.hw.hearsSpdm .doe = true ∧
    3 ≤ (s.hw.spdmSt .doe).stage ∧
    (s.hw.spdmSt .doe).session = 2 :=
  ⟨reg R.HIF_PORT_BIFUR 0 1 (mgt (fun m => { m with spdm := [(1, ⟨3, 2⟩)] }) up), by decide⟩

theorem wit_SpdmResponder_13 : ∃ (port : Fin 2) (s : State),
    s.hw.hearsSpdm .doe = true ∧
    (s.hw.spdmSt .doe).session = 2 ∧
    ((port.val = 1 → s.hw.is R.HIF_PORT_BIFUR = true)) :=
  ⟨1, reg R.HIF_PORT_BIFUR 0 1 (mgt (fun m => { m with spdm := [(1, ⟨3, 2⟩)] }) up), by decide⟩

theorem wit_SpdmResponder_14 : ∃ (port : Fin 2) (stream : Fin 2) (x : IdeKey) (s : State),
    s.hw.hearsSpdm .doe = true ∧
    (s.hw.spdmSt .doe).session = 2 ∧
    ((port.val = 1 → s.hw.is R.HIF_PORT_BIFUR = true)) ∧
    Tbl.find? (2 * port.val + stream.val) s.hw.dev.ide = some x :=
  ⟨1, 0, ⟨[], false⟩, dev (fun d => { d with ide := [(2, ⟨[], false⟩)] }) (reg R.HIF_PORT_BIFUR 0 1 (mgt (fun m => { m with spdm := [(1, ⟨3, 2⟩)] }) up)), by decide⟩

theorem wit_FunctionsAndPorts_1 : ∃ (f : FnId) (s : State),
    s.hw.portUp (s.hw.portOfFn f) = true ∧
    s.hw.vfOn f = true :=
  ⟨3, dev (fun d => { d with vfs := [(0, 5), (1, 3)], msixEn := [3, 33], msix := [(3 * 4096 + 3, { addr := 64, data := 9, masked := false })], dmaWin := [(24, (7, 0xF000)), (33 * 8, (7, 0xF000))] }) (mem1 upPen), by decide⟩

theorem wit_FunctionsAndPorts_2 : ∃ (s : State),
    s.hw.portUp 1 = true ∧
    s.hw.is R.HIF_PORT_BIFUR 0 = true :=
  ⟨dev (fun d => { d with vfs := [(0, 5), (1, 3)], msixEn := [3, 33], msix := [(3 * 4096 + 3, { addr := 64, data := 9, masked := false })], dmaWin := [(24, (7, 0xF000)), (33 * 8, (7, 0xF000))] }) (reg R.HIF_PORT_P1_UP 0 1 (reg R.HIF_PORT_BIFUR 0 1 (mem1 upPen))), by decide⟩

theorem wit_FunctionsAndPorts_3 : ∃ (s : State),
    s.hw.portUp 1 = true ∧
    s.hw.is R.HIF_PORT_BIFUR 0 = true :=
  ⟨dev (fun d => { d with vfs := [(0, 5), (1, 3)], msixEn := [3, 33], msix := [(3 * 4096 + 3, { addr := 64, data := 9, masked := false })], dmaWin := [(24, (7, 0xF000)), (33 * 8, (7, 0xF000))] }) (reg R.HIF_PORT_P1_UP 0 1 (reg R.HIF_PORT_BIFUR 0 1 (mem1 upPen))), by decide⟩

theorem wit_FunctionsAndPorts_4 : ∃ (s : State),
    s.hw.dev.ports.contains 1 = true ∧
    s.hw.is R.HIF_PORT_BIFUR 0 = true :=
  ⟨dev (fun d => { d with ports := [0, 1] }) (dev (fun d => { d with vfs := [(0, 5), (1, 3)], msixEn := [3, 33], msix := [(3 * 4096 + 3, { addr := 64, data := 9, masked := false })], dmaWin := [(24, (7, 0xF000)), (33 * 8, (7, 0xF000))] }) (reg R.HIF_PORT_P1_UP 0 1 (reg R.HIF_PORT_BIFUR 0 1 (mem1 upPen)))), by decide⟩

theorem wit_FunctionsAndPorts_5 : ∃ (port : Fin 2) (s : State),
    s.hw.portUp port = true :=
  ⟨0, dev (fun d => { d with vfs := [(0, 5), (1, 3)], msixEn := [3, 33], msix := [(3 * 4096 + 3, { addr := 64, data := 9, masked := false })], dmaWin := [(24, (7, 0xF000)), (33 * 8, (7, 0xF000))] }) (mem1 upPen), by decide⟩

theorem wit_FunctionsAndPorts_6 : ∃ (port : Fin 2) (s : State),
    s.hw.portUp port = true :=
  ⟨1, dev (fun d => { d with vfs := [(0, 5), (1, 3)], msixEn := [3, 33], msix := [(3 * 4096 + 3, { addr := 64, data := 9, masked := false })], dmaWin := [(24, (7, 0xF000)), (33 * 8, (7, 0xF000))] }) (reg R.HIF_PORT_P1_UP 0 1 (reg R.HIF_PORT_BIFUR 0 1 (mem1 upPen))), by decide⟩

theorem wit_FunctionsAndPorts_7 : ∃ (s : State),
    s.hw.hostUp = true :=
  ⟨dev (fun d => { d with vfs := [(0, 5), (1, 3)], msixEn := [3, 33], msix := [(3 * 4096 + 3, { addr := 64, data := 9, masked := false })], dmaWin := [(24, (7, 0xF000)), (33 * 8, (7, 0xF000))] }) (mem1 upPen), by decide⟩

theorem wit_FunctionsAndPorts_8 : ∃ (port : Fin 2) (s : State),
    s.hw.portUp port = true :=
  ⟨0, dev (fun d => { d with vfs := [(0, 5), (1, 3)], msixEn := [3, 33], msix := [(3 * 4096 + 3, { addr := 64, data := 9, masked := false })], dmaWin := [(24, (7, 0xF000)), (33 * 8, (7, 0xF000))] }) (reg R.HIF_PORT_P1_UP 0 1 (reg R.HIF_PORT_BIFUR 0 1 (mem1 upPen))), by decide⟩

theorem wit_HostAccesses_1 : ∃ (a : Nat) (s : State),
    s.hw.hostUp = true ∧
    s.hw.responds a = true ∧
    a % 4 = 0 ∧
    highWord a = false ∧
    highWord (a + 4) = false :=
  ⟨0x18, reg R.HIF_CPL_ERR_ERR 0 7 up, by decide +kernel⟩

theorem wit_HostAccesses_2 : ∃ (a : Nat) (s : State),
    s.hw.hostUp = true ∧
    s.hw.responds a = true ∧
    s.hw.responds (a + 4) = true ∧
    a % 4 = 0 ∧
    highWord a = false ∧
    highWord (a + 4) = true :=
  ⟨0x20, reg R.HIF_DMA_LAST_ADDR_ADDR 0 0x123456789A up, by decide +kernel⟩

theorem wit_HostAccesses_3 : ∃ (s : State),
    s.hw.hostUp = true :=
  ⟨dev (fun d => { d with vfs := [(0, 5), (1, 3)], msixEn := [3, 33], msix := [(3 * 4096 + 3, { addr := 64, data := 9, masked := false })], dmaWin := [(24, (7, 0xF000)), (33 * 8, (7, 0xF000))] }) (mem1 upPen), by decide⟩

theorem wit_HostAccesses_4 : ∃ (f : FnId) (v : Fin 2048) (s : State),
    s.hw.portUp (s.hw.portOfFn f) = true ∧
    ((f.val == 0) || s.hw.vfOn f) = true ∧
    v.val < vectors f ∧
    (s.hw.msixEntry f v).pending = true ∧
    s.hw.dev.msixEn.contains f.val = true ∧
    s.hw.dev.fnOff.contains f.val = false :=
  ⟨3, 3, dev (fun d => { d with msix := [(3 * 4096 + 3, { addr := 64, data := 9, masked := true, pending := true })] }) (dev (fun d => { d with vfs := [(0, 5), (1, 3)], msixEn := [3, 33], msix := [(3 * 4096 + 3, { addr := 64, data := 9, masked := false })], dmaWin := [(24, (7, 0xF000)), (33 * 8, (7, 0xF000))] }) (mem1 upPen)), by decide⟩

theorem wit_HostAccesses_5 : ∃ (s : State),
    s.hw.hostUp = true ∧
    s.hw.get R.SEC_BOOT_STATUS_STATE 0 = 0 :=
  ⟨mem1 upPen, by decide⟩

theorem wit_HostAccesses_6 : ∃ (s : State),
    s.hw.hostUp = true ∧
    s.hw.get R.SEC_BOOT_STATUS_STATE 0 = 0 ∧
    s.hw.get R.TRS_STATUS_DONE 0 ≤ 1 :=
  ⟨reg R.TRS_STATUS_DONE 0 1 (mem1 upPen), by decide⟩

theorem wit_HostAccesses_7 : ∃ (s : State),
    s.hw.hostUp = true ∧
    s.hw.get R.SEC_BOOT_STATUS_STATE 0 = 0 :=
  ⟨mem1 upPen, by decide⟩

theorem wit_HostAccesses_8 : ∃ (port : Fin 2) (off : Nat) (b : Bytes) (s : State),
    s.hw.portUp port = true ∧
    off + b.length ≤ troughSize ∧
    off % 64 + b.length ≤ 64 ∧
    s.hw.hdmReach port (troughBase + off) b.length = true :=
  ⟨0, 70, [1#8, 2#8, 3#8], mem1 upPen, by decide⟩

theorem wit_HostAccesses_9 : ∃ (port : Fin 2) (off : Nat) (len : Nat) (s : State),
    s.hw.portUp port = true ∧
    off + len ≤ troughSize ∧
    off % 64 + len ≤ 64 ∧
    s.hw.hdmReach port (troughBase + off) len = true ∧
    s.hw.dev.soft = [] :=
  ⟨0, 70, 3, { mem1 upPen with mem := { dev := [(troughBase + 71, 5#8)], host := [], mark := [((troughBase + 70) / 64, 1)] } }, by decide⟩

theorem wit_HostAccesses_10 : ∃ (port : Fin 2) (s : State),
    s.hw.portUp port = true :=
  ⟨0, mem1 upPen, by decide⟩

theorem wit_ScarfAndCompressionEngines_1 : ∃ (m : HubId) (p : PenId) (i : Issue) (cmd : Bytes) (s : State) (h : Hx) (n : Nat),
    s.hw.hx m p 8 i = some h ∧
    (ScarfPack.of cmd).bad s.hw p cmd = false ∧
    unpopFirst s.hw.loftTib (ScarfPack.of cmd).src 32 = none ∧
    s.hw.penSpd p (ScarfPack.of cmd).dst = some n ∧
    s.hw.is R.SPD_STATUS_ZEROING n = false ∧
    unpopFirst s.hw.loftTib (ScarfPack.of cmd).dst ((ScarfPack.of cmd).tiles * pieceSize) = none :=
  ⟨0, 0, { frame := 0, task := 9, pos := none, u0 := false }, [81#8, 0#8, 1#8, 5#8, 4#8, 0#8, 3#8] ++ zeros 9 ++ [8#8, 0#8, 0#8, 0#8, 144#8, 1#8, 0#8, 0#8, 0#8, 0#8, 0#8, 2#8, 0#8, 0#8, 0#8, 0#8, 0#8, 4#8, 0#8, 0#8, 0#8, 4#8] ++ zeros 26, dev (fun d => { d with stls := [(0, { slots := [(3, { gen := 1, full := true, pnext := false, reads := 1 })] })] }) (mem1 upPen), ⟨0, 0, 8, 0, 0, 9, none⟩, 0, by decide +kernel⟩

theorem wit_ScarfAndCompressionEngines_2 : ∃ (m : HubId) (p : PenId) (i : Issue) (cmd : Bytes) (s : State) (h : Hx) (n : Nat),
    s.hw.hx m p 8 i = some h ∧
    (ScarfPack.of cmd).bad s.hw p cmd = false ∧
    unpopFirst s.hw.loftTib (ScarfPack.of cmd).src 32 = none ∧
    s.hw.penSpd p (ScarfPack.of cmd).dst = some n ∧
    s.hw.is R.SPD_STATUS_ZEROING n = false ∧
    unpopFirst s.hw.loftTib (ScarfPack.of cmd).dst ((ScarfPack.of cmd).tiles * pieceSize) = none ∧
    Run.crbHdr { hw := s.hw, mem := s.mem } (ScarfPack.of cmd).src = none ∧
    (s.hw.stl n).waits = [] :=
  ⟨0, 0, { frame := 0, task := 9, pos := none, u0 := false }, [81#8, 0#8, 1#8, 5#8, 4#8, 0#8, 3#8] ++ zeros 9 ++ [8#8, 0#8, 0#8, 0#8, 144#8, 1#8, 0#8, 0#8, 0#8, 0#8, 0#8, 2#8, 0#8, 0#8, 0#8, 0#8, 0#8, 4#8, 0#8, 0#8, 0#8, 4#8] ++ zeros 26, dev (fun d => { d with stls := [(0, { slots := [(3, { gen := 1, full := true, pnext := false, reads := 1 })] })] }) (mem1 upPen), ⟨0, 0, 8, 0, 0, 9, none⟩, 0, by decide +kernel⟩

theorem wit_ScarfAndCompressionEngines_3 : ∃ (m : HubId) (p : PenId) (i : Issue) (cmd : Bytes) (s : State) (h : Hx) (xs : List (Nat × Nat)),
    s.hw.hx m p 7 i = some h ∧
    Run.cdeCheck { hw := s.hw, mem := s.mem } p (CdeCmd.of cmd) cmd = (false, xs) ∧
    xs.all (fun x => (unpopFirst s.hw.loftTib x.1 x.2).isNone) = true ∧
    (CdeCmd.of cmd).op ≠ 1 :=
  ⟨0, 0, { frame := 0, task := 9, pos := none, u0 := false }, [82#8, 3#8, 0#8, 0#8, 255#8, 255#8, 3#8, 0#8, 0#8, 0#8, 0#8, 2#8, 0#8, 0#8, 0#8, 0#8, 0#8, 4#8, 0#8, 0#8, 0#8, 4#8, 0#8, 0#8, 0#8, 0#8, 0#8, 0#8, 1#8, 0#8, 0#8, 0#8, 0#8, 0#8, 0#8, 0#8, 208#8, 7#8] ++ zeros 26, dev (fun d => { d with stls := [(0, { slots := [(3, { gen := 1, full := true, pnext := false, reads := 1 })] })] }) (mem1 upPen), ⟨0, 0, 7, 0, 0, 9, none⟩, [(0x2000000, 18), (0x40000000400, 64)], by decide +kernel⟩

theorem wit_ScarfAndCompressionEngines_4 : ∃ (m : HubId) (p : PenId) (i : Issue) (cmd : Bytes) (s : State) (h : Hx) (xs : List (Nat × Nat)) (hd : CwHdr) (o : Nat),
    s.hw.hx m p 7 i = some h ∧
    Run.cdeCheck { hw := s.hw, mem := s.mem } p (CdeCmd.of cmd) cmd = (false, xs) ∧
    xs.all (fun x => (unpopFirst s.hw.loftTib x.1 x.2).isNone) = true ∧
    (CdeCmd.of cmd).op = 1 ∧
    hd = CwHdr.of (Run.read ({ hw := s.hw, mem := s.mem } : Run) (CdeCmd.of cmd).dst 256) ∧
    o = s.leAt ((CdeCmd.of cmd).dst + hd.idx + 4 * (CdeCmd.of cmd).first) 4 % 2 ^ 31 :=
  ⟨0, 0, { frame := 0, task := 9, pos := none, u0 := false }, [82#8, 1#8, 0#8, 0#8, 255#8, 255#8, 255#8, 255#8, 0#8, 4#8, 0#8, 0#8, 0#8, 4#8, 0#8, 0#8, 0#8, 0#8, 0#8, 2#8] ++ zeros 8 ++ [1#8, 0#8, 0#8, 0#8, 0#8, 0#8, 0#8, 0#8, 208#8, 7#8] ++ zeros 26, mem1 upPen, ⟨0, 0, 7, 0, 0, 9, none⟩, [(0x40000000400, 1), (0x2000000, 256)], CwHdr.of (zeros 256), 0, by decide +kernel⟩

theorem wit_KvHubCommands_1 : ∃ (m : HubId) (p : PenId) (i : Issue) (cmd : Bytes) (s : State) (h : Hx) (n : Nat),
    s.hw.hx m p 9 i = some h ∧
    prefixBad s.hw p (match (s.hw.pen p).kv.cfg with | some c => c.gKv | none => 0) cmd = false ∧
    s.hw.penSpd p (fld cmd 0x10 8) = some n ∧
    s.hw.is R.SPD_STATUS_ZEROING n = false ∧
    s.hw.noReclaim p = true ∧
    fld cmd 1 1 = 0 ∧
    unpopFirst s.hw.loftTib (fld cmd 0x10 8) 8 = none ∧
    ((s.hw.pen p).bound.find? fun b => b.frame == h.frame && b.pos == fld cmd 2 1) = none :=
  ⟨0, 0, { frame := 0, task := 9, pos := none, u0 := false }, [83#8, 0#8, 4#8, 0#8, 1#8, 0#8, 0#8, 0#8, 2#8, 0#8, 0#8, 0#8, 208#8, 7#8, 0#8, 0#8, 8#8, 4#8, 0#8, 0#8, 0#8, 4#8] ++ zeros 42, (fun s : State => { s with hw := s.hw.modPen 0 fun ps => { ps with kv := { cfg := some { pool := 16, poolCnt := 8, loft := 0, loftCnt := 4, pfx := 0, pfxCnt := 0, gKv := 1, maxSpans := 4, lowG := 1, highG := 2 } } } }) (mem1 upPen), ⟨0, 0, 9, 0, 0, 9, none⟩, 0, by decide +kernel⟩

theorem wit_KvHubCommands_2 : ∃ (m : HubId) (p : PenId) (i : Issue) (cmd : Bytes) (s : State) (h : Hx) (n : Nat) (c : KvCfg) (b : Bound),
    s.hw.hx m p 9 i = some h ∧
    prefixBad s.hw p (match (s.hw.pen p).kv.cfg with | some c => c.gKv | none => 0) cmd = false ∧
    s.hw.penSpd p (fld cmd 0x10 8) = some n ∧
    s.hw.is R.SPD_STATUS_ZEROING n = false ∧
    s.hw.noReclaim p = true ∧
    fld cmd 1 1 = 0 ∧
    unpopFirst s.hw.loftTib (fld cmd 0x10 8) 8 = none ∧
    (s.hw.pen p).kv.cfg = some c ∧
    ((s.hw.pen p).bound.find? fun b => b.frame == h.frame && b.pos == fld cmd 2 1) = some b ∧
    ((s.hw.pen p).ctx b.ctx).prefixOn = false :=
  ⟨0, 0, { frame := 0, task := 9, pos := none, u0 := false }, [83#8, 0#8, 4#8, 0#8, 1#8, 0#8, 0#8, 0#8, 2#8, 0#8, 0#8, 0#8, 208#8, 7#8, 0#8, 0#8, 8#8, 4#8, 0#8, 0#8, 0#8, 4#8] ++ zeros 42, (fun s : State => { s with hw := s.hw.modPen 0 fun ps => { ps with kv := { cfg := some { pool := 16, poolCnt := 8, loft := 0, loftCnt := 4, pfx := 0, pfxCnt := 0, gKv := 1, maxSpans := 4, lowG := 1, highG := 2 } }, bound := [{ tenant := 7, seq := 1, idx := 0, pos := 4, frame := 0, cls := 2, slot := 0, ctx := 2, x := 200, pos0 := 0, entry := [], prefixT := 0 }] } }) (mem1 upPen), ⟨0, 0, 9, 0, 0, 9, none⟩, 0, { pool := 16, poolCnt := 8, loft := 0, loftCnt := 4, pfx := 0, pfxCnt := 0, gKv := 1, maxSpans := 4, lowG := 1, highG := 2 }, { tenant := 7, seq := 1, idx := 0, pos := 4, frame := 0, cls := 2, slot := 0, ctx := 2, x := 200, pos0 := 0, entry := [], prefixT := 0 }, by decide +kernel⟩

theorem wit_KvHubCommands_3 : ∃ (m : HubId) (p : PenId) (i : Issue) (cmd : Bytes) (s : State) (h : Hx) (n : Nat) (c : KvCfg) (b : Bound) (u : Tenant) (prev : Bytes),
    s.hw.hx m p 9 i = some h ∧
    prefixBad s.hw p (match (s.hw.pen p).kv.cfg with | some c => c.gKv | none => 0) cmd = false ∧
    s.hw.penSpd p (fld cmd 0x10 8) = some n ∧
    s.hw.is R.SPD_STATUS_ZEROING n = false ∧
    s.hw.noReclaim p = true ∧
    fld cmd 1 1 = 0 ∧
    unpopFirst s.hw.loftTib (fld cmd 0x10 8) 8 = none ∧
    (s.hw.pen p).kv.cfg = some c ∧
    ((s.hw.pen p).bound.find? fun b => b.frame == h.frame && b.pos == fld cmd 2 1) = some b ∧
    ((s.hw.pen p).ctx b.ctx).prefixOn = true ∧
    s.hw.tenant b.tenant = some u ∧
    b.miss = false ∧
    fld cmd 4 4 ≤ (b.x - 1) / 64 ∧
    ((s.hw.pen p).ctx b.ctx).chainAt p (fld cmd 4 4) = some prev ∧
    Run.pfxFind ({ hw := s.hw, mem := s.mem } : Run) p c u.keyId (prefixHash (Tbl.get [] u.keyId s.hw.dev.keys) prev (Run.read ({ hw := s.hw, mem := s.mem } : Run) (c.tokLog b.ctx (fld cmd 4 4 - 1)) 256)) = none :=
  ⟨0, 0, { frame := 0, task := 9, pos := none, u0 := false }, [83#8, 0#8, 4#8, 0#8, 1#8, 0#8, 0#8, 0#8, 2#8, 0#8, 0#8, 0#8, 208#8, 7#8, 0#8, 0#8, 8#8, 4#8, 0#8, 0#8, 0#8, 4#8] ++ zeros 42, (fun s : State => { s with hw := s.hw.modPen 0 fun ps => { ps with kv := { cfg := some { pool := 16, poolCnt := 8, loft := 0, loftCnt := 4, pfx := 0, pfxCnt := 0, gKv := 1, maxSpans := 4, lowG := 1, highG := 2 } }, bound := [{ tenant := 7, seq := 1, idx := 0, pos := 4, frame := 0, cls := 2, slot := 0, ctx := 2, x := 200, pos0 := 0, entry := [], prefixT := 0 }], ctxs := [(2, { serving := .active, prefixOn := true })] } }) (dev (fun d => { d with truss := some { image with tenants := [tenant7] } }) (mem1 upPen)), ⟨0, 0, 9, 0, 0, 9, none⟩, 0, { pool := 16, poolCnt := 8, loft := 0, loftCnt := 4, pfx := 0, pfxCnt := 0, gKv := 1, maxSpans := 4, lowG := 1, highG := 2 }, { tenant := 7, seq := 1, idx := 0, pos := 4, frame := 0, cls := 2, slot := 0, ctx := 2, x := 200, pos0 := 0, entry := [], prefixT := 0 }, tenant7, hashZero 0 0, by decide +kernel⟩

theorem wit_KvHubCommands_4 : ∃ (m : HubId) (p : PenId) (i : Issue) (cmd : Bytes) (s : State) (h : Hx) (c : KvCfg) (b : Bound) (u : Tenant),
    s.hw.hx m p 9 i = some h ∧
    prefixBad s.hw p (match (s.hw.pen p).kv.cfg with | some c => c.gKv | none => 0) cmd = false ∧
    s.hw.noReclaim p = true ∧
    fld cmd 1 1 = 1 ∧
    (s.hw.pen p).kv.cfg = some c ∧
    ((s.hw.pen p).bound.find? fun b => b.frame == h.frame && b.pos == fld cmd 2 1) = some b ∧
    ((s.hw.pen p).ctx b.ctx).prefixOn = true ∧
    s.hw.tenant b.tenant = some u ∧
    ((s.hw.pen p).ctx b.ctx).chainAt p (fld cmd 4 4) = none :=
  ⟨0, 0, { frame := 0, task := 9, pos := none, u0 := false }, [83#8, 1#8, 4#8, 0#8, 1#8, 0#8, 0#8, 0#8, 2#8, 0#8, 0#8, 0#8, 208#8, 7#8, 0#8, 0#8, 8#8, 4#8, 0#8, 0#8, 0#8, 4#8] ++ zeros 42, (fun s : State => { s with hw := s.hw.modPen 0 fun ps => { ps with kv := { cfg := some { pool := 16, poolCnt := 8, loft := 0, loftCnt := 4, pfx := 0, pfxCnt := 0, gKv := 1, maxSpans := 4, lowG := 1, highG := 2 } }, bound := [{ tenant := 7, seq := 1, idx := 0, pos := 4, frame := 0, cls := 2, slot := 0, ctx := 2, x := 200, pos0 := 0, entry := [], prefixT := 0 }], ctxs := [(2, { serving := .active, prefixOn := true, hashBlk := 3 })] } }) (dev (fun d => { d with truss := some { image with tenants := [tenant7] } }) (mem1 upPen)), ⟨0, 0, 9, 0, 0, 9, none⟩, { pool := 16, poolCnt := 8, loft := 0, loftCnt := 4, pfx := 0, pfxCnt := 0, gKv := 1, maxSpans := 4, lowG := 1, highG := 2 }, { tenant := 7, seq := 1, idx := 0, pos := 4, frame := 0, cls := 2, slot := 0, ctx := 2, x := 200, pos0 := 0, entry := [], prefixT := 0 }, tenant7, by decide +kernel⟩

theorem wit_KvHubCommands_5 : ∃ (m : HubId) (p : PenId) (i : Issue) (cmd : Bytes) (s : State) (h : Hx) (k : Ticket),
    s.hw.hx m p 9 i = some h ∧
    rqBad s.hw p (match (s.hw.pen p).kv.cfg with | some c => c.gKv | none => 0) cmd = false ∧
    fld cmd 1 1 = 1 ∧
    ((s.hw.pen p).kv.tickets.find? fun t => t.num == fld cmd 4 4) = some k :=
  ⟨0, 0, { frame := 0, task := 9, pos := none, u0 := false }, [84#8, 1#8, 0#8, 0#8, 5#8, 0#8, 0#8, 0#8, 64#8, 4#8, 0#8, 0#8, 0#8, 4#8, 0#8, 0#8, 208#8, 7#8] ++ zeros 46, (fun s : State => { s with hw := s.hw.modPen 0 fun ps => { ps with kv := { cfg := some { pool := 16, poolCnt := 8, loft := 0, loftCnt := 4, pfx := 0, pfxCnt := 0, gKv := 1, maxSpans := 4, lowG := 1, highG := 2 }, tickets := [⟨5, 2, 0, 1, 0⟩] } } }) (mem1 upPen), ⟨0, 0, 9, 0, 0, 9, none⟩, ⟨5, 2, 0, 1, 0⟩, by decide +kernel⟩

theorem wit_KvHubCommands_6 : ∃ (m : HubId) (p : PenId) (i : Issue) (cmd : Bytes) (s : State) (h : Hx) (c : KvCfg) (n : Nat),
    s.hw.hx m p 9 i = some h ∧
    rqBad s.hw p (match (s.hw.pen p).kv.cfg with | some c => c.gKv | none => 0) cmd = false ∧
    fld cmd 1 1 = 0 ∧
    (s.hw.pen p).kv.cfg = some c ∧
    unpopFirst s.hw.loftTib (fld cmd 8 8) 64 = none ∧
    s.hw.penSpd p (fld cmd 8 8) = some n ∧
    s.hw.is R.SPD_STATUS_ZEROING n = false ∧
    (s.hw.pen p).kv.recomp = [] :=
  ⟨0, 0, { frame := 0, task := 9, pos := none, u0 := false }, [84#8, 0#8, 0#8, 0#8, 0#8, 0#8, 0#8, 0#8, 64#8, 4#8, 0#8, 0#8, 0#8, 4#8, 0#8, 0#8, 208#8, 7#8] ++ zeros 46, (fun s : State => { s with hw := s.hw.modPen 0 fun ps => { ps with kv := { cfg := some { pool := 16, poolCnt := 8, loft := 0, loftCnt := 4, pfx := 0, pfxCnt := 0, gKv := 1, maxSpans := 4, lowG := 1, highG := 2 } } } }) (mem1 upPen), ⟨0, 0, 9, 0, 0, 9, none⟩, { pool := 16, poolCnt := 8, loft := 0, loftCnt := 4, pfx := 0, pfxCnt := 0, gKv := 1, maxSpans := 4, lowG := 1, highG := 2 }, 0, by decide +kernel⟩

theorem wit_KvHubCommands_7 : ∃ (m : HubId) (p : PenId) (i : Issue) (cmd : Bytes) (s : State) (h : Hx) (c : KvCfg) (n : Nat) (x : Nat) (sp : Nat) (more : List (Nat × Nat)),
    s.hw.hx m p 9 i = some h ∧
    rqBad s.hw p (match (s.hw.pen p).kv.cfg with | some c => c.gKv | none => 0) cmd = false ∧
    fld cmd 1 1 = 0 ∧
    (s.hw.pen p).kv.cfg = some c ∧
    unpopFirst s.hw.loftTib (fld cmd 8 8) 64 = none ∧
    s.hw.penSpd p (fld cmd 8 8) = some n ∧
    s.hw.is R.SPD_STATUS_ZEROING n = false ∧
    (s.hw.pen p).kv.recomp = (x, sp) :: more ∧
    0 < c.gKv ∧
    c.gKv ≤ s.hw.freePages p :=
  ⟨0, 0, { frame := 0, task := 9, pos := none, u0 := false }, [84#8, 0#8, 0#8, 0#8, 0#8, 0#8, 0#8, 0#8, 64#8, 4#8, 0#8, 0#8, 0#8, 4#8, 0#8, 0#8, 208#8, 7#8] ++ zeros 46, (fun s : State => { s with hw := s.hw.modPen 0 fun ps => { ps with kv := { cfg := some { pool := 16, poolCnt := 8, loft := 0, loftCnt := 4, pfx := 0, pfxCnt := 0, gKv := 1, maxSpans := 4, lowG := 1, highG := 2 }, recomp := [(2, 1), (2, 2)] }, ctxs := [(2, { serving := .active })] } }) (mem1 upPen), ⟨0, 0, 9, 0, 0, 9, none⟩, { pool := 16, poolCnt := 8, loft := 0, loftCnt := 4, pfx := 0, pfxCnt := 0, gKv := 1, maxSpans := 4, lowG := 1, highG := 2 }, 0, 2, 1, [(2, 2)], by decide +kernel⟩

theorem wit_KvSpill_1 : ∃ (p : PenId) (s : State) (c : KvCfg) (mv : SpanMove),
    (s.hw.pen p).kv.cfg = some c ∧
    c.gKv = 1 ∧
    ((s.hw.pen p).kv.moves.find? fun m => m.out) = some mv ∧
    (s.hw.pen p).busy mv.ctx = false ∧
    ((s.hw.pen p).kv.pins.any fun q => q.1 == mv.ctx) = false ∧
    0 < s.hw.freeLoft p ∧
    c.loftPages ≤ 2 ^ 30 ∧
    s.hw.noReclaim p = true ∧
    ((s.hw.pen p).ctx mv.ctx).serving ≠ .free ∧
    mv.span < c.maxSpans ∧
    pteState (s.leAt (c.pte mv.ctx mv.span 0) 4) = 0 ∧
    Tbl.get 0 (pteIndex (s.leAt (c.pte mv.ctx mv.span 0) 4)) (s.hw.pen p).kv.refs = 1 ∧
    c.pte mv.ctx mv.span 0 + 4 ≤ loftBase ∧
    (granulesOf (c.pte mv.ctx mv.span 0) 4).all (fun g => !(s.hw.deadGranule g)) = true :=
  ⟨0, (fun s : State => { s with hw := s.hw.modPen 0 fun ps => { ps with kv := { cfg := some { pool := 16, poolCnt := 8, loft := 0, loftCnt := 4, pfx := 0, pfxCnt := 0, gKv := 1, maxSpans := 4, lowG := 1, highG := 2 }, refs := [(7, 1)], moves := [⟨2, 0, true⟩] }, ctxs := [(2, { serving := .active })] } }) (let s := upPen; { s with mem := { dev := [(KvCfg.pte { pool := 16, poolCnt := 8, loft := 0, loftCnt := 4, pfx := 0, pfxCnt := 0, gKv := 1, maxSpans := 4, lowG := 1, highG := 2 } 2 0 0, 7#8), (KvCfg.page { pool := 16, poolCnt := 8, loft := 0, loftCnt := 4, pfx := 0, pfxCnt := 0, gKv := 1, maxSpans := 4, lowG := 1, highG := 2 } 7 7 + 5, 6#8)], host := [], mark := [] } }), { pool := 16, poolCnt := 8, loft := 0, loftCnt := 4, pfx := 0, pfxCnt := 0, gKv := 1, maxSpans := 4, lowG := 1, highG := 2 }, ⟨2, 0, true⟩, by decide +kernel⟩

theorem wit_KvSpill_2 : ∃ (p : PenId) (s : State) (c : KvCfg) (mv : SpanMove),
    (s.hw.pen p).kv.cfg = some c ∧
    ((s.hw.pen p).kv.moves.find? fun m => m.out) = some mv ∧
    ((s.hw.pen p).busy mv.ctx || (s.hw.pen p).kv.pins.any fun q => q.1 == mv.ctx) = true ∧
    s.hw.noReclaim p = true :=
  ⟨0, (fun s : State => { s with hw := s.hw.modPen 0 fun ps => { ps with kv := { cfg := some { pool := 16, poolCnt := 8, loft := 0, loftCnt := 4, pfx := 0, pfxCnt := 0, gKv := 1, maxSpans := 4, lowG := 1, highG := 2 }, pins := [(2, 0)], moves := [⟨2, 0, true⟩] }, ctxs := [(2, { serving := .active })] } }) (mem1 upPen), { pool := 16, poolCnt := 8, loft := 0, loftCnt := 4, pfx := 0, pfxCnt := 0, gKv := 1, maxSpans := 4, lowG := 1, highG := 2 }, ⟨2, 0, true⟩, by decide⟩

theorem wit_KvSpill_3 : ∃ (p : PenId) (s : State),
    (((s.hw.pen p).kv.cfg = none ∨ (s.hw.pen p).kv.moves.all (fun m => !m.out) = true)) :=
  ⟨0, upPen, by decide⟩

theorem wit_KvPrefetch_1 : ∃ (p : PenId) (s : State) (c : KvCfg) (mv : SpanMove),
    (s.hw.pen p).kv.cfg = some c ∧
    c.gKv = 1 ∧
    ((s.hw.pen p).kv.moves.find? fun m => !m.out) = some mv ∧
    56 * c.lowG < s.hw.freePages p ∧
    c.pages (s.hw.ctxMax p) ≤ 2 ^ 30 ∧
    (s.hw.pen p).kv.reclaim = false ∧
    ((s.hw.pen p).ctx mv.ctx).serving ≠ .free ∧
    mv.span < c.maxSpans ∧
    pteState (s.leAt (c.pte mv.ctx mv.span 0) 4) = 1 ∧
    c.pte mv.ctx mv.span 0 + 4 ≤ (c.pool + c.tblG (s.hw.ctxMax p)) * granule ∧
    (granulesOf (c.pte mv.ctx mv.span 0) 4).all (fun g => !(s.hw.deadGranule g)) = true ∧
    (c.pool + c.poolCnt) * granule ≤ hbmEnd :=
  ⟨0, (fun s : State => { s with hw := s.hw.modPen 0 fun ps => { ps with kv := { cfg := some { pool := 16, poolCnt := 8, loft := 0, loftCnt := 4, pfx := 0, pfxCnt := 0, gKv := 1, maxSpans := 4, lowG := 1, highG := 2 }, loftRef := [(7, 1)], moves := [⟨2, 0, false⟩] }, ctxs := [(2, { serving := .active })] } }) (let s := upPen; { s with mem := { dev := [(KvCfg.pte { pool := 16, poolCnt := 8, loft := 0, loftCnt := 4, pfx := 0, pfxCnt := 0, gKv := 1, maxSpans := 4, lowG := 1, highG := 2 } 2 0 0, 7#8), (KvCfg.pte { pool := 16, poolCnt := 8, loft := 0, loftCnt := 4, pfx := 0, pfxCnt := 0, gKv := 1, maxSpans := 4, lowG := 1, highG := 2 } 2 0 0 + 3, 0x40#8), (KvCfg.loftPage { pool := 16, poolCnt := 8, loft := 0, loftCnt := 4, pfx := 0, pfxCnt := 0, gKv := 1, maxSpans := 4, lowG := 1, highG := 2 } 7 + 5, 6#8)], host := [], mark := [] } }), { pool := 16, poolCnt := 8, loft := 0, loftCnt := 4, pfx := 0, pfxCnt := 0, gKv := 1, maxSpans := 4, lowG := 1, highG := 2 }, ⟨2, 0, false⟩, by decide +kernel⟩

theorem wit_KvPrefetch_2 : ∃ (p : PenId) (s : State),
    (match (s.hw.pen p).kv.cfg with | some c => (s.hw.pen p).kv.moves.all (fun m => m.out) || decide (s.hw.freePages p < c.gKv) | none => true) = true :=
  ⟨0, upPen, by decide⟩

theorem wit_PauseExpires_1 : ∃ (p : PenId) (x : Nat) (s : State) (due : Nat) (c : KvCfg),
    ((s.hw.pen p).ctx x).serving = .paused ∧
    ((s.hw.pen p).ctx x).expiry = some due ∧
    ((s.hw.pen p).ctx x).clockHeld = false ∧
    s.hw.clk.running = true ∧
    due ≤ s.hw.clk.due ∧
    (s.hw.pen p).kv.cfg = some c ∧
    s.hw.tableAlive c x = true :=
  ⟨0, 2, running ((fun s : State => { s with hw := s.hw.modPen 0 fun ps => { ps with kv := { cfg := some { pool := 16, poolCnt := 8, loft := 0, loftCnt := 4, pfx := 0, pfxCnt := 0, gKv := 1, maxSpans := 4, lowG := 1, highG := 2 }, refs := [(7, 1)], moves := [⟨2, 0, true⟩] }, ctxs := [(2, { serving := .paused, expiry := some 77 })] } }) (let s := upPen; { s with mem := { dev := [(KvCfg.pte { pool := 16, poolCnt := 8, loft := 0, loftCnt := 4, pfx := 0, pfxCnt := 0, gKv := 1, maxSpans := 4, lowG := 1, highG := 2 } 2 0 0, 7#8)], host := [], mark := [] } })), 77, { pool := 16, poolCnt := 8, loft := 0, loftCnt := 4, pfx := 0, pfxCnt := 0, gKv := 1, maxSpans := 4, lowG := 1, highG := 2 }, by decide +kernel⟩

theorem wit_PauseExpires_2 : ∃ (p : PenId) (x : Nat) (s : State) (due : Nat),
    ((s.hw.pen p).ctx x).serving = .paused ∧
    ((s.hw.pen p).ctx x).expiry = some due ∧
    ((s.hw.pen p).ctx x).clockHeld = false ∧
    s.hw.clk.running = true ∧
    due ≤ s.hw.clk.due ∧
    (s.hw.pen p).kv.cfg = none :=
  ⟨0, 2, running (dev (fun d => { d with pens := [(0, { ctxs := [(2, { serving := .paused, expiry := some 77 })] })] }) (mem1 upPen)), 77, by decide⟩

theorem wit_PauseExpires_3 : ∃ (p : PenId) (x : Nat) (s : State),
    ((((s.hw.pen p).ctx x).serving ≠ .paused ∨ ((s.hw.pen p).ctx x).clockHeld = true ∨ ((s.hw.pen p).ctx x).expiry = none ∨ s.hw.clk.running = false ∨ ((s.hw.pen p).ctx x).expiry.any (fun t => decide (s.hw.clk.due < t)) = true)) :=
  ⟨0, 2, running (dev (fun d => { d with pens := [(0, { ctxs := [(2, { serving := .paused, expiry := some 99999 })] })] }) (mem1 upPen)), by decide⟩

theorem wit_KvmApply_1 : ∃ (p : PenId) (s : State) (d : PenDesc),
    s.hw.hostUp = true ∧
    s.hw.desc p = some d ∧
    s.hw.kvmOk p d (s.hw.kvmRegs p) = true :=
  ⟨0, reg R.KVM_POOL_BASE 0 16 (reg R.KVM_POOL_CNT_COUNT 0 8 (reg R.KVM_LOFT_BASE 0 0 (reg R.KVM_LOFT_CNT_COUNT 0 4 (reg R.KVM_GEOM_G_KV 0 1 (reg R.KVM_GEOM_MAX_SPANS 0 4 (reg R.KVM_WATER_LOW_G 0 1 (reg R.KVM_WATER_HIGH_G 0 2 (dev (fun d => { d with truss := some { image with pens := [(0, { pen0 with hbm := [⟨0, 8⟩, ⟨16, 64⟩], saveRange := 0 })] } }) upPen)))))))), { pen0 with hbm := [⟨0, 8⟩, ⟨16, 64⟩], saveRange := 0 }, by decide⟩

theorem wit_KvmApply_2 : ∃ (p : PenId) (s : State) (d : PenDesc),
    s.hw.hostUp = true ∧
    s.hw.desc p = some d ∧
    s.hw.kvmOk p d (s.hw.kvmRegs p) = false :=
  ⟨0, upPen, pen0, by decide⟩

theorem wit_KvmApply_3 : ∃ (p : PenId) (s : State),
    s.hw.hostUp = true ∧
    s.hw.desc p = none :=
  ⟨1, upPen, by decide⟩

theorem wit_FramesAndBoundaries_1 : ∃ (s : State),
    s.hw.ticks = true ∧
    s.hw.dev.load = none ∧
    ((List.range 16).all fun q => !(s.hw.pen q).trsDone) = true ∧
    s.hw.is R.LNK_RT_CTRL_COMMIT = false ∧
    s.hw.dev.truss = none :=
  ⟨(fun s : State => { s with hw := { s.hw with clk := { s.hw.clk with running := true, now := 70, frame := 4, frameStart := 50, due := 100050, subtick := 2 } } }) (mem1 up), by decide⟩

theorem wit_FramesAndBoundaries_2 : ∃ (s : State) (p : Nat) (tr : Truss),
    s.hw.ticks = true ∧
    s.hw.dev.load = none ∧
    ((List.range 16).all fun q => !(s.hw.pen q).trsDone) = true ∧
    s.hw.is R.LNK_RT_CTRL_COMMIT = false ∧
    s.hw.dev.truss = some tr ∧
    tr.tenants = [] ∧
    tr.yoke = none ∧
    s.hw.penList = [p] ∧
    s.hw.pen p = {} :=
  ⟨(fun s : State => { s with hw := { s.hw with clk := { s.hw.clk with running := true, now := 70, frame := 4, frameStart := 50, due := 100050, subtick := 2 } } }) (mem1 upPen), 0, image, by decide⟩

theorem wit_FramesAndBoundaries_3 : ∃ (s : State),
    s.hw.ticks = true ∧
    s.hw.clk.subtick < 7 ∧
    s.hw.dev.truss = none :=
  ⟨(fun s : State => { s with hw := { s.hw with clk := { s.hw.clk with running := true, now := 70, frame := 4, frameStart := 50, due := 100050, subtick := 2 } } }) (mem1 up), by decide⟩

theorem wit_FramesAndBoundaries_4 : ∃ (p : PenId) (f : Nat) (s : State) (x : PenFrame),
    (s.hw.pen p).frames = [x] ∧
    x.frame = f ∧
    x.tailDone = false ∧
    x.tailOk = true ∧
    x.bodyDone = true ∧
    s.hw.penRun p = true ∧
    x.left = [] ∧
    (s.hw.pen p).bound = [] ∧
    (s.hw.pen p).old = [] ∧
    s.hw.yoked p = false ∧
    s.hw.mirroring p = false :=
  ⟨0, 4, (fun s : State => { s with hw := s.hw.modPen 0 fun ps => { ps with frames := [{ frame := 4, slot := 0, key := 0, regs := 0, idle := false, slipped := false, tasks := [], left := [], pushed := [], bodyDone := true }] } }) (mem1 upPen), { frame := 4, slot := 0, key := 0, regs := 0, idle := false, slipped := false, tasks := [], left := [], pushed := [], bodyDone := true }, by decide⟩

theorem wit_FramesAndBoundaries_5 : ∃ (e : Eng) (s : State) (q : QCmd),
    (s.hw.eng (Eng.key e)).reset = false ∧
    s.hw.waitsLocal (Eng.key e) = false ∧
    (s.hw.eng (Eng.key e)).run = none ∧
    s.hw.nextCmd (Eng.key e) = some q ∧
    ((stallOfKey (Eng.key e)).any fun n => s.hw.is R.SPD_STATUS_ZEROING n) = false :=
  ⟨.stall 0 .tda, (dev (fun d => { d with engs := [(0, { main := [⟨0, 4, 9, 0, none, false, []⟩] })] }) (mem1 upPen)), ⟨0, 4, 9, 0, none, false, []⟩, by decide⟩

theorem wit_FramesAndBoundaries_6 : ∃ (e : Eng) (s : State) (q : QCmd),
    (s.hw.eng (Eng.key e)).reset = false ∧
    s.hw.waitsLocal (Eng.key e) = false ∧
    (s.hw.eng (Eng.key e)).run = some q ∧
    (s.hw.eng (Eng.key e)).u0 = [] ∧
    (s.hw.eng (Eng.key e)).lap = [] ∧
    (s.hw.eng (Eng.key e)).main = [] ∧
    (s.hw.pen q.pen).frames = [] :=
  ⟨.stall 0 .tda, (dev (fun d => { d with engs := [(0, { run := some ⟨0, 4, 9, 0, none, false, []⟩ })] }) (mem1 upPen)), ⟨0, 4, 9, 0, none, false, []⟩, by decide⟩

theorem wit_SwapsAndPlans_1 : ∃ (p : PenId) (s : State) (x : Nat) (u : Bool) (d : PenDesc),
    (s.hw.pen p).swap = [⟨x, false, u, false⟩] ∧
    ((s.hw.pen p).ctxs.all fun kv => !kv.2.wake) = true ∧
    (s.hw.pen p).frames = [] ∧
    s.hw.desc p = some d :=
  ⟨0, (fun s : State => { s with hw := s.hw.modPen 0 fun ps => { ps with ctxs := [(2, { serving := .active, res := .swapOut, addr := spdAddr 0 + 4096 })], swap := [⟨2, false, false, false⟩], swapAt := 3 } }) ({ upPen with mem := { dev := [(spdAddr 0 + 4096 + 0, 75#8), (spdAddr 0 + 4096 + 1, 67#8), (spdAddr 0 + 4096 + 2, 84#8), (spdAddr 0 + 4096 + 3, 88#8), (spdAddr 0 + 4096 + 4, 2#8), (spdAddr 0 + 4096 + 7, 7#8), (spdAddr 0 + 4096 + 8, 64#8), (spdAddr 0 + 4096 + 13, 1#8), (spdAddr 0 + 4096 + 32, 130#8), (spdAddr 0 + 4096 + 60, 36#8), (spdAddr 0 + 4096 + 61, 76#8), (spdAddr 0 + 4096 + 62, 112#8), (spdAddr 0 + 4096 + 63, 229#8)], host := [], mark := [] } }), 2, false, pen0, by decide +kernel⟩

theorem wit_SwapsAndPlans_2 : ∃ (p : PenId) (s : State) (x : Nat) (u : Bool) (a : Nat) (n : Nat),
    (s.hw.pen p).swap = [⟨x, true, u, false⟩] ∧
    ((s.hw.pen p).ctxs.all fun kv => !kv.2.wake) = true ∧
    (s.hw.pen p).frames = [] ∧
    ((s.hw.pen p).ctx x).res = .swapIn ∧
    (s.hw.pen p).busy x = false ∧
    s.leAt ((s.hw.recAddr p x) + 8) 4 = 64 ∧
    s.hw.placeOk p a 64 = true ∧
    s.hw.penSpd p a = some n ∧
    s.hw.is R.SPD_STATUS_ZEROING n = false ∧
    Run.recordOk (Run.fetch { hw := s.hw, mem := s.mem } (.pen p) (s.hw.recAddr p x) 64) p x (s.hw.recAddr p x) = true :=
  ⟨0, (fun s : State => { s with hw := s.hw.modPen 0 fun ps => { ps with ctxs := [(2, { serving := .active, res := .swapIn, addr := spdAddr 0 + 4096 })], swap := [⟨2, true, false, false⟩], swapAt := 3 } }) ((dev (fun d => { d with truss := some { image with pens := [(0, { pen0 with hbm := [⟨16, 64⟩], saveRange := 0 })] } }) ({ upPen with mem := { dev := [(0x2200000 + 0, 75#8), (0x2200000 + 1, 67#8), (0x2200000 + 2, 84#8), (0x2200000 + 3, 88#8), (0x2200000 + 4, 2#8), (0x2200000 + 7, 7#8), (0x2200000 + 8, 64#8), (0x2200000 + 13, 1#8), (0x2200000 + 32, 130#8), (0x2200000 + 60, 36#8), (0x2200000 + 61, 76#8), (0x2200000 + 62, 112#8), (0x2200000 + 63, 229#8)], host := [], mark := [] } }))), 2, false, spdAddr 0 + 4096, 0, by decide +kernel⟩

theorem wit_SwapsAndPlans_3 : ∃ (p : PenId) (s : State) (x : Nat) (u : Bool) (a : Nat),
    (s.hw.pen p).swap = [⟨x, true, u, false⟩] ∧
    ((s.hw.pen p).ctxs.all fun kv => !kv.2.wake) = true ∧
    (s.hw.pen p).frames = [] ∧
    (s.hw.pen p).bound = [] ∧
    s.hw.placeOk p a (min 0x100000 (s.leAt ((s.hw.recAddr p x) + 8) 4)) = true ∧
    s.leAt (s.hw.recAddr p x) 4 ≠ 0x5854434B :=
  ⟨0, (fun s : State => { s with hw := s.hw.modPen 0 fun ps => { ps with ctxs := [(2, { serving := .active, res := .swapIn, addr := spdAddr 0 + 4096 })], swap := [⟨2, true, false, false⟩], swapAt := 3 } }) (mem1 upPen), 2, false, spdAddr 0 + 4096, by decide +kernel⟩

theorem wit_SwapsAndPlans_4 : ∃ (p : PenId) (s : State),
    s.hw.hostUp = true ∧
    s.hw.present p = true ∧
    s.hw.get R.FSQ_PLAN_STATUS_STATE p = 0 ∧
    s.hw.is R.PEN_STATE_LOAD_PENDING p = false ∧
    s.hw.placed p (s.hw.get R.FSQ_PLAN_DST_DST p) (s.hw.get R.FSQ_PLAN_LEN_LEN p) = true :=
  ⟨0, reg R.FSQ_PLAN_DST_DST 0 0x2200000 (reg R.FSQ_PLAN_LEN_LEN 0 256 (dev (fun d => { d with truss := some { image with pens := [(0, { pen0 with hbm := [⟨16, 64⟩, ⟨200, 4⟩], saveRange := 1 })] } }) (upPen))), by decide⟩

theorem wit_SwapsAndPlans_5 : ∃ (p : PenId) (s : State),
    s.hw.hostUp = true ∧
    s.hw.present p = true ∧
    s.hw.get R.FSQ_PLAN_STATUS_STATE p = 0 ∧
    s.hw.is R.PEN_STATE_LOAD_PENDING p = false ∧
    s.hw.placed p (s.hw.get R.FSQ_PLAN_DST_DST p) (s.hw.get R.FSQ_PLAN_LEN_LEN p) = false :=
  ⟨0, upPen, by decide⟩

theorem wit_SwapsAndPlans_6 : ∃ (p : PenId) (s : State),
    s.hw.hostUp = true ∧
    s.hw.present p = true ∧
    ((s.hw.get R.FSQ_PLAN_STATUS_STATE p ≠ 0 ∨ s.hw.is R.PEN_STATE_LOAD_PENDING p = true)) :=
  ⟨0, reg R.FSQ_PLAN_STATUS_STATE 0 2 upPen, by decide⟩

theorem wit_SwapsAndPlans_7 : ∃ (p : PenId) (s : State) (i : Inst),
    s.hw.hostUp = true ∧
    s.hw.present p = true ∧
    (s.hw.pen p).inst = some i ∧
    s.hw.get R.FSQ_PLAN_STATUS_STATE p ≠ 4 :=
  ⟨0, (fun s : State => { s with hw := s.hw.modPen 0 fun ps => { ps with inst := some { slot := 1, src := 0x2000, dst := 0x2200000, len := 256, bad := false, digest := [], plan := none, staged := 0 } } }) (reg R.FSQ_PLAN_STATUS_STATE 0 2 upPen), { slot := 1, src := 0x2000, dst := 0x2200000, len := 256, bad := false, digest := [], plan := none, staged := 0 }, by decide⟩

theorem wit_SwapsAndPlans_8 : ∃ (p : PenId) (s : State) (i : Inst),
    (s.hw.pen p).inst = some i ∧
    s.hw.get R.FSQ_PLAN_STATUS_STATE p = 1 ∧
    i.src % 8 = 0 ∧
    s.hw.dmaOk 0 i.src i.len false = true ∧
    ((granulesOf i.dst i.len).any s.hw.deadGranule) = false :=
  ⟨0, (fun s : State => { s with hw := s.hw.modPen 0 fun ps => { ps with inst := some { slot := 1, src := 0x2000, dst := 0x2200000, len := 256, bad := false, digest := [], plan := none, staged := 0 } } }) (reg R.FSQ_PLAN_STATUS_STATE 0 1 (dev (fun d => { d with dmaWin := [(0, (7, 0x10000))] }) (let s := mem1 upPen; { s with mem := { s.mem with host := [(0x2005, 9#8)] } }))), { slot := 1, src := 0x2000, dst := 0x2200000, len := 256, bad := false, digest := [], plan := none, staged := 0 }, by decide +kernel⟩

theorem wit_SwapsAndPlans_9 : ∃ (p : PenId) (s : State) (i : Inst),
    (s.hw.pen p).inst = some i ∧
    s.hw.get R.FSQ_PLAN_STATUS_STATE p = 2 :=
  ⟨0, (fun s : State => { s with hw := s.hw.modPen 0 fun ps => { ps with inst := some { slot := 1, src := 0x2000, dst := 0x2200000, len := 256, bad := false, digest := [], plan := none, staged := 0 } } }) (reg R.FSQ_PLAN_STATUS_STATE 0 2 (mem1 upPen)), { slot := 1, src := 0x2000, dst := 0x2200000, len := 256, bad := false, digest := [], plan := none, staged := 0 }, by decide⟩

theorem wit_SwapsAndPlans_10 : ∃ (p : PenId) (tasks : List Task) (s : State) (i : Inst) (code : Nat),
    (s.hw.pen p).inst = some i ∧
    s.hw.get R.FSQ_PLAN_STATUS_STATE p = 3 ∧
    Run.planCheck { hw := s.hw, mem := s.mem } p i (Run.read { hw := s.hw, mem := s.mem } i.dst 128) (Run.slotTable { hw := s.hw, mem := s.mem } (i.dst + fld (Run.read { hw := s.hw, mem := s.mem } i.dst 128) 0x4C 4) (fld (Run.read { hw := s.hw, mem := s.mem } i.dst 128) 0x14 4)) tasks = some code :=
  ⟨0, [], (fun s : State => { s with hw := s.hw.modPen 0 fun ps => { ps with inst := some { slot := 1, src := 0x2000, dst := 0x2200000, len := 256, bad := false, digest := [], plan := none, staged := 0 } } }) (reg R.FSQ_PLAN_STATUS_STATE 0 3 (mem1 upPen)), { slot := 1, src := 0x2000, dst := 0x2200000, len := 256, bad := false, digest := [], plan := none, staged := 0 }, 1, by decide +kernel⟩

theorem wit_SwapsAndPlans_11 : ∃ (p : PenId) (tasks : List Task) (s : State) (i : Inst),
    (s.hw.pen p).inst = some i ∧
    s.hw.get R.FSQ_PLAN_STATUS_STATE p = 3 ∧
    Run.planCheck { hw := s.hw, mem := s.mem } p i (Run.read { hw := s.hw, mem := s.mem } i.dst 128) (Run.slotTable { hw := s.hw, mem := s.mem } (i.dst + fld (Run.read { hw := s.hw, mem := s.mem } i.dst 128) 0x4C 4) (fld (Run.read { hw := s.hw, mem := s.mem } i.dst 128) 0x14 4)) tasks = none ∧
    tasks.length = fld (Run.read { hw := s.hw, mem := s.mem } i.dst 128) 0x10 4 :=
  ⟨0, [], planState, planInst, by decide +kernel⟩

theorem wit_SwapsAndPlans_12 : ∃ (p : PenId) (s : State),
    s.hw.hostUp = true ∧
    s.hw.present p = true :=
  ⟨0, reg R.FSQ_ROTA_LO_ENTRY0_7 0 0x21 upPen, by decide⟩

end Sys2Proof.Tests
end

section
/-! SUPPORT. The scope statements (00_scope.md): memories stay canonical, registers after reset, crib code precedence, and the host
access that leaves its frame. -/

namespace Sys2Proof.Machine

/-! ## Memories stay canonical (R3, R21) -/

theorem State.idle_mem (s : State) : s.idle.mem = s.mem := by
  unfold State.idle
  split <;> rfl

theorem exec_memOk {i : Instr} {s t : State} (hs : s.MemOk) (h : exec i s = .next t) : t.MemOk := by
  obtain ⟨u, ps, hu, -, hmem⟩ := exec_cases i s
  obtain rfl : u = t := Host.Outcome.next.inj (hu.symm.trans h)
  rw [State.MemOk, hmem]
  exact Mem.apply_wf ps hs

/-- Settles O5: an idle step leaves the memories alone, and every command changes them by posted writes, each of which keeps the
canonical form. -/
theorem stepKeepsMemoryCanonical : Obligations.StepKeepsMemoryCanonical := by
  unfold Obligations.StepKeepsMemoryCanonical
  intro s t hs h
  unfold step at h
  split at h
  next =>
    obtain rfl : s.idle = t := Host.Outcome.next.inj h
    rwa [State.MemOk, State.idle_mem]
  next c rest _ => exact exec_memOk (s := { s with pending := rest }) hs h

/-! ## Registers after reset (R6) -/

/-- After reset nothing is stored, so every register reads its Reset column. -/
theorem State.reset_get (f : Fld) (i : Nat) : State.reset.hw.get f i = f.reset := rfl

/-- Settles O7: each register named reads its field's reset value. -/
theorem resetRegisters : Obligations.ResetRegisters := by
  unfold Obligations.ResetRegisters
  and_intros <;> intros <;> exact State.reset_get _ _

/-! ## Precedence of crib codes (R10, Table 0.4) -/

/-- The code of lower precedence number of two, the first on a tie. -/
def cribMin (best c : Nat) : Nat := if cribPrec c < cribPrec best then c else best

theorem cribCode_eq_foldl (cs : List Nat) : cribCode cs = cs.foldl cribMin 0 := rfl

theorem cribMin_eq_or (b c : Nat) : cribMin b c = b ∨ cribMin b c = c := by
  unfold cribMin
  split <;> simp

theorem cribPrec_cribMin (b c : Nat) : cribPrec (cribMin b c) = min (cribPrec b) (cribPrec c) := by
  unfold cribMin
  split <;> omega

theorem foldl_cribMin_mem (cs : List Nat) (b : Nat) : cs.foldl cribMin b ∈ b :: cs := by
  induction cs generalizing b with
  | nil => simp
  | cons c cs ih =>
    rw [List.foldl_cons]
    rcases List.mem_cons.mp (ih (cribMin b c)) with h | h
    · rw [h]
      rcases cribMin_eq_or b c with he | he <;> simp [he]
    · simp [h]

theorem cribPrec_foldl_cribMin_le (cs : List Nat) (b : Nat) : ∀ c ∈ b :: cs, cribPrec (cs.foldl cribMin b) ≤ cribPrec c := by
  induction cs generalizing b with
  | nil => simp
  | cons d cs ih =>
    have hmin := ih (cribMin b d) (cribMin b d) List.mem_cons_self
    rw [cribPrec_cribMin] at hmin
    intro c hc
    rw [List.foldl_cons]
    rcases List.mem_cons.mp hc with rfl | hc
    · omega
    · rcases List.mem_cons.mp hc with rfl | hc
      · omega
      · exact ih _ c (List.mem_cons_of_mem _ hc)

/-- The codes of Table 0.4. -/
def cribListed : List Nat := [0x00, 0x01, 0x10, 0x11, 0x12, 0x13, 0x20, 0x21, 0x30, 0x31, 0x32, 0x40, 0x41, 0x42]

theorem mem_cribListed_of_cribPrec_le {c : Nat} (h : cribPrec c ≤ 14) : c ∈ cribListed := by
  refine Decidable.byContradiction fun hc => ?_
  simp only [cribListed, List.mem_cons, List.not_mem_nil, or_false, not_or] at hc
  simp [cribPrec, hc] at h

/-- The four codes with a valid result have the four highest precedence numbers of Table 0.4. -/
theorem cribValid_iff_of_listed : ∀ c ∈ cribListed, cribValid c = true ↔ 11 ≤ cribPrec c := by decide

/-- Settles O13: the fold keeps the code of the lowest precedence number, and a code with a valid result lies above every code
without one. -/
theorem cribCodePrecedence : Obligations.CribCodePrecedence := by
  unfold Obligations.CribCodePrecedence
  refine ⟨by decide, fun cs hcs => ?_⟩
  have hmem := foldl_cribMin_mem cs 0
  have hle := cribPrec_foldl_cribMin_le cs 0
  rw [← cribCode_eq_foldl] at hmem hle
  refine ⟨hmem, hle, fun hvalid c hc => ?_⟩
  have hlow := hle c (List.mem_cons_of_mem _ hc)
  have hlisted := mem_cribListed_of_cribPrec_le (hcs c hc)
  have hbest := mem_cribListed_of_cribPrec_le (Nat.le_trans hlow (hcs c hc))
  exact (cribValid_iff_of_listed c hlisted).mpr (Nat.le_trans ((cribValid_iff_of_listed _ hbest).mp hvalid) hlow)

/-! ## A host write that leaves its frame (R195, R389) -/

/-- A running module with port 0 up, a corrected bit error in the first line of the trough, and 6 in HIF_MODULE_ID.LOFT_TIB: the
loft's populated run then covers the trough's addresses. -/
def loftOverTrough : State :=
  { hw := { regs := [(R.HIF_MODULE_ID_LOFT_TIB.key 0, 6), (R.HIF_PORT_P0_UP.key 0, 1)]
            dev := { soft := [(troughBase / 64, 1)] }
            mgt := { phase := .run } } }

/-- A write of part of the line reads it first, and the error is counted as the loft's. -/
theorem hdmWrite_loftOverTrough_counts {t : State} (h : exec (.hdmWrite 0 0 [1#8] false []) loftOverTrough = .next t) :
    t.hw.get R.MHB_LOFT_ECC_CE 0 = 1 := by
  obtain rfl := Host.Outcome.next.inj h
  decide

/-- Refutes O49: LOFT_TIB is free in the statement, and from 6 on the model takes a trough line for a loft line, so that a host write
within a line with a bit error advances MHB_LOFT_ECC_CE, which is none of the log's registers. -/
theorem not_hostAccesses : ¬ Obligations.HostAccesses := by
  unfold Obligations.HostAccesses
  rintro ⟨-, -, -, -, -, -, -, hwrite, -, -⟩
  obtain ⟨t, ht, -, -, -, -, -, hregs⟩ := hwrite 0 0 [1#8] false loftOverTrough (by decide) (by decide) (by decide) (by decide)
  have hsame : t.hw.get R.MHB_LOFT_ECC_CE 0 = loftOverTrough.hw.get R.MHB_LOFT_ECC_CE 0 := hregs.get (by decide)
  have hbefore : loftOverTrough.hw.get R.MHB_LOFT_ECC_CE 0 = 0 := by decide
  have hafter := hdmWrite_loftOverTrough_counts ht
  omega

end Sys2Proof.Machine
end

section
/-! SUPPORT. The architecture statements (01_architecture.md): where a stall lies. -/

namespace Sys2Proof.Machine

/-! ## Where a stall lies (R15) -/

/-- A CT die holds eight stalls, one after the other. -/
theorem eight_mul_dieOf_add_mod (n : Nat) : 8 * dieOf n + n % 8 = n := Nat.div_add_mod n 8

/-- Three CT dies share a home hub. -/
theorem hubOf_eq_dieOf_div (n : Nat) : hubOf n = dieOf n / 3 := rfl

/-- The first `k` dies hold the first `k * 8` stalls. -/
theorem dieOf_lt_iff {n k : Nat} : dieOf n < k ↔ n < k * 8 := Nat.div_lt_iff_lt_mul (by decide)

/-- The first `k` hubs serve the first `k * 24` stalls. -/
theorem hubOf_lt_iff {n k : Nat} : hubOf n < k ↔ n < k * 24 := by
  rw [hubOf_eq_dieOf_div, Nat.div_lt_iff_lt_mul (by decide), dieOf_lt_iff, Nat.mul_assoc]

/-- Settles O8: 192 stalls fill 24 dies of eight stalls, and 24 dies fill 8 hubs of three dies. -/
theorem stallPlace : Obligations.StallPlace := by
  unfold Obligations.StallPlace
  intro n
  have hdie : dieOf n < 24 := dieOf_lt_iff.mpr n.isLt
  have hhub : hubOf n < 8 := hubOf_lt_iff.mpr n.isLt
  exact ⟨rfl, hdie, (eight_mul_dieOf_add_mod n).symm, rfl, hhub⟩

end Sys2Proof.Machine
end

section
/-! SUPPORT. The truss image statements (02_truss_image.md): TRS_CTRL and the device quiesced, arrivals at a stall, and truss
loads. -/

namespace Sys2Proof.Machine

/-! ## Commands that touch no memory -/

theorem State.byHostHw_of_hostUp {s : State} (f : Hw → Hw) (hup : s.hw.hostUp = true) : s.byHostHw f = .next { s with hw := f s.hw } := by
  simp [State.byHostHw, State.onHw, hup]

/-- A command that changes the hardware alone has the frame of its registers. -/
theorem State.frame_of_regsBut {ks : List Nat} {s : State} {h : Hw} (hregs : Hw.RegsBut ks s.hw h) : State.Frame ks s { s with hw := h } :=
  ⟨rfl, rfl, hregs⟩

/-! ## START (R43, R44) -/

/-- The load of the image that TRS_SRC names. -/
def Hw.srcLoad (s : Hw) : Load :=
  { len := s.get R.TRS_SRC_LEN_LEN 0, src := s.get R.TRS_SRC_ADDR_LO_ADDR_LO 0 + 2 ^ 32 * s.get R.TRS_SRC_ADDR_HI_ADDR_HI 0 }

theorem Hw.trsStart_of_idle {s : Hw} (hidle : s.get R.TRS_STATUS_STATE 0 = 0) :
    s.trsStart = ({ s.set R.TRS_CTRL_START 0 0 with dev.load := some s.srcLoad } : Hw).set R.TRS_STATUS_STATE 0 1 := by
  have hget : ∀ {g : Fld}, g.key 0 ≠ R.TRS_CTRL_START.key 0 → (s.set R.TRS_CTRL_START 0 0).get g 0 = s.get g 0 := Hw.get_set_ne s 0
  unfold Hw.trsStart
  dsimp only
  rw [hget (by decide), hget (by decide), hget (by decide), hget (by decide), if_neg (not_not_intro hidle)]
  rfl

theorem Hw.trsStart_of_busy {s : Hw} (hbusy : s.get R.TRS_STATUS_STATE 0 ≠ 0) :
    s.trsStart = (s.set R.TRS_CTRL_START 0 0).set R.TRS_STATUS_BUSY_REFUSED 0 1 := by
  have hst : (s.set R.TRS_CTRL_START 0 0).get R.TRS_STATUS_STATE 0 = s.get R.TRS_STATUS_STATE 0 := Hw.get_set_ne s 0 (by decide)
  unfold Hw.trsStart
  dsimp only
  rw [hst, if_pos hbusy]

/-! ## ABORT (R50) -/

/-- A field that comes before another in the tables shares no key with it, whichever copy of the other it is. -/
theorem Fld.key_ne_of_id_lt {f g : Fld} {i j : Nat} (hid : g.id < f.id) (hj : j < 65536) : g.key j ≠ f.key i := by
  simp only [Fld.key]
  omega

/-- What the end of a load does: its pen, if it has one, shows neither a pending load nor a refused intake, the load is dropped,
and the failure is reported and counted. -/
theorem Hw.loadFail_eq (s : Hw) (code sec detail : Nat) :
    ∃ u : Hw, u.dev = { s.dev with load := none } ∧ (∀ f : Fld, f.id < R.PEN_STATE_LOAD_PENDING.id → u.get f 0 = s.get f 0) ∧
      (∀ l, s.dev.load = some l → Hw.RegsBut [R.PEN_STATE_LOAD_PENDING.key l.pen, R.PEN_STATE_REFUSING.key l.pen] s u) ∧
      s.loadFail code sec detail = ((((((u.set R.TRS_STATUS_STATE 0 0).set R.TRS_STATUS_FAIL 0 1).set R.TRS_STATUS_ERR_CODE 0 code).set
        R.TRS_STATUS_ERR_SECTION 0 sec).set R.TRS_ERR_DETAIL_OFFSET 0 detail).inc R.TRS_FAIL_COUNT_FAILS).msi 0 1 := by
  cases hload : s.dev.load with
  | none =>
    refine ⟨{ s with dev.load := none }, rfl, fun _ _ => rfl, fun _ h => (nomatch h), ?_⟩
    simp only [Hw.loadFail, hload]
  | some l =>
    by_cases hw : l.whole = true
    · refine ⟨{ s with dev.load := none }, rfl, fun _ _ => rfl, fun _ _ => .refl _ s, ?_⟩
      simp only [Hw.loadFail, hload, hw, if_true]
    · refine ⟨{ (s.set R.PEN_STATE_LOAD_PENDING l.pen 0).set R.PEN_STATE_REFUSING l.pen 0 with dev.load := none }, rfl, fun f hf => ?_, ?_, ?_⟩
      · show ((s.set R.PEN_STATE_LOAD_PENDING l.pen 0).set R.PEN_STATE_REFUSING l.pen 0).get f 0 = s.get f 0
        rw [Hw.get_set_ne _ _ (Fld.key_ne_of_id_lt (Nat.lt_succ_of_lt hf) (by decide)), Hw.get_set_ne _ _ (Fld.key_ne_of_id_lt hf (by decide))]
      · rintro k ⟨⟩
        exact .trans (Hw.regsBut_set s R.PEN_STATE_LOAD_PENDING l.pen 0 (by simp)) (Hw.regsBut_set _ R.PEN_STATE_REFUSING l.pen 0 (by simp))
      · simp only [Hw.loadFail, hload, hw, Bool.false_eq_true, if_false]

/-- A write of ABORT ends a load before COMMIT with code 0x11; the section and the offset it reports are open. -/
theorem Hw.trsAbort_of_cancellable {s : Hw} (h1 : 1 ≤ s.get R.TRS_STATUS_STATE 0) (h4 : s.get R.TRS_STATUS_STATE 0 ≤ 4) :
    ∃ (u : Hw) (v w : Nat), u.dev = s.dev ∧ u.regs = (s.set R.TRS_CTRL_ABORT 0 0).regs ∧ s.trsAbort = u.loadFail 0x11 v w := by
  have hst : (s.set R.TRS_CTRL_ABORT 0 0).get R.TRS_STATUS_STATE 0 = s.get R.TRS_STATUS_STATE 0 := Hw.get_set_ne s 0 (by decide)
  refine ⟨(s.set R.TRS_CTRL_ABORT 0 0).draw.2.draw.2, Config.freeValue s.free, Config.freeValue (s.free + 1), rfl, rfl, ?_⟩
  unfold Hw.trsAbort
  dsimp only
  rw [hst, if_pos ⟨h1, h4⟩]
  rfl

/-- What the end of a load shows: IDLE, FAIL, its code, one more failure, no load, and the image in force untouched. -/
theorem Hw.loadFail_shows (s : Hw) (code sec detail : Nat) :
    (s.loadFail code sec detail).get R.TRS_STATUS_STATE 0 = 0 ∧ (s.loadFail code sec detail).get R.TRS_STATUS_FAIL 0 = 1 ∧
      (s.loadFail code sec detail).get R.TRS_STATUS_ERR_CODE 0 = code % 256 ∧ (s.loadFail code sec detail).dev.load = none ∧
      (s.loadFail code sec detail).get R.TRS_FAIL_COUNT_FAILS 0 = min (s.get R.TRS_FAIL_COUNT_FAILS 0 + 1) 65535 ∧
      (s.loadFail code sec detail).dev.truss = s.dev.truss := by
  obtain ⟨u, hdev, hget, -, hfail⟩ := s.loadFail_eq code sec detail
  have hfails := hget R.TRS_FAIL_COUNT_FAILS (by decide)
  rw [hfail]
  refine ⟨?_, ?_, ?_, ?_, ?_, ?_⟩
  · simp (disch := decide) only [Hw.msi_get, Hw.get_inc_fld, Hw.get_set_fld, Hw.get_set_same, Nat.zero_mod]
  · simp (disch := decide) only [Hw.msi_get, Hw.get_inc_fld, Hw.get_set_fld, Hw.get_set_same]
    rfl
  · simp (disch := decide) only [Hw.msi_get, Hw.get_inc_fld, Hw.get_set_fld, Hw.get_set_same]
    rfl
  · simp [hdev]
  · simp (disch := decide) only [Hw.msi_get, Hw.get_inc_same, Hw.get_set_fld, hfails]
    rfl
  · simp [hdev]

/-- The registers that the end of the load `l` may change. -/
def loadFailKeys (l : Load) : List Nat :=
  [R.TRS_STATUS_STATE.key 0, R.TRS_STATUS_FAIL.key 0, R.TRS_STATUS_ERR_CODE.key 0, R.TRS_STATUS_ERR_SECTION.key 0,
    R.TRS_ERR_DETAIL_OFFSET.key 0, R.TRS_FAIL_COUNT_FAILS.key 0, R.PEN_STATE_LOAD_PENDING.key l.pen, R.PEN_STATE_REFUSING.key l.pen]

theorem Hw.loadFail_regs {s : Hw} {l : Load} (hload : s.dev.load = some l) (code sec detail : Nat) :
    Hw.RegsBut (loadFailKeys l) s (s.loadFail code sec detail) := by
  obtain ⟨u, -, -, hregs, hfail⟩ := s.loadFail_eq code sec detail
  have hset : ∀ (v : Hw) (f : Fld) (x : Nat), f.key 0 ∈ loadFailKeys l → Hw.RegsBut (loadFailKeys l) v (v.set f 0 x) :=
    fun v f x hf => Hw.regsBut_set v f 0 x hf
  rw [hfail]
  refine .trans ((hregs l hload).mono (by simp [loadFailKeys])) ?_
  refine .trans (hset _ R.TRS_STATUS_STATE 0 ?_) (.trans (hset _ R.TRS_STATUS_FAIL 1 ?_) (.trans (hset _ R.TRS_STATUS_ERR_CODE code ?_)
    (.trans (hset _ R.TRS_STATUS_ERR_SECTION sec ?_) (.trans (hset _ R.TRS_ERR_DETAIL_OFFSET detail ?_)
      (.trans (Hw.regsBut_inc _ R.TRS_FAIL_COUNT_FAILS 0 1 ?_) fun _ _ _ => by rw [Hw.msi_regs])))))
  all_goals simp [loadFailKeys]

/-! ## QUIESCE (R46) -/

theorem Hw.trsQuiesce_false {s : Hw} (hfree : (s.dev.load.any (·.whole) && decide (5 ≤ s.get R.TRS_STATUS_STATE 0)) = false) :
    s.trsQuiesce false = (s.set R.TRS_CTRL_QUIESCE 0 0).set R.TRS_STATUS_QUIESCED 0 0 := by
  unfold Hw.trsQuiesce
  cases hload : s.dev.load with
  | none => exact if_neg Bool.false_ne_true
  | some l =>
    rw [hload] at hfree
    exact if_neg fun hlate => Bool.false_ne_true (hfree.symm.trans hlate)

/-- Asked to quiesce, with a frame start passed where a pen is present and no pen with work, the device is QUIESCED. -/
theorem execQuiesced_of_idle {s : State} (hask : s.hw.is R.TRS_CTRL_QUIESCE 0 = true) (hframe : s.hw.penList = [] ∨ s.hw.dev.quiet = true)
    (hidle : s.hw.penList.all (fun p => (s.hw.pen p).frames.isEmpty && (s.hw.pen p).bound.isEmpty && (s.hw.pen p).deferred.isEmpty) = true) :
    execQuiesced s = .next { s with hw := s.hw.set R.TRS_STATUS_QUIESCED 0 1 } := by
  unfold execQuiesced State.onHw
  dsimp only
  rw [if_pos ⟨hask, hframe, hidle⟩]

/-! ## The four writes and QUIESCED together -/

/-- Settles O31: START and ABORT act by what TRS_STATUS.STATE shows, QUIESCE and QUIESCED by their own conditions, and each is a
chain of register writes beside the load it makes or drops. -/
theorem loadControl : Obligations.LoadControl := by
  unfold Obligations.LoadControl
  refine ⟨fun s hup hidle => ?start, fun s hup hbusy => ?busy, fun s hup h1 h4 => ?abort, fun s hup => ?quiesce, fun s hup hfree => ?clear,
    fun s hask hframe hidle => ?quiesced⟩
  case start =>
    refine ⟨_, State.byHostHw_of_hostUp _ hup, ?_, ?_, State.frame_of_regsBut ?_⟩ <;> rw [Hw.trsStart_of_idle hidle]
    · exact Hw.get_set_same ..
    · rfl
    · exact .trans (Hw.regsBut_set s.hw R.TRS_CTRL_START 0 0 (by simp)) (Hw.regsBut_set _ R.TRS_STATUS_STATE 0 1 (by simp))
  case busy =>
    refine ⟨_, State.byHostHw_of_hostUp _ hup, ?_, ?_, State.frame_of_regsBut ?_⟩ <;> rw [Hw.trsStart_of_busy hbusy]
    · exact Hw.get_set_same ..
    · rfl
    · exact .trans (Hw.regsBut_set s.hw R.TRS_CTRL_START 0 0 (by simp)) (Hw.regsBut_set _ R.TRS_STATUS_BUSY_REFUSED 0 1 (by simp))
  case abort =>
    obtain ⟨u, v, w, hdev, hregs, habort⟩ := Hw.trsAbort_of_cancellable h1 h4
    obtain ⟨hstate, hfail, hcode, hnone, hfails, htruss⟩ := u.loadFail_shows 0x11 v w
    have hsame : u.get R.TRS_FAIL_COUNT_FAILS 0 = s.hw.get R.TRS_FAIL_COUNT_FAILS 0 := by
      rw [Hw.get, hregs]
      exact Hw.get_set_ne s.hw 0 (by decide)
    refine ⟨_, State.byHostHw_of_hostUp _ hup, ?_⟩
    rw [habort]
    refine ⟨hstate, hfail, hcode, hnone, hsame ▸ hfails, hdev ▸ htruss, fun l hload => State.frame_of_regsBut ?_⟩
    have hset : Hw.RegsBut (R.TRS_CTRL_ABORT.key 0 :: loadFailKeys l) s.hw u := by
      intro d k hk
      rw [hregs]
      exact Hw.regsBut_set s.hw R.TRS_CTRL_ABORT 0 0 (by simp) d k hk
    refine (hset.trans ((Hw.loadFail_regs (hdev ▸ hload) 0x11 v w).mono ?_)).mono ?_ <;> simp +contextual [loadFailKeys]
  case quiesce =>
    exact ⟨_, State.byHostHw_of_hostUp (·.trsQuiesce true) hup, Hw.get_set_same ..,
      State.frame_of_regsBut (Hw.regsBut_set s.hw R.TRS_CTRL_QUIESCE 0 1 (by simp))⟩
  case clear =>
    refine ⟨_, State.byHostHw_of_hostUp (·.trsQuiesce false) hup, ?_, ?_, State.frame_of_regsBut ?_⟩ <;> rw [Hw.trsQuiesce_false hfree]
    · exact (Hw.get_set_ne _ 0 (by decide)).trans (Hw.get_set_same ..)
    · exact Hw.get_set_same ..
    · exact .trans (Hw.regsBut_set s.hw R.TRS_CTRL_QUIESCE 0 0 (by simp)) (Hw.regsBut_set _ R.TRS_STATUS_QUIESCED 0 0 (by simp))
  case quiesced =>
    exact ⟨_, execQuiesced_of_idle hask hframe hidle, Hw.get_set_same ..,
      State.frame_of_regsBut (Hw.regsBut_set s.hw R.TRS_STATUS_QUIESCED 0 1 (by simp))⟩

/-! ## What a zero-fill held lands (R172, R185) -/

/-- A module whose stall 0 is filled with zeros (SPD_STATUS.ZEROING reads 1 from reset on) and holds the end of one remote write. It
names arrival counter 64, which a stall's 64 counters do not have. -/
def heldPastCounters : State :=
  { hw := { dev := { stls := [(0, { held := [{ addr := 0, bytes := [], mark := 0, ctr := some 64, slot := 0xFFFF, plan := 0 }] })] } } }

/-- What was held raises counter 0 of stall 1, whose register follows those of stall 0. -/
theorem zeroFillDone_heldPastCounters_counts {t : State} (h : exec (.zeroFillDone 0) heldPastCounters = .next t) : t.hw.arr 1 0 = 1 := by
  obtain rfl := Host.Outcome.next.inj h
  decide

/-- Refutes O22: the counter that a held write names is free in the statement, and one from 64 on is a counter of another stall,
whose register is none of those that the end of the zero-fill may change. Every command of the model names one below 64. -/
theorem not_arrivalsAndWaits : ¬ Obligations.ArrivalsAndWaits := by
  unfold Obligations.ArrivalsAndWaits
  rintro ⟨-, -, -, -, -, hfill, -⟩
  obtain ⟨t, ht, -, -, -, -, -, hregs⟩ := hfill 0 heldPastCounters (by decide)
  have hsame : t.hw.arr 1 0 = heldPastCounters.hw.arr 1 0 := hregs.get (by decide)
  have hbefore : heldPastCounters.hw.arr 1 0 = 0 := by decide
  have hafter := zeroFillDone_heldPastCounters_counts ht
  omega

/-! ## The commit of a heavy image (R49) -/

/-- An image in force without pens, ports and tenants. -/
def bareTruss : Truss :=
  { tFrame := 1000, lap := 0, deviceId := 0xFFFF, pens := [], ports := [], adm := [], tenants := [], route := [], egress := [], yoke := none,
    eHdr := [], digest := [] }

/-- The pen number whose PEN_SERIAL has the key of MHB_UNAVAIL.COUNT of hub 0: register keys are 65,536 a field. -/
def strayPen : Nat := 65536 * (R.MHB_UNAVAIL_COUNT.id - R.PEN_SERIAL_SERIAL.id)

theorem penSerial_key_strayPen : R.PEN_SERIAL_SERIAL.key strayPen = R.MHB_UNAVAIL_COUNT.key 0 := by decide

/-- A heavy load with serial 1 in COMMIT, whose target pen is `strayPen`. -/
def strayLoad : Load :=
  { len := 512, src := 0, whole := false, pen := strayPen, heavy := true, refuseF := some 0, next := some bareTruss, serial := 1 }
def strayCommit : State :=
  { hw := { regs := [(R.TRS_STATUS_STATE.key 0, 5)], dev := { truss := some bareTruss, load := some strayLoad } } }

/-- After the serial the commit shows the hubs' counts of unavailable blocks, and hub 0 has none. -/
theorem penHeavyCommit_strayCommit_serial {t : State} (h : exec .penHeavyCommit strayCommit = .next t) :
    t.hw.get R.PEN_SERIAL_SERIAL strayPen = 0 := by
  obtain rfl := Host.Outcome.next.inj h
  rw [Hw.get, penSerial_key_strayPen]
  decide +kernel

/-- Refutes O32: the pen of a load is free in the statement, and one that no device has can share the register of its serial with
another register that the commit writes later. An image names a pen below 16. -/
theorem not_trussLoads : ¬ Obligations.TrussLoads := by
  unfold Obligations.TrussLoads
  rintro ⟨-, -, -, -, -, -, hheavy⟩
  obtain ⟨t, ht, -, -, -, -, -, hserial, -⟩ := hheavy strayCommit strayLoad bareTruss bareTruss rfl rfl rfl (by decide)
  have hone : t.hw.get R.PEN_SERIAL_SERIAL strayPen = 1 := hserial
  have hzero := penHeavyCommit_strayCommit_serial ht
  omega

end Sys2Proof.Machine
end

section
/-! SUPPORT. The frame statements (03_frames.md): an idle step, a fence while the sheepdog takes no records, the frame start of a pen
with nothing installed, and the digest of a plan. -/

namespace Sys2Proof.Machine

/-! ## A step on an empty queue (R53, R338) -/

theorem step_of_pending_nil {s : State} (hempty : s.pending = []) : step s = .next s.idle := by
  unfold step
  rw [hempty]

theorem State.idle_of_dark {s : State} (hdark : s.hw.mgt.phase = .dark) : s.idle = s := by
  unfold State.idle
  rw [hdark]

theorem State.idle_of_lit {s : State} (hlit : s.hw.mgt.phase ≠ .dark) :
    s.idle = { s with hw := { s.hw with clk := { s.hw.clk with now := s.hw.clk.now + 1 } } } := by
  unfold State.idle
  split
  next hdark => exact absurd hdark hlit
  next => rfl

/-- Settles O2: with no command waiting a step is the idle cycle, which a dark module does not count. -/
theorem stepIdlesOnEmptyQueue : Obligations.StepIdlesOnEmptyQueue := by
  unfold Obligations.StepIdlesOnEmptyQueue
  intro s hempty
  rw [step_of_pending_nil hempty]
  by_cases hdark : s.hw.mgt.phase = .dark
  · rw [if_pos hdark, State.idle_of_dark hdark]
  · rw [if_neg hdark, State.idle_of_lit hdark]

/-! ## A pen with nothing in it -/

/-- A pen descriptor without stalls, memory and plans. -/
def barePen : PenDesc :=
  { kvPolicy := 0, planMask := 0, saveRange := 0, ctxMax := 0, quads := 0, portMask := 0, hubShare := 0, hbm := [], loft := [], planAbi := 1,
    raw := [] }

/-- An image in force with pen 0 alone. -/
def onePenTruss : Truss := { bareTruss with pens := [(0, barePen)] }

/-! ## A fence while the sheepdog takes no records (R342, R348) -/

/-- A running module that the host reaches and whose sheepdog, which has taken one record, takes none now. -/
def sheepdogDown : State :=
  { hw := { regs := [(R.ERR_LOG_SEQ_NEWEST.key 0, 1), (R.HIF_PORT_P0_UP.key 0, 1)]
            dev := { truss := some onePenTruss }
            mgt := { phase := .run, sdgUp := false } } }

/-- The fence's record waits in its die's buffer: no record is newer in the log, and the pen shows no LOG_SEQ yet. -/
theorem hostFence_sheepdogDown_logSeq {t : State} (h : exec (.hostFence 0) sheepdogDown = .next t) :
    t.hw.get R.ERR_PEN_LAST_LOG_SEQ 0 = 0 ∧ t.hw.get R.ERR_LOG_SEQ_NEWEST 0 = 1 := by
  obtain rfl := Host.Outcome.next.inj h
  decide

/-- Refutes O40: a host fence shows the newest LOG_SEQ only where the sheepdog takes the fence's record at once. While it takes none,
the record waits in its die's buffer, and ERR_PEN_LAST stays as it was. -/
theorem not_fencesStart : ¬ Obligations.FencesStart := by
  unfold Obligations.FencesStart
  rintro ⟨hfence, -⟩
  obtain ⟨t, ht, -, -, -, hseq, -⟩ := hfence 0 sheepdogDown (by decide) (by decide) (by decide)
  obtain ⟨hlast, hnewest⟩ := hostFence_sheepdogDown_logSeq ht
  have hshown : t.hw.get R.ERR_PEN_LAST_LOG_SEQ 0 = t.hw.get R.ERR_LOG_SEQ_NEWEST 0 % 2 ^ 32 := hseq
  omega

/-! ## The frame start of a pen with nothing installed (R53, R139) -/

/-- A running module with its tick and an empty pen 0, whose GEN_LEDGER.USED reads 1. -/
def usedLedger : State :=
  { hw := { clk := { running := true }
            regs := [(R.GEN_LEDGER_USED.key 0, 1)]
            dev := { truss := some onePenTruss }
            mgt := { phase := .run } } }

/-- The frame start empties the binding ledger of the pen. -/
theorem frameStart_usedLedger_used {t : State} (h : exec .frameStart usedLedger = .next t) : t.hw.get R.GEN_LEDGER_USED 0 = 0 := by
  obtain rfl := Host.Outcome.next.inj h
  decide +kernel

/-- Refutes O56: a frame start empties the binding ledger of each present pen (R139) and sets its GEN_LEDGER.USED to 0, and that
register is none of those that the statement lets the frame start of a pen with nothing installed change. -/
theorem not_framesAndBoundaries : ¬ Obligations.FramesAndBoundaries := by
  unfold Obligations.FramesAndBoundaries
  rintro ⟨-, hidle, -⟩
  obtain ⟨t, ht, -, -, -, -, -, -, -, -, -, -, -, -, -, -, -, -, hregs⟩ :=
    hidle usedLedger 0 onePenTruss (by decide) rfl (by decide) (by decide) rfl rfl rfl (by decide) rfl
  have hsame : t.hw.get R.GEN_LEDGER_USED 0 = usedLedger.hw.get R.GEN_LEDGER_USED 0 := hregs _ _ (by decide)
  have hbefore : usedLedger.hw.get R.GEN_LEDGER_USED 0 = 1 := by decide
  have hafter := frameStart_usedLedger_used ht
  omega

/-! ## The digest of a plan (R58, R171) -/

/-- An address above the trough. The model counts a corrected bit error of a scratchpad word there for stall `3 * 65536`, and register
keys are 65,536 a field. -/
def strayAddr : Nat := spdBase + 3 * 65536 * spdSlot

theorem spdEccCe_key_strayAddr : R.SPD_ECC_CE.key ((strayAddr - spdBase) / spdSlot) = R.SPD_TAG_SEL_SLOT.key 0 := by decide

/-- An installation in DIGEST of one byte at `strayAddr`, which lies in a word with a single bit error. -/
def strayInst : Inst := { slot := 0, src := 0, dst := strayAddr, len := 1 }
def strayDigest : State :=
  { hw := { regs := [(R.FSQ_PLAN_STATUS_STATE.key 0, 2)]
            dev := { pens := [(0, { inst := some strayInst })], softW := [(strayAddr / 8, 1)] } } }

/-- The bit error met by the digest's read is counted at the key of SPD_TAG_SEL.SLOT of stall 0. -/
theorem planDigestDone_strayDigest_counts {t : State} (h : exec (.planDigestDone 0) strayDigest = .next t) :
    t.hw.get R.SPD_TAG_SEL_SLOT 0 = 1 := by
  obtain rfl := Host.Outcome.next.inj h
  rw [Hw.get, ← spdEccCe_key_strayAddr]
  decide +kernel

/-- Refutes O57: the place of an installation is free in the statement, and a read of one that lies above every scratchpad can count a
bit error in a register outside those of memory. PLAN_START takes only a place in the pen's HBM. -/
theorem not_swapsAndPlans : ¬ Obligations.SwapsAndPlans := by
  unfold Obligations.SwapsAndPlans
  rintro ⟨-, -, -, -, -, -, -, -, hdigest, -⟩
  obtain ⟨t, ht, -, -, -, -, hregs⟩ := hdigest 0 strayDigest strayInst (by decide) (by decide)
  have hsame : t.hw.get R.SPD_TAG_SEL_SLOT 0 = strayDigest.hw.get R.SPD_TAG_SEL_SLOT 0 := hregs _ _ (by decide)
  have hbefore : strayDigest.hw.get R.SPD_TAG_SEL_SLOT 0 = 0 := by decide
  have hcounted := planDigestDone_strayDigest_counts ht
  omega

end Sys2Proof.Machine
end

section
/-! SUPPORT. The statements of log numbers, formats and generators (05_lns_formats_outliers.md): the product of logarithmic numbers, and
what the commands of a stall's engines count of the rows they read. -/

namespace Sys2Proof.Machine

/-! ## The product of logarithmic numbers (R114 to R117) -/

theorem Lns.mul_of_isZero {a b : Lns} (h : a.isZero = true ∨ b.isZero = true) : a.mul b = (Lns.zero, {}) :=
  if_pos ((Bool.or_eq_true _ _).mpr h)

theorem Lns.mul_of_not_isZero {a b : Lns} (ha : a.isZero = false) (hb : b.isZero = false) :
    a.mul b = Lns.fit (a.neg != b.neg) (a.l + b.l) := by
  simp [Lns.mul, ha, hb]

theorem Lns.fit_of_inRange {neg : Bool} {l : Int} (hlow : lnsMin < l) (hhigh : l ≤ lnsMax) : Lns.fit neg l = (⟨neg, l⟩, {}) := by
  unfold Lns.fit
  rw [if_neg (Int.not_lt.mpr hhigh), if_neg (Int.not_le.mpr hlow)]

/-- Within the LNS24 range a product is exact and raises no event. -/
theorem Lns.mul_of_inRange {a b : Lns} (ha : a.isZero = false) (hb : b.isZero = false) (hlow : lnsMin < a.l + b.l)
    (hhigh : a.l + b.l ≤ lnsMax) : a.mul b = (⟨xor a.neg b.neg, a.l + b.l⟩, {}) := by
  rw [Lns.mul_of_not_isZero ha hb]
  exact Lns.fit_of_inRange hlow hhigh

/-- The low 15 bits of a word as `signed` reads them. -/
theorem signed_toNat_eq_toInt (v : BitVec 16) : signed 15 v.toNat = (v.setWidth 15).toInt := by
  rw [BitVec.toInt_eq_toNat_cond, BitVec.toNat_setWidth, signed]
  split <;> split <;> omega

/-- A word that is not zero is its sign bit and its low 15 bits in units of 2^-9. -/
theorem Lns.of16_of_not_isZero {v : BitVec 16} (hv : (Lns.of16 v.toNat).isZero = false) :
    Lns.of16 v.toNat = ⟨v.getLsbD 15, (v.setWidth 15).toInt * 64⟩ := by
  unfold Lns.of16 at hv ⊢
  rw [signed_toNat_eq_toInt] at hv ⊢
  dsimp only at hv ⊢
  split at hv
  next => exact absurd hv (by decide)
  next hne => exact if_neg hne

/-- Two logarithms of 15 bits have a sum well within the LNS24 range. -/
theorem lns16_sum_inRange (v w : BitVec 15) : lnsMin < v.toInt * 64 + w.toInt * 64 ∧ v.toInt * 64 + w.toInt * 64 ≤ lnsMax := by
  have hvlow := BitVec.le_toInt v
  have hvhigh := BitVec.toInt_lt (x := v)
  have hwlow := BitVec.le_toInt w
  have hwhigh := BitVec.toInt_lt (x := w)
  unfold lnsMin lnsMax
  omega

/-- Settles O10: the sum of two LNS16 logarithms needs one bit more than they have, and LNS24 has two more above the point. -/
theorem logProduct : Obligations.LogProduct := by
  unfold Obligations.LogProduct
  refine ⟨fun _ _ => Lns.mul_of_isZero, fun _ _ => Lns.mul_of_inRange, fun v w hv hw => ?_⟩
  obtain ⟨hlow, hhigh⟩ := lns16_sum_inRange (v.setWidth 15) (w.setWidth 15)
  have hsum : ∀ x y : Int, x * 64 + y * 64 = 64 * (x + y) := by omega
  have hveq := Lns.of16_of_not_isZero hv
  have hweq := Lns.of16_of_not_isZero hw
  rw [hveq] at hv ⊢
  rw [hweq] at hw ⊢
  rw [Lns.mul_of_inRange hv hw hlow hhigh, hsum]

/-! ## A stall in service -/

/-- An image in force whose pen 0 holds stalls 0 to 3. -/
def oneQuadTruss : Truss := { bareTruss with pens := [(0, { barePen with quads := 1 })] }

/-- A command issued to an engine of stall 0 for task 0 of frame 0, and its place in pen 0. -/
def firstIssue : Issue := { frame := 0, task := 0, pos := none, u0 := false }
def firstPlace (eng : Nat) : Cx := ⟨0, 0, eng, 0, 0, 0, none, false⟩

/-! ## A scratchpad row that the model takes for a loft line -/

/-- A running module with stall 0 in pen 0, whose engine `eng` has region 0 at the start of the scratchpad. There is 4 in
HIF_MODULE_ID.LOFT_TIB, so that the loft's populated run covers the scratchpads, and a corrected bit error in the first row. -/
def loftOverScratchpad (eng : Nat) : State :=
  { hw := { regs := [(R.HIF_MODULE_ID_LOFT_TIB.key 0, 4), (R.SPD_STATUS_ZEROING.key 0, 0)]
            dev := { truss := some oneQuadTruss, soft := [(spdAddr 0 / 64, 1)],
                     stls := [(0, { regions := [(regionKey eng 0, [(0, 4096)])] })] }
            mgt := { phase := .run } } }

/-- A command whose frame leaves out the loft's count of corrected errors leaves it at 0. -/
theorem loftOverScratchpad_regsBut_count {ks : List Nat} {eng : Nat} {t : State} (hregs : Hw.RegsBut ks (loftOverScratchpad eng).hw t.hw)
    (hout : R.MHB_LOFT_ECC_CE.key 0 ∉ ks) : t.hw.get R.MHB_LOFT_ECC_CE 0 = 0 := by
  have hbefore : (loftOverScratchpad 0).hw.get R.MHB_LOFT_ECC_CE 0 = 0 := by decide
  exact (hregs.get hout).trans hbefore

/-- TERNARISE of five latent values at offset 0 into the byte at offset 64 (Table 8.7). -/
def ternariseFirstRow : Bytes :=
  [0x48#8, 0#8, 0#8, 0#8] ++ leBytes 4 1 ++ leBytes 4 0 ++ leBytes 4 64 ++ zeros 4 ++ leBytes 4 400 ++ leBytes 2 0xFFFF ++ leBytes 2 0xFFFF ++
    zeros 36

theorem ternarise_loftOverScratchpad_counts {t : State} (h : exec (.ternarise 0 firstIssue ternariseFirstRow) (loftOverScratchpad 4) = .next t) :
    t.hw.get R.MHB_LOFT_ECC_CE 0 = 1 := by
  obtain rfl := Host.Outcome.next.inj h
  decide +kernel

/-- Refutes O17: LOFT_TIB is free in the statement, and from 4 on the model takes a scratchpad row for a loft line, so that a TERNARISE
that reads a row with a bit error advances MHB_LOFT_ECC_CE, which is none of its registers. The fuses give 1 or 2. -/
theorem not_vectorAndRoutingCommands : ¬ Obligations.VectorAndRoutingCommands := by
  unfold Obligations.VectorAndRoutingCommands
  rintro ⟨-, -, -, hternarise⟩
  obtain ⟨t, ht, -, -, -, -, -, hregs⟩ := hternarise 0 firstIssue ternariseFirstRow (loftOverScratchpad 4) (firstPlace 4) 0 0
    (by decide) (by decide) (by decide) (by decide) (by decide)
  have hsame := loftOverScratchpad_regsBut_count hregs (by decide)
  have hcounted := ternarise_loftOverScratchpad_counts ht
  omega

/-- GEN_BIND of generator 0 for the TDA, with the key at offset 0 and the counter range from 0 to 1 (R138). -/
def genBindFirstRow : Bytes := [0x44#8] ++ zeros 11 ++ leBytes 4 1 ++ leBytes 8 0 ++ leBytes 4 400 ++ zeros 36

theorem genBind_loftOverScratchpad_counts {t : State} (h : exec (.genBind 0 firstIssue genBindFirstRow) (loftOverScratchpad 4) = .next t) :
    t.hw.get R.MHB_LOFT_ECC_CE 0 = 1 := by
  obtain rfl := Host.Outcome.next.inj h
  decide +kernel

/-- Refutes O19: with LOFT_TIB free, as in the refutation of O17, the read of the key advances MHB_LOFT_ECC_CE, which is none of the
registers of a binding. -/
theorem not_generatorBinding : ¬ Obligations.GeneratorBinding := by
  unfold Obligations.GeneratorBinding
  rintro ⟨hbind, -⟩
  obtain ⟨t, ht, -, -, -, -, -, -, -, -, hregs⟩ := hbind 0 firstIssue genBindFirstRow (loftOverScratchpad 4) (firstPlace 4) 0 0
    (by decide) (by decide) (fun _ hbound => nomatch hbound) (by decide) (by decide) (by decide) (by decide) (by decide)
  have hsame := loftOverScratchpad_regsBut_count hregs (by decide)
  have hcounted := genBind_loftOverScratchpad_counts ht
  omega

/-- SAMPLE of one logit at offset 0, with step-table entry, mask, record and header in the next rows (Table 9.11). -/
def sampleFirstRow : Bytes :=
  [0x61#8] ++ zeros 3 ++ leBytes 4 1 ++ zeros 4 ++ leBytes 4 0 ++ leBytes 4 64 ++ leBytes 4 128 ++ leBytes 4 192 ++ leBytes 4 256 ++
    leBytes 4 400 ++ leBytes 2 0xFFFF ++ leBytes 2 0xFFFF ++ leBytes 2 0xFFFF ++ zeros 22

theorem sample_loftOverScratchpad_counts {t : State} (h : exec (.sample 0 firstIssue sampleFirstRow) (loftOverScratchpad 5) = .next t) :
    t.hw.get R.MHB_LOFT_ECC_CE 0 = 1 := by
  obtain rfl := Host.Outcome.next.inj h
  decide +kernel

/-- Refutes O21: with LOFT_TIB free, as in the refutation of O17, the read of the logits advances MHB_LOFT_ECC_CE, even where the entry
asks for no sampling. -/
theorem not_sampling : ¬ Obligations.Sampling := by
  unfold Obligations.Sampling
  rintro ⟨hoff, -⟩
  obtain ⟨t, ht, -, -, -, -, -, hregs⟩ := hoff 0 firstIssue sampleFirstRow (loftOverScratchpad 5) (firstPlace 5)
    (by decide) (by decide) (by decide) (by decide)
  have hsame := loftOverScratchpad_regsBut_count hregs (by decide)
  have hcounted := sample_loftOverScratchpad_counts ht
  omega

/-! ## A context's record above every scratchpad (R140) -/

/-- A running module with stall 0 in pen 0, whose generator 0 is bound from context 0. The record of that context lies at `strayAddr`, in
a word with a single bit error. -/
def strayRecord : State :=
  { hw := { regs := [(R.SPD_STATUS_ZEROING.key 0, 0)]
            dev := { truss := some oneQuadTruss, softW := [(strayAddr / 8, 1)],
                     pens := [(0, { ctxs := [(0, { res := .idle, addr := strayAddr })] })],
                     stls := [(0, { gens := [(0, ⟨0, false, true, 0, [], 0, 1, 0, 0⟩)] })] }
            mgt := { phase := .run } } }

/-- The bit error met by the header's read is counted at the key of SPD_TAG_SEL.SLOT of stall 0. -/
theorem genUnbind_strayRecord_counts {t : State} (h : exec (.genUnbind 0 firstIssue 0) strayRecord = .next t) :
    t.hw.get R.SPD_TAG_SEL_SLOT 0 = 1 := by
  obtain rfl := Host.Outcome.next.inj h
  rw [Hw.get, ← spdEccCe_key_strayAddr]
  decide +kernel

/-- Refutes O20: the place of a context's record is free in the statement, and the read of a header that lies above every scratchpad can
count a bit error in a register outside those of memory, ports and generators. -/
theorem not_generatorRelease : ¬ Obligations.GeneratorRelease := by
  unfold Obligations.GeneratorRelease
  rintro ⟨-, hctx, -⟩
  obtain ⟨t, ht, -, -, -, -, -, -, hflds⟩ := hctx 0 firstIssue 0 strayRecord (firstPlace 4) ⟨0, false, true, 0, [], 0, 1, 0, 0⟩
    (by decide) (by decide) (by decide) (by decide) (by decide)
  have hsame : t.hw.get R.SPD_TAG_SEL_SLOT 0 = strayRecord.hw.get R.SPD_TAG_SEL_SLOT 0 := hflds _ _ (by decide)
  have hbefore : strayRecord.hw.get R.SPD_TAG_SEL_SLOT 0 = 0 := by decide
  have hcounted := genUnbind_strayRecord_counts ht
  omega

end Sys2Proof.Machine
end

section
/-! SUPPORT. The statement of the scarf and compression engines (06_sparsity.md): the arrival that ends a CDE_CMD, and the wait it takes. -/

namespace Sys2Proof.Machine

/-! ## The arrival at the end of a CDE_CMD (R185, R186, R221) -/

/-- The counter number that has, in stall 0, the key of MHB_STATUS.THR_LEVEL of hub 0: register keys are 65,536 a field. -/
def strayCtr : Nat := 65536

theorem spdArrCount_key_strayCtr : R.SPD_ARR_COUNT.key strayCtr = R.MHB_STATUS_THR_LEVEL.key 0 := by decide

/-- A running module with stall 0 in pen 0, whose VPU waits to consume one arrival at `strayCtr`. Hub 0 is at thermal level 1. -/
def strayWait : State :=
  { hw := { regs := [(R.MHB_STATUS_THR_LEVEL.key 0, 1), (R.SPD_STATUS_ZEROING.key 0, 0)]
            dev := { truss := some oneQuadTruss, stls := [(0, { waits := [⟨4, 0, 0, strayCtr, 1, true, none⟩] })] }
            mgt := { phase := .run } } }

/-- KV_DEC of the block at the start of scratchpad 0 into the 64 bytes behind its row, with an arrival at counter 0 (Table 8.4). -/
def kvDecFirstRow : Bytes :=
  [0x52#8, 7#8, 0#8, 0#8] ++ leBytes 2 0xFFFF ++ leBytes 2 0xFFFF ++ leBytes 8 (spdAddr 0) ++ leBytes 8 (spdAddr 0 + 64) ++ leBytes 4 0 ++
    leBytes 4 1 ++ leBytes 4 0 ++ leBytes 4 2000 ++ zeros 24

/-- The extents of that command: a KV-45 block and its 32 values. -/
def kvDecFirstRowExts : List (Nat × Nat) := [(spdAddr 0, 18), (spdAddr 0 + 64, 64)]

theorem cdeCheck_kvDecFirstRow :
    Run.cdeCheck { hw := strayWait.hw, mem := strayWait.mem } 0 (CdeCmd.of kvDecFirstRow) kvDecFirstRow = (false, kvDecFirstRowExts) := by
  decide +kernel

/-- The arrival at the command's end takes the wait, which subtracts its target from the register that its counter names. -/
theorem cdeCmd_strayWait_thrLevel {t : State} (h : exec (.cdeCmd 0 0 firstIssue kvDecFirstRow) strayWait = .next t) :
    t.hw.get R.MHB_STATUS_THR_LEVEL 0 = 0 := by
  obtain rfl := Host.Outcome.next.inj h
  rw [Hw.get, ← spdArrCount_key_strayCtr]
  decide +kernel

/-- Refutes O50: the waits of the destination's stall are free in the statement, and one that names a counter beyond the 64 of a stall
changes a register that is none of those of memory, slots, ports and CDE when the command's arrival takes it. WAIT_ARRIVALS takes no such
counter (R186). -/
theorem not_scarfAndCompressionEngines : ¬ Obligations.ScarfAndCompressionEngines := by
  unfold Obligations.ScarfAndCompressionEngines
  rintro ⟨-, -, hcde, -⟩
  obtain ⟨t, ht, -, -, -, -, -, hflds⟩ := hcde 0 0 firstIssue kvDecFirstRow strayWait ⟨0, 0, 7, 0, 0, 0, none⟩ kvDecFirstRowExts
    (by decide) cdeCheck_kvDecFirstRow (by decide) (by decide)
  have hsame : t.hw.get R.MHB_STATUS_THR_LEVEL 0 = strayWait.hw.get R.MHB_STATUS_THR_LEVEL 0 := hflds _ _ (by decide)
  have hbefore : strayWait.hw.get R.MHB_STATUS_THR_LEVEL 0 = 1 := by decide
  have htaken := cdeCmd_strayWait_thrLevel ht
  omega

end Sys2Proof.Machine
end

section
/-! SUPPORT. The statements of the DMA port, the transport and peg barriers (07_scratchpad.md): a row that counts as a loft line, a
message that lands in two stalls, and an ENABLE field wider than one bit. -/

namespace Sys2Proof.Machine

/-! ## A move and an emission from a scratchpad row that the model takes for a loft line (R187, R244) -/

/-- DMA_MOVE of three bytes from offset 0 to offset 1,024 of the stall's own scratchpad, in region 0 and without slots (Table 7.5). -/
def moveFirstRow : Bytes :=
  [0x12#8] ++ zeros 15 ++ leBytes 8 1024 ++ leBytes 4 3 ++ leBytes 2 1 ++ leBytes 2 1 ++ zeros 28 ++ leBytes 4 3000 ++ leBytes 2 0xFFFF ++
    leBytes 2 0xFFFF ++ leBytes 2 0xFFFF ++ zeros 58

theorem dmaMove_loftOverScratchpad_counts {t : State} (h : exec (.dmaMove 0 firstIssue moveFirstRow) (loftOverScratchpad 6) = .next t) :
    t.hw.get R.MHB_LOFT_ECC_CE 0 = 1 := by
  obtain rfl := Host.Outcome.next.inj h
  decide +kernel

/-- Refutes O23: with LOFT_TIB free, as in the refutation of O17, the read of the source row advances MHB_LOFT_ECC_CE, which is none of
the registers of a move within the stall. -/
theorem not_dmaMoves : ¬ Obligations.DmaMoves := by
  unfold Obligations.DmaMoves
  rintro ⟨-, hone, -⟩
  obtain ⟨t, ht, -, -, hregs⟩ := hone 0 firstIssue moveFirstRow (loftOverScratchpad 6) (firstPlace 6) 0
    (by decide) (by decide +kernel) (by decide) (by decide +kernel) (by decide) (by decide) (by decide) (by decide) (by decide)
  have hsame := loftOverScratchpad_regsBut_count hregs (by decide)
  have hcounted := dmaMove_loftOverScratchpad_counts ht
  omega

/-- CRIB_EMIT for position 0 of the 64 bytes at offset 0, without a sampler record and without slots (R244). -/
def emitFirstRow : Bytes :=
  [0x13#8] ++ zeros 3 ++ leBytes 4 0xFFFFFFFF ++ leBytes 4 0 ++ leBytes 4 64 ++ leBytes 4 0 ++ leBytes 2 0xFFFF ++ leBytes 2 0xFFFF ++ zeros 40

/-- A sequence bound at position 0 of frame 0 whose entry names no output room. -/
def roomlessSeq : Bound := { tenant := 0, seq := 0, idx := 0, pos := 0, frame := 0, cls := 0, slot := 0, ctx := 0, entry := [], x := 0, pos0 := 0 }

/-- The module of `loftOverScratchpad` with that sequence bound in pen 0. -/
def loftOverBoundSeq : State :=
  { loftOverScratchpad 6 with hw := (loftOverScratchpad 6).hw.modPen 0 fun ps => { ps with bound := [roomlessSeq] } }

theorem cribEmit_loftOverBoundSeq_counts {t : State} (h : exec (.cribEmit 0 firstIssue emitFirstRow) loftOverBoundSeq = .next t) :
    t.hw.get R.MHB_LOFT_ECC_CE 0 = 1 := by
  obtain rfl := Host.Outcome.next.inj h
  decide +kernel

/-- Refutes O24: with LOFT_TIB free, as in the refutation of O17, the read of the data advances MHB_LOFT_ECC_CE, which is none of the
registers of a command of the DMA port. -/
theorem not_cribEmission : ¬ Obligations.CribEmission := by
  unfold Obligations.CribEmission
  rintro ⟨hemit, -⟩
  obtain ⟨t, ht, -, -, -, -, -, -, hregs⟩ := hemit 0 firstIssue emitFirstRow loftOverBoundSeq (firstPlace 6) roomlessSeq 0 0
    (by decide) (by decide) (by decide) (by decide) (by decide) (by decide) (by decide) (by decide) (by decide) (by decide) (by decide)
  have hsame := loftOverScratchpad_regsBut_count (eng := 6) hregs (by decide)
  have hcounted := cribEmit_loftOverBoundSeq_counts ht
  omega

/-! ## A message whose packets land in two stalls (R281) -/

/-- The second and last packet of message 3 of device 6, one byte for stall 0. -/
def lastPacket : Pkt :=
  { typ := 1, tc := 2, flags := 1, src := 6, dst := 5, job := 77, psn := 1, msg := 3, idx := 1, npkt := 2, addr := spdAddr 0, payload := [1#8] }

/-- A running module, device 5, with link 0 UP and stalls 0 to 3 in pen 0. The first packet of message 3 has landed in stall 1, so that
the message's arrival is stall 1's. -/
def messageOverStalls : State :=
  { hw := { regs := [(R.TRS_DEVICE_DEVICE_ID.key 0, 5), (R.SPD_STATUS_ZEROING.key 0, 0), (R.SPD_STATUS_ZEROING.key 1, 0),
                     (R.LNK_STATUS_STATE.key 0, 2), (R.ZLT_JOB_JOB_ID.key 0, 77)]
            dev := { truss := some oneQuadTruss, rxf := [(flowKey 6 2, { next := 1 })],
                     rxm := [{ src := 6, tc := 2, msg := 3, npkt := 2, got := [0], stall := some 1, ctr := some 0 }] }
            mgt := { phase := .run } } }

/-- The last packet lands in stall 0 and raises counter 0 of stall 1. -/
theorem zltDataRx_messageOverStalls_arr {t : State} (h : exec (.zltDataRx 0 ⟨lastPacket.bytes, {}⟩ false false) messageOverStalls = .next t) :
    t.hw.get R.SPD_ARR_COUNT 64 = 1 := by
  obtain rfl := Host.Outcome.next.inj h
  decide +kernel

/-- Refutes O27: a message's counter is that of the stall where its first packet landed. Where the last one lands in another stall, a
counter rises that is none of the registers of the stall landed in. -/
theorem not_transportPackets : ¬ Obligations.TransportPackets := by
  unfold Obligations.TransportPackets
  rintro ⟨hland, -⟩
  obtain ⟨t, ht, -, -, -, -, -, -, hregs⟩ := hland 0 lastPacket.bytes false false messageOverStalls lastPacket {} 0
    (by decide +kernel) (by decide) (by decide) (by decide +kernel) (by decide) (by decide) (by decide)
  have hsame : t.hw.get R.SPD_ARR_COUNT 64 = messageOverStalls.hw.get R.SPD_ARR_COUNT 64 := hregs.get (by decide)
  have hbefore : messageOverStalls.hw.get R.SPD_ARR_COUNT 64 = 0 := by decide
  have hraised := zltDataRx_messageOverStalls_arr ht
  omega

/-! ## An ENABLE field wider than one bit (R289) -/

/-- A running module that the host reaches, with 2 in PEG_GCFG.ENABLE of group 0. -/
def wideEnable : State := { hw := { regs := [(R.HIF_PORT_P0_UP.key 0, 1), (R.PEG_GCFG_ENABLE.key 0, 2)], mgt := { phase := .run } } }

/-- The reset writes the fields as they are with RESET = 1, and the carry of ENABLE + 2 * RESET = 4 leaves both of these bits 0: the
group is disabled. -/
theorem pegReset_wideEnable_state {t : State} (h : exec (.pegReset 0) wideEnable = .next t) : t.hw.get R.PEG_GSTATUS_STATE 0 = 0 := by
  obtain rfl := Host.Outcome.next.inj h
  decide

/-- Refutes O28: the value of ENABLE is free in the statement, and a group whose ENABLE holds 2 is not ACTIVE after PEG_RESET. No write
stores more than the field's one bit. -/
theorem not_putsAndPegs : ¬ Obligations.PutsAndPegs := by
  unfold Obligations.PutsAndPegs
  rintro ⟨-, -, -, -, -, -, -, -, hreset, -⟩
  obtain ⟨t, ht, -, hactive, -⟩ := hreset 0 wideEnable (by decide) (by decide)
  have hdisabled := pegReset_wideEnable_state ht
  exact absurd (hactive.symm.trans hdisabled) (by decide)

end Sys2Proof.Machine
end

section
/-! SUPPORT. The statements of HBM, loft and their temperatures (08_memory_compression.md): the levels that samples give, the retirement
tables after a device reset, a header above every scratchpad, and the counts of a peg group. -/

namespace Sys2Proof.Machine

/-! ## Levels that samples give (R201, R331) -/

/-- The level whose entry temperature a sample of `t` reaches. -/
def entryLevel (t e1 e2 : Nat) : Nat := if e2 ≤ t then 2 else if e1 ≤ t then 1 else 0

theorem entryLevel_of_ge {t e1 e2 : Nat} (h : e2 ≤ t) : entryLevel t e1 e2 = 2 := if_pos h

theorem one_le_entryLevel {t e1 e2 : Nat} (h : e1 ≤ t) : 1 ≤ entryLevel t e1 e2 := by
  unfold entryLevel
  split <;> omega

theorem entryLevel_le_two (t e1 e2 : Nat) : entryLevel t e1 e2 ≤ 2 := by
  unfold entryLevel
  split
  · omega
  · split <;> omega

theorem entry_le_of_entryLevel {t e1 e2 : Nat} (h : 0 < entryLevel t e1 e2) : (if entryLevel t e1 e2 = 2 then e2 else e1) ≤ t := by
  unfold entryLevel at h ⊢
  split at h
  next h2 => simp [h2]
  next h2 =>
    split at h
    next h1 => simp [h2, h1]
    next => omega

section
variable (x : Therm) (t e1 e2 trip : Nat)

theorem Therm.sample_low1 : (x.sample t e1 e2 trip).low1 = if t + 3 < e1 then x.low1 + 1 else 0 := rfl

theorem Therm.sample_low2 : (x.sample t e1 e2 trip).low2 = if t + 3 < e2 then x.low2 + 1 else 0 := rfl

/-- The level after a sample: raised to the one the sample enters, or left after ten low samples in a row, or kept. -/
theorem Therm.sample_level : (x.sample t e1 e2 trip).level =
    if x.level < entryLevel t e1 e2 then entryLevel t e1 e2
    else if x.level = 2 ∧ 10 ≤ (x.sample t e1 e2 trip).low2 then (if 10 ≤ (x.sample t e1 e2 trip).low1 then 0 else 1)
    else if x.level = 1 ∧ 10 ≤ (x.sample t e1 e2 trip).low1 then 0 else x.level := rfl

theorem Therm.sample_level_le_two {x : Therm} (hx : x.level ≤ 2) : (x.sample t e1 e2 trip).level ≤ 2 := by
  have hentry := entryLevel_le_two t e1 e2
  rw [Therm.sample_level]
  repeat' split
  all_goals omega

/-- A sample that reaches the entry of level 1 ends the run of samples below it. -/
theorem Therm.sample_low1_of_ge {t e1 : Nat} (h : e1 ≤ t + 3) : (x.sample t e1 e2 trip).low1 = 0 := by
  rw [Therm.sample_low1, if_neg (by omega)]

theorem Therm.sample_low2_of_ge {t e2 : Nat} (h : e2 ≤ t + 3) : (x.sample t e1 e2 trip).low2 = 0 := by
  rw [Therm.sample_low2, if_neg (by omega)]

/-- No level is left below the one that the sample enters: such a sample has just ended the run that would leave it. -/
theorem Therm.entryLevel_le_sample_level : entryLevel t e1 e2 ≤ (x.sample t e1 e2 trip).level := by
  rw [Therm.sample_level]
  by_cases h2 : e2 ≤ t
  · rw [entryLevel_of_ge h2, Therm.sample_low2_of_ge x e1 trip (by omega)]
    repeat' split
    all_goals omega
  · by_cases h1 : e1 ≤ t
    · have hentry : entryLevel t e1 e2 = 1 := by rw [entryLevel, if_neg h2, if_pos h1]
      rw [hentry, Therm.sample_low1_of_ge x e2 trip (by omega)]
      repeat' split
      all_goals omega
    · have hentry : entryLevel t e1 e2 = 0 := by rw [entryLevel, if_neg h2, if_neg h1]
      omega

/-- A level is raised only to the one that the sample enters. -/
theorem Therm.sample_level_of_raised (h : x.level < (x.sample t e1 e2 trip).level) : (x.sample t e1 e2 trip).level = entryLevel t e1 e2 := by
  rw [Therm.sample_level] at h ⊢
  split
  next => rfl
  next hkept =>
    rw [if_neg hkept] at h
    repeat' split at h
    all_goals omega

/-- A level is left only after ten samples in a row below it. -/
theorem Therm.ten_le_low_of_left (h : (x.sample t e1 e2 trip).level < x.level) :
    10 ≤ if x.level = 2 then (x.sample t e1 e2 trip).low2 else (x.sample t e1 e2 trip).low1 := by
  rw [Therm.sample_level] at h
  repeat' split at h
  next => omega
  next h2 _ => rw [if_pos h2.1]; exact h2.2
  next h2 _ => rw [if_pos h2.1]; exact h2.2
  next h1 => rw [if_neg (by omega)]; exact h1.2
  next => omega

end

/-- Settles O38: a sample raises a level to the one it enters, and ends the run of low samples that would leave that level. -/
theorem levelTracking : Obligations.LevelTracking := by
  unfold Obligations.LevelTracking
  intro x c e1 e2 trip _ hx
  have hentry := x.entryLevel_le_sample_level c e1 e2 trip
  refine ⟨fun hc => ?_, fun hc => Nat.le_trans (one_le_entryLevel hc) hentry, fun hup => ?_, x.ten_le_low_of_left c e1 e2 trip,
    fun hc => if_pos hc, fun hc => x.sample_low1_of_ge e2 trip hc⟩
  · rw [entryLevel_of_ge hc] at hentry
    exact Nat.le_antisymm (Therm.sample_level_le_two c e1 e2 trip hx) hentry
  · have hto := x.sample_level_of_raised c e1 e2 trip hup
    rw [hto] at hup ⊢
    exact entry_le_of_entryLevel (Nat.zero_lt_of_lt hup)

/-! ## The retirement tables after a device reset (R208) -/

/-- The fields of the entries of both kinds of retirement table. -/
def retFlds : List Fld := [R.MHB_RET_ENTRY_VALID, R.MHB_RET_ENTRY_PAGE, R.MHB_LOFT_RET_ENTRY_VALID, R.MHB_LOFT_RET_ENTRY_GRANULE]

/-- Every retirement table is cleared. -/
def Hw.RetCleared (s : Hw) : Prop := ∀ f ∈ retFlds, ∀ i, i < 65536 → s.get f i = 0

/-- An entry of a stack's table and one of the loft's read cleared. -/
theorem Hw.RetCleared.tables {s : Hw} (h : s.RetCleared) :
    (∀ i, i < 16 * 1024 → s.get R.MHB_RET_ENTRY_VALID i = 0 ∧ s.get R.MHB_RET_ENTRY_PAGE i = 0) ∧
      ∀ i, i < 4096 → s.get R.MHB_LOFT_RET_ENTRY_VALID i = 0 ∧ s.get R.MHB_LOFT_RET_ENTRY_GRANULE i = 0 :=
  ⟨fun i hi => ⟨h _ (by simp [retFlds]) i (by omega), h _ (by simp [retFlds]) i (by omega)⟩,
    fun i hi => ⟨h _ (by simp [retFlds]) i (by omega), h _ (by simp [retFlds]) i (by omega)⟩⟩

theorem Hw.RetCleared.of_regs {s t : Hw} (h : s.RetCleared) (hregs : t.regs = s.regs) : t.RetCleared := fun f hf i hi => by
  rw [Hw.get, hregs]
  exact h f hf i hi

/-- A write of a register of another field leaves the tables cleared. -/
theorem Hw.RetCleared.set {s : Hw} (h : s.RetCleared) (f : Fld) (v : Nat) (hf : ∀ g ∈ retFlds, g.id ≠ f.id) : (s.set f 0 v).RetCleared :=
  fun g hg i hi => (Hw.get_set_ne s v (Fld.key_ne (hf g hg) (by decide) hi)).trans (h g hg i hi)

theorem Hw.RetCleared.inc {s : Hw} (h : s.RetCleared) (f : Fld) (n : Nat) (hf : ∀ g ∈ retFlds, g.id ≠ f.id) : (s.inc f 0 n).RetCleared :=
  h.set f _ hf

theorem Tbl.get_filter_of_dropped {α : Type} (d : α) {k : Nat} {keep : Nat × α → Bool} (hk : ∀ v, keep (k, v) = false) (t : Tbl α) :
    Tbl.get d k (t.filter keep) = d := by
  induction t with
  | nil => rfl
  | cons x t ih =>
    rw [List.filter_cons]
    split
    next hx =>
      have hne : x.1 ≠ k := fun he => absurd hx (by rw [← he] at hk; simp [hk x.2])
      rw [Tbl.get, if_neg hne, ih]
    next => exact ih

/-- A register of a field that is not kept is at its reset value. -/
theorem Hw.get_resetFields_of_dropped (s : Hw) {keep : Nat → Bool} {f : Fld} {i : Nat} (hf : keep f.id = false) (hi : i < 65536) :
    (s.resetFields keep).get f i = f.reset := by
  have hid : f.key i / 65536 = f.id := by
    simp only [Fld.key]
    omega
  exact Tbl.get_filter_of_dropped _ (fun _ => by simp only [hid, hf]) s.regs

/-- No retirement table outlives a device reset. -/
theorem retFlds_dropped : ∀ f ∈ retFlds, keptId f.id = false ∧ f.reset = 0 := by decide

theorem Hw.resetFields_retCleared (s : Hw) : (s.resetFields keptId).RetCleared := fun f hf i hi => by
  obtain ⟨hdropped, hreset⟩ := retFlds_dropped f hf
  rw [Hw.get_resetFields_of_dropped s hdropped hi, hreset]

/-- The dies' reset clears the tables. -/
theorem Run.diesReset_retCleared (r : Run) : r.diesReset.hw.RetCleared := (Hw.resetFields_retCleared _).set _ _ (by decide)

theorem Hw.RetCleared.writeDump {s : Hw} (h : s.RetCleared) (d : Dump) : (s.writeDump d).RetCleared := by
  unfold Hw.writeDump Hw.showDumps
  dsimp only
  refine .set (.set (.set ?_ _ _ (by decide)) _ _ (by decide)) _ _ (by decide)
  split <;> exact h.of_regs rfl

theorem Hw.RetCleared.sdgDown {s : Hw} (h : s.RetCleared) : s.sdgDown.RetCleared := by
  have hs : ∀ m : Mgt, Hw.RetCleared { s with mgt := m } := fun m => h.of_regs rfl
  exact ((((((((hs _).set _ _ (by decide)).set _ _ (by decide)).set _ _ (by decide)).set _ _ (by decide)).set _ _ (by decide)).inc _ _
    (by decide)).set _ _ (by decide)).set _ _ (by decide)

theorem Hw.RetCleared.takePending {s : Hw} (h : s.RetCleared) : s.takePending.RetCleared := by
  unfold Hw.takePending
  split
  · exact Hw.RetCleared.sdgDown (s := s.flushLog) (h.of_regs rfl)
  · exact h

/-- A reset of powered dies, whatever its cause, is not absorbed. -/
theorem Hw.absorbs_of_diesUp {s : Hw} (hup : s.diesUp = true) (cause : Nat) : s.absorbs cause = false := by
  unfold Hw.diesUp at hup
  unfold Hw.absorbs
  cases hphase : s.mgt.phase <;> simp_all

theorem Hw.phase_ne_reset_of_diesUp {s : Hw} (hup : s.diesUp = true) : (s.mgt.phase == .reset) = false := by
  unfold Hw.diesUp at hup
  cases hphase : s.mgt.phase <;> simp_all

/-- A device reset of powered dies clears the tables: it resets the dies, and what follows writes the sheepdog's registers alone. -/
theorem Run.deviceReset_retCleared {r : Run} (hup : r.hw.diesUp = true) (cause : Nat) (noDump : Bool) :
    (r.deviceReset cause noDump).hw.RetCleared := by
  unfold Run.deviceReset
  simp only [Hw.absorbs_of_diesUp hup, Hw.phase_ne_reset_of_diesUp hup, Bool.false_eq_true, if_false, Bool.false_and, Bool.or_false]
  split
  · exact .takePending (.of_regs (Hw.RetCleared.writeDump (Run.diesReset_retCleared _) _) rfl)
  · split
    · exact (Run.diesReset_retCleared _).of_regs rfl
    · exact .takePending ((Run.diesReset_retCleared _).of_regs rfl)

/-- A device-fatal record is logged first, which leaves the dies their power. -/
theorem Run.deviceFatal_retCleared {r : Run} (hup : r.hw.diesUp = true) (e : Err) (a : LogArg) (cause : Nat) (noDump : Bool) :
    (r.deviceFatal e a cause noDump).hw.RetCleared := by
  unfold Run.deviceFatal
  rw [Hw.absorbs_of_diesUp hup, if_neg Bool.false_ne_true]
  refine Run.deviceReset_retCleared ?_ cause noDump
  rw [Run.on_hw]
  dsimp only
  have hlogged : (r.hw.log e { a with flags := a.flags ||| (if noDump then 0 else 2) }).diesUp = true := by
    rw [Hw.diesUp, Hw.log_mgt_phase]
    exact hup
  split <;> exact hlogged

theorem Hw.diesUp_of_hostUp {s : Hw} (hup : s.hostUp = true) : s.diesUp = true := by
  obtain ⟨hrun, -⟩ := Bool.and_eq_true_iff.mp hup
  rw [Hw.diesUp, hrun, Bool.true_or]

theorem Hw.diesUp_of_portUp {s : Hw} {port : Nat} (hup : s.portUp port = true) : s.diesUp = true := by
  obtain ⟨hrun, -⟩ := Bool.and_eq_true_iff.mp hup
  rw [Hw.diesUp, hrun, Bool.true_or]

theorem Hw.lit_of_diesUp {s : Hw} (hup : s.diesUp = true) : s.lit = true := by
  unfold Hw.diesUp at hup
  unfold Hw.lit
  cases hphase : s.mgt.phase <;> simp_all

/-- Of the dies of Table 13.2 the first 24 are the CT dies and the last is MG. -/
theorem dieSource_fst_ne_six {d : Nat} (hd : 24 ≤ d) : (dieSource d).1 ≠ 6 := by
  unfold dieSource
  repeat' split
  all_goals omega

theorem dieSource_fst_ne_five {d : Nat} (hd : d < 39) : (dieSource d).1 ≠ 5 := by
  unfold dieSource
  repeat' split
  all_goals omega

/-- The command answers a next state with every retirement table cleared. -/
def ClearsRet (o : Host.Outcome State Fault Refusal) : Prop := ∃ t, o = .next t ∧ t.hw.RetCleared

theorem ClearsRet.tables {o : Host.Outcome State Fault Refusal} (h : ClearsRet o) : ∃ t, o = .next t ∧
    (∀ i, i < 16 * 1024 → t.hw.get R.MHB_RET_ENTRY_VALID i = 0 ∧ t.hw.get R.MHB_RET_ENTRY_PAGE i = 0) ∧
      ∀ i, i < 4096 → t.hw.get R.MHB_LOFT_RET_ENTRY_VALID i = 0 ∧ t.hw.get R.MHB_LOFT_RET_ENTRY_GRANULE i = 0 := by
  obtain ⟨t, ht, hcleared⟩ := h
  exact ⟨t, ht, hcleared.tables⟩

theorem State.run_clearsRet (s : State) {f : Run → Run} (h : (f ⟨s.hw, s.mem, []⟩).hw.RetCleared) : ClearsRet (s.run f) := by
  obtain ⟨t, ht, -, hhw, -⟩ := State.run_cases s f
  exact ⟨t, ht, hhw ▸ h⟩

section
variable {s : State}

theorem execSagReset_clearsRet (hup : s.hw.diesUp = true) : ClearsRet (execSagReset s) := by
  refine s.run_clearsRet ?_
  rw [if_pos (Hw.lit_of_diesUp hup)]
  exact (Run.deviceFatal_retCleared hup _ _ _ _).of_regs rfl

theorem execOvReset_clearsRet (hup : s.hw.diesUp = true) : ClearsRet (execOvReset s) := by
  refine s.run_clearsRet ?_
  rw [if_pos (Hw.lit_of_diesUp hup)]
  exact (Run.deviceFatal_retCleared hup _ _ _ _).of_regs rfl

theorem execPowerOvercurrent_clearsRet (hup : s.hw.diesUp = true) (hclamp : s.hw.is R.PWR_STATUS_CLAMP = true) {t0 : Nat}
    (hat : s.hw.mgt.pwr.clampAt = some t0) : ClearsRet (execPowerOvercurrent s) := by
  refine s.run_clearsRet ?_
  simp only [hclamp, hup, hat, Bool.and_self]
  exact ((Run.deviceFatal_retCleared (r := (Run.mk s.hw s.mem []).on fun h => h.reach (t0 + 1000000)) hup _ _ _ _).of_regs rfl).set _ _
    (by decide)

theorem execThermalCritical_clearsRet (hup : s.hw.diesUp = true) (u : ThermUnit) : ClearsRet (execThermalCritical u s) :=
  s.run_clearsRet (Run.deviceFatal_retCleared hup _ _ _ _)

theorem execFabricUe_clearsRet (hup : s.hw.diesUp = true) {d : Fin 40} (hd : 24 ≤ d.val) : ClearsRet (execFabricUe d s) := by
  refine s.run_clearsRet ?_
  simp only [hup, dieSource_fst_ne_six hd, Bool.not_true, Bool.false_eq_true, if_false]
  exact Run.deviceFatal_retCleared hup _ _ _ _

theorem execDieFatal_clearsRet (hup : s.hw.diesUp = true) {d : Fin 40} (hd : 24 ≤ d.val) (hmg : d.val < 39) : ClearsRet (execDieFatal d s) := by
  refine s.run_clearsRet ?_
  simp only [hup, dieSource_fst_ne_six hd, dieSource_fst_ne_five hmg, Bool.not_true, Bool.false_eq_true, or_false, if_false]
  exact Run.deviceFatal_retCleared hup _ _ _ _

theorem execHostReset_clearsRet (hup : s.hw.hostUp = true) (noDump : Bool) : ClearsRet (execHostReset noDump s) := by
  refine s.run_clearsRet ?_
  rw [if_pos hup]
  exact Run.deviceFatal_retCleared (Hw.diesUp_of_hostUp hup) _ _ _ _

theorem execPerstAssert_clearsRet (hup : s.hw.diesUp = true) (hport : s.hw.dev.ports.contains 0 = true) : ClearsRet (execPerstAssert 0 s) := by
  refine s.run_clearsRet ?_
  simp only [Fin.val_zero, hport, Bool.not_true, Bool.false_eq_true, if_false, if_true]
  exact Run.deviceReset_retCleared hup _ _

theorem execFlr_clearsRet (hup : s.hw.portUp 0 = true) : ClearsRet (execFlr .pf s) := by
  refine s.run_clearsRet ?_
  dsimp only
  rw [if_pos hup]
  exact Run.deviceReset_retCleared (Hw.diesUp_of_portUp hup) _ _

theorem execCxlReset_clearsRet (hup : s.hw.portUp 0 = true) : ClearsRet (execCxlReset 0 s) := by
  refine s.run_clearsRet ?_
  simp only [Fin.val_zero, hup, Bool.not_true, Bool.false_eq_true, if_false, if_true]
  exact Run.deviceReset_retCleared (Hw.diesUp_of_portUp hup) _ _

end

/-- Settles O12: each of these commands runs a device reset of powered dies, and none writes a table after it. -/
theorem deviceResetClearsRetirement : Obligations.DeviceResetClearsRetirement := by
  unfold Obligations.DeviceResetClearsRetirement
  exact ⟨fun _ hup => (execSagReset_clearsRet hup).tables, fun _ hup => (execOvReset_clearsRet hup).tables,
    fun _ _ hup hclamp hat => (execPowerOvercurrent_clearsRet hup hclamp hat).tables,
    fun u _ hup => (execThermalCritical_clearsRet hup u).tables, fun _ _ hup hd => (execFabricUe_clearsRet hup hd).tables,
    fun _ _ hup hd hmg => (execDieFatal_clearsRet hup hd hmg).tables, fun n _ hup => (execHostReset_clearsRet hup n).tables,
    fun _ hup hport => (execPerstAssert_clearsRet hup hport).tables, fun _ hup => (execFlr_clearsRet hup).tables,
    fun _ hup => (execCxlReset_clearsRet hup).tables⟩

/-! ## A stream's header above every scratchpad (R171, R356) -/

/-- An address above the trough, where the model counts a corrected bit error of a scratchpad word for stall `250 * 65536`. -/
def strayHdr : Nat := spdBase + 250 * 65536 * spdSlot

theorem spdEccCe_key_strayHdr : R.SPD_ECC_CE.key ((strayHdr - spdBase) / spdSlot) = R.ERR_RF_DONE_FAILED.key 0 := by decide

/-- An unavailable block whose host refetch runs and has no line to write, of a stream whose header lies at `strayHdr`. -/
def strayBlock : Unavail := { hdr := strayHdr, block := 0, mask := [], state := 2, listed := 0, src := some 0 }

/-- That block listed first by hub 0, and a single bit error in the header's first word. -/
def strayRefetch : State := { hw := { dev := { unav := [(0, [strayBlock])], softW := [(strayHdr / 8, 1)] } } }

/-- No header lies there, so that the block does not decode. The failure is counted once and the bit error twice, in the reads of the
header and of the index entry. -/
theorem hostRefetchDone_strayRefetch {t : State} (h : exec (.hostRefetchDone 0 0 .ok) strayRefetch = .next t) :
    (({ hw := t.hw, mem := t.mem } : Run).blockGood strayBlock.hdr strayBlock.block).2 = false ∧ t.hw.get R.ERR_RF_DONE_FAILED 0 = 3 := by
  obtain rfl := Host.Outcome.next.inj h
  rw [Hw.get, ← spdEccCe_key_strayHdr]
  decide +kernel

/-- Refutes O33: the header of a listed block is free in the statement. At the end of a refetch it is read to decode the block again, and
the read of one above every scratchpad can count a bit error at the key of ERR_RF_DONE.FAILED, which then rises by more than one.
CDE_CMD lists only streams in its pen's ranges (R222). -/
theorem not_retireScrubRefetch : ¬ Obligations.RetireScrubRefetch := by
  unfold Obligations.RetireScrubRefetch
  rintro ⟨-, -, -, -, -, -, hdone, -⟩
  obtain ⟨t, ht, -, -, hcounts, -⟩ := hdone 0 0 strayRefetch strayBlock 0 (by decide) (by decide) (by decide)
  obtain ⟨hbad, hfailed⟩ := hostRefetchDone_strayRefetch ht
  rw [if_neg (by rw [hbad]; decide)] at hcounts
  have hbefore : min (strayRefetch.hw.get R.ERR_RF_DONE_FAILED 0 + 1) 65535 = 1 := by decide
  have hone := hcounts.1
  omega

/-! ## A peg group whose count lags behind (R289, R292) -/

/-- A running module with peg group 0 ACTIVE, whose PEG_GSTATUS.LOCAL_COUNT reads 1 while no arrival is in hand. -/
def laggingCount : State :=
  { hw := { regs := [(R.PEG_GSTATUS_STATE.key 0, 1), (R.PEG_GSTATUS_LOCAL_COUNT.key 0, 1)], mgt := { phase := .run } } }

/-- The trip of MG is a new condition, which every ACTIVE group notes; its counts are then shown afresh. -/
theorem thermalTrip_laggingCount {t : State} (h : exec (.thermalTrip .mg) laggingCount = .next t) :
    t.hw.get R.PEG_GSTATUS_LOCAL_COUNT 0 = 0 := by
  obtain rfl := Host.Outcome.next.inj h
  decide +kernel

/-- Refutes O37: the count that a peg group shows is free in the statement. A trip has every ACTIVE group note its reason (R292), which
also writes PEG_GSTATUS.LOCAL_COUNT and CHILD_ARRIVED, and these are none of the registers of a trip: one that lags behind the group's
arrivals changes. Each change of the arrivals shows it afresh. -/
theorem not_thermalConditions : ¬ Obligations.ThermalConditions := by
  unfold Obligations.ThermalConditions
  rintro ⟨-, -, htrip, -⟩
  obtain ⟨t, ht, -, -, -, -, -, -, -, -, hregs⟩ := htrip .mg laggingCount (by decide) (by decide)
  have hsame : t.hw.get R.PEG_GSTATUS_LOCAL_COUNT 0 = laggingCount.hw.get R.PEG_GSTATUS_LOCAL_COUNT 0 := hregs.get (by decide)
  have hbefore : laggingCount.hw.get R.PEG_GSTATUS_LOCAL_COUNT 0 = 1 := by decide
  have hafter := thermalTrip_laggingCount ht
  omega

end Sys2Proof.Machine
end

section
/-! SUPPORT. The statements of serving (09_serving.md): the configuration of a KV manager, an arrival at the end of a KV_RQ, and page
tables above every scratchpad. -/

namespace Sys2Proof.Machine

/-! ## KVM_APPLY (R251) -/

theorem PenId.val_lt_65536 (p : PenId) : p.val < 65536 := Nat.lt_trans p.isLt (by decide)

/-- The configuration in the registers does not depend on KVM_CTRL.APPLY. -/
theorem Hw.kvmRegs_clear_apply (s : Hw) (p : PenId) : (s.set R.KVM_CTRL_APPLY p 0).kvmRegs p = s.kvmRegs p := by
  have hp := PenId.val_lt_65536 p
  have hget : ∀ {g : Fld}, g.id ≠ R.KVM_CTRL_APPLY.id → (s.set R.KVM_CTRL_APPLY p 0).get g p = s.get g p := fun h => Hw.get_set_fld s 0 h hp hp
  simp (disch := decide) only [Hw.kvmRegs, hget]

theorem Hw.kvmApply_of_absent {s : Hw} {p : PenId} (habsent : s.desc p = none) : s.kvmApply p = s.set R.KVM_CTRL_APPLY p 0 := by
  simp only [Hw.kvmApply, Hw.set_desc, habsent]

theorem Hw.kvmApply_of_refused {s : Hw} {p : PenId} {d : PenDesc} (hdesc : s.desc p = some d) (hbad : s.kvmOk p d (s.kvmRegs p) = false) :
    s.kvmApply p = (s.set R.KVM_CTRL_APPLY p 0).set R.KVM_CTRL_REJECT p 1 := by
  have hsame : (s.set R.KVM_CTRL_APPLY p 0).kvmOk p d (s.kvmRegs p) = false := hbad
  simp only [Hw.kvmApply, Hw.set_desc, hdesc, Hw.kvmRegs_clear_apply, hsame, Bool.false_eq_true, if_false]

/-- The pen's KV manager as a configuration that takes effect leaves it. -/
def Kv.configured (k : Kv) (c : KvCfg) : Kv :=
  { k with cfg := some c, reserve := 0, recomp := [], tickets := [], moves := [], pins := [], reclaim := false, pfxUse := [] }

theorem Hw.kvmApply_of_ok {s : Hw} {p : PenId} {d : PenDesc} (hdesc : s.desc p = some d) (hok : s.kvmOk p d (s.kvmRegs p) = true) :
    s.kvmApply p = (((s.set R.KVM_CTRL_APPLY p 0).modKv p (·.configured (s.kvmRegs p))).set R.KVM_CTRL_CONFIGURED p 1).kvCounts p := by
  have hsame : (s.set R.KVM_CTRL_APPLY p 0).kvmOk p d (s.kvmRegs p) = true := hok
  simp only [Hw.kvmApply, Hw.set_desc, hdesc, Hw.kvmRegs_clear_apply, hsame, if_true]
  rfl

/-- A configuration takes effect only while no page is in use. -/
theorem Hw.refs_eq_nil_of_kvmOk {s : Hw} {p : Nat} {d : PenDesc} {c : KvCfg} (hok : s.kvmOk p d c = true) : (s.pen p).kv.refs = [] := by
  simp only [Hw.kvmOk, Bool.and_eq_true, List.isEmpty_iff, and_assoc] at hok
  obtain ⟨-, hrefs, -⟩ := hok
  exact hrefs

/-- The page counts shown are three registers. -/
theorem Hw.kvCounts_pen (s : Hw) (p q : Nat) : (s.kvCounts p).pen q = s.pen q := rfl

theorem Hw.kvCounts_get (s : Hw) {p : Nat} {f : Fld} {i : Nat}
    (hf : f.id ≠ R.KVM_FREE_PAGES.id ∧ f.id ≠ R.KVM_USED_PAGES.id ∧ f.id ≠ R.KVM_LOFT_USED_PAGES.id) (hp : p < 65536) (hi : i < 65536) :
    (s.kvCounts p).get f i = s.get f i := by
  obtain ⟨hfree, hused, hloft⟩ := hf
  simp only [Hw.kvCounts]
  rw [Hw.get_set_fld _ _ hloft hp hi, Hw.get_set_fld _ _ hused hp hi, Hw.get_set_fld _ _ hfree hp hi]

/-- The registers that show the page counts of pen `p`. -/
def kvCountKeys (p : Nat) : List Nat := [R.KVM_FREE_PAGES.key p, R.KVM_USED_PAGES.key p, R.KVM_LOFT_USED_PAGES.key p]

theorem Hw.kvCounts_regs (s : Hw) (p : Nat) : Hw.RegsBut (kvCountKeys p) s (s.kvCounts p) :=
  .trans (Hw.regsBut_set s R.KVM_FREE_PAGES p _ (by simp [kvCountKeys]))
    (.trans (Hw.regsBut_set _ R.KVM_USED_PAGES p _ (by simp [kvCountKeys])) (Hw.regsBut_set _ R.KVM_LOFT_USED_PAGES p _ (by simp [kvCountKeys])))

/-- Settles O55: APPLY is cleared, and then the pen's descriptor and its registers decide among three chains of register writes. -/
theorem kvmApply : Obligations.KvmApply := by
  unfold Obligations.KvmApply
  refine ⟨fun p s d hup hdesc hok => ?ok, fun p s d hup hdesc hbad => ?refused, fun p s hup habsent => ?absent⟩
  all_goals refine ⟨_, State.byHostHw_of_hostUp (·.kvmApply p) hup, ?_⟩
  case ok =>
    have hp := PenId.val_lt_65536 p
    simp only [Hw.kvmApply_of_ok hdesc hok, Hw.kvCounts_pen, Hw.set_pen, Hw.modKv, Hw.pen_modPen]
    refine ⟨rfl, Hw.refs_eq_nil_of_kvmOk hok, rfl, ?_, ?_, State.frame_of_regsBut ?_⟩
    · rw [Hw.kvCounts_get _ (by decide) hp hp, Hw.get_set_same]
      rfl
    · rw [Hw.kvCounts_get _ (by decide) hp hp, Hw.get_set_fld _ _ (by decide) hp hp, Hw.modPen_get, Hw.get_set_same, Nat.zero_mod]
    · exact .trans (Hw.regsBut_set s.hw R.KVM_CTRL_APPLY p 0 (by simp))
        (.trans (Hw.regsBut_set (Hw.modPen _ _ _) R.KVM_CTRL_CONFIGURED p 1 (by simp)) ((Hw.kvCounts_regs _ p).mono (by simp [kvCountKeys])))
  case refused =>
    have hp := PenId.val_lt_65536 p
    rw [Hw.kvmApply_of_refused hdesc hbad]
    refine ⟨rfl, Hw.get_set_same .., ?_, State.frame_of_regsBut ?_⟩
    · rw [Hw.get_set_fld _ _ (by decide) hp hp, Hw.get_set_same, Nat.zero_mod]
    · exact .trans (Hw.regsBut_set s.hw R.KVM_CTRL_APPLY p 0 (by simp)) (Hw.regsBut_set _ R.KVM_CTRL_REJECT p 1 (by simp))
  case absent =>
    rw [Hw.kvmApply_of_absent habsent]
    exact ⟨rfl, (Hw.get_set_same ..).trans (Nat.zero_mod _), State.frame_of_regsBut (Hw.regsBut_set s.hw R.KVM_CTRL_APPLY p 0 (by simp))⟩

/-! ## An arrival at the end of a KV_RQ (R185, R186, R255) -/

/-- A KV manager's configuration in force, with pages and tables in HBM. -/
def smallKv : KvCfg :=
  { pool := 16, poolCnt := 8, loft := 0, loftCnt := 4, pfx := 0, pfxCnt := 0, gKv := 1, maxSpans := 4, lowG := 1, highG := 2 }

/-- The module of `strayWait` with that KV manager in pen 0, whose recompute queue is empty. -/
def strayWaitKv : State := { strayWait with hw := strayWait.hw.modPen 0 fun ps => { ps with kv := { cfg := some smallKv } } }

/-- KV_RQ FETCH into the start of scratchpad 0, with an arrival at counter 0 (Table 9.9). -/
def rqFirstRow : Bytes := [0x54#8, 0#8, 0#8, 1#8] ++ zeros 4 ++ leBytes 8 (spdAddr 0) ++ leBytes 4 2000 ++ zeros 44

/-- The arrival at the command's end takes the wait, which subtracts its target from the register that its counter names. -/
theorem kvRq_strayWaitKv_thrLevel {t : State} (h : exec (.kvRq 0 0 firstIssue rqFirstRow) strayWaitKv = .next t) :
    t.hw.get R.MHB_STATUS_THR_LEVEL 0 = 0 := by
  obtain rfl := Host.Outcome.next.inj h
  rw [Hw.get, ← spdArrCount_key_strayCtr]
  decide +kernel

/-- Refutes O51: the waits of the destination's stall are free in the statement, as in the refutation of O50. The arrival of a FETCH from
an empty queue takes one that names a counter beyond the 64 of a stall, and changes a register that is none of those of slots and ports. -/
theorem not_kvHubCommands : ¬ Obligations.KvHubCommands := by
  unfold Obligations.KvHubCommands
  rintro ⟨-, -, -, -, -, hempty, -⟩
  obtain ⟨t, ht, -, -, -, -, hflds⟩ := hempty 0 0 firstIssue rqFirstRow strayWaitKv ⟨0, 0, 9, 0, 0, 0, none⟩ smallKv 0
    (by decide) (by decide) (by decide) (by decide) (by decide) (by decide) (by decide) (by decide)
  have hsame : t.hw.get R.MHB_STATUS_THR_LEVEL 0 = strayWaitKv.hw.get R.MHB_STATUS_THR_LEVEL 0 := hflds _ _ (by decide)
  have hbefore : strayWaitKv.hw.get R.MHB_STATUS_THR_LEVEL 0 = 1 := by decide
  have htaken := kvRq_strayWaitKv_thrLevel ht
  omega

/-! ## A page table above every scratchpad (R249, R260) -/

/-- A configuration whose page tables begin at `strayAddr`. -/
def strayTables : KvCfg :=
  { pool := strayAddr / granule, poolCnt := 0, loft := 0, loftCnt := 0, pfx := 0, pfxCnt := 0, gKv := 1, maxSpans := 1, lowG := 0, highG := 0 }

/-- A device whose tick runs, with that configuration in pen 0 and a mode 0 pause of context 0 that has run out. The page table's one
entry lies in a word with a single bit error. -/
def strayPause : State :=
  { hw := { clk := { running := true }
            dev := { softW := [(strayAddr / 8, 1)],
                     pens := [(0, { kv := { cfg := some strayTables }, ctxs := [(0, { serving := .paused, expiry := some 0 })] })] } } }

/-- The bit error met by the read of the entry is counted at the key of SPD_TAG_SEL.SLOT of stall 0. -/
theorem pauseExpiry_strayPause_counts {t : State} (h : exec (.pauseExpiry 0 0) strayPause = .next t) :
    t.hw.get R.SPD_TAG_SEL_SLOT 0 = 1 := by
  obtain rfl := Host.Outcome.next.inj h
  rw [Hw.get, ← spdEccCe_key_strayAddr]
  decide +kernel

/-- Refutes O54: the place of the page tables is free in the statement, and the read of an entry that lies above every scratchpad can
count a bit error in a register outside those of memory and of the KV manager. KVM_APPLY takes only a pool in the pen's HBM. -/
theorem not_pauseExpires : ¬ Obligations.PauseExpires := by
  unfold Obligations.PauseExpires
  rintro ⟨hexpire, -⟩
  obtain ⟨t, ht, -, -, -, -, -, -, -, -, hflds⟩ := hexpire 0 0 strayPause 0 strayTables rfl rfl rfl rfl (by decide) rfl (by decide +kernel)
  have hsame : t.hw.get R.SPD_TAG_SEL_SLOT 0 = strayPause.hw.get R.SPD_TAG_SEL_SLOT 0 := hflds _ _ (by decide)
  have hbefore : strayPause.hw.get R.SPD_TAG_SEL_SLOT 0 = 0 := by decide
  have hcounted := pauseExpiry_strayPause_counts ht
  omega

end Sys2Proof.Machine
end

section
/-! SUPPORT. The statements of serving (09_serving.md), continued: what the KV manager's writes of HBM leave, and a span that comes back
from a loft pool above every scratchpad. -/

namespace Sys2Proof.Machine

/-! ## Registers outside a list of fields -/

theorem Hw.FieldsBut.refl (fs : List Fld) (s : Hw) : Hw.FieldsBut fs s s := fun _ _ _ => rfl

theorem Hw.FieldsBut.trans {fs : List Fld} {s t u : Hw} (h : Hw.FieldsBut fs s t) (k : Hw.FieldsBut fs t u) : Hw.FieldsBut fs s u :=
  fun d x hx => (k d x hx).trans (h d x hx)

theorem Fld.key_div (f : Fld) {i : Nat} (hi : i < 65536) : f.key i / 65536 = f.id := by
  simp only [Fld.key]
  omega

theorem Hw.fieldsBut_set {fs : List Fld} (s : Hw) {f : Fld} {i : Nat} (v : Nat) (hf : f ∈ fs) (hi : i < 65536) :
    Hw.FieldsBut fs s (s.set f i v) := fun _ k hk => Tbl.get_set_ne _ _ _ _ fun he => by
  have hin : (fs.any fun g => g.id == k / 65536) = true := List.any_eq_true.mpr ⟨f, hf, by simp [he, Fld.key_div f hi]⟩
  exact absurd (hin.symm.trans hk) (by decide)

/-! ## What the KV manager's writes of HBM leave (R195, R206, R250) -/

/-- The fields that a write of HBM without bit errors in its lines and the KV manager's own bookkeeping may change. -/
def kvWriteFlds : List Fld := [R.MHB_BYTES_WR_BYTES, R.MHB_RET_HIT_HITS, R.MHB_LOFT_RET_HIT_HITS] ++ kvmFlds

/-- The image in force, the bit errors outside the scratchpads, whether a pen reclaims and by which configuration, and every register
outside `kvWriteFlds` stay. -/
structure Hw.KvKeeps (s t : Hw) : Prop where
  soft : t.dev.soft = s.dev.soft
  truss : t.dev.truss = s.dev.truss
  reclaim : ∀ p, (t.pen p).kv.reclaim = (s.pen p).kv.reclaim
  cfg : ∀ p, (t.pen p).kv.cfg = (s.pen p).kv.cfg
  regs : Hw.FieldsBut kvWriteFlds s t

/-- The image in force pairs the module with no partner. -/
def Hw.NoYoke (s : Hw) : Prop := (s.dev.truss.bind fun t => t.yoke) = none

theorem Hw.KvKeeps.noYoke {s t : Hw} (h : Hw.KvKeeps s t) (hyoke : s.NoYoke) : t.NoYoke := by
  rw [Hw.NoYoke, h.truss]
  exact hyoke

theorem Hw.KvKeeps.refl (s : Hw) : Hw.KvKeeps s s := ⟨rfl, rfl, fun _ => rfl, fun _ => rfl, .refl _ s⟩

theorem Hw.KvKeeps.trans {s t u : Hw} (h : Hw.KvKeeps s t) (k : Hw.KvKeeps t u) : Hw.KvKeeps s u where
  soft := k.soft.trans h.soft
  truss := k.truss.trans h.truss
  reclaim p := (k.reclaim p).trans (h.reclaim p)
  cfg p := (k.cfg p).trans (h.cfg p)
  regs := h.regs.trans k.regs

theorem Hw.kvKeeps_set (s : Hw) {f : Fld} {i : Nat} (v : Nat) (hf : f ∈ kvWriteFlds) (hi : i < 65536) : Hw.KvKeeps s (s.set f i v) :=
  ⟨rfl, rfl, fun _ => rfl, fun _ => rfl, Hw.fieldsBut_set s v hf hi⟩

theorem Hw.kvKeeps_inc (s : Hw) {f : Fld} {i : Nat} (n : Nat) (hf : f ∈ kvWriteFlds) (hi : i < 65536) : Hw.KvKeeps s (s.inc f i n) :=
  Hw.kvKeeps_set s _ hf hi

/-- A change of a pen that leaves its KV manager's configuration and whether it reclaims. -/
theorem Hw.kvKeeps_modPen (s : Hw) (p : Nat) {f : PenSt → PenSt} (hreclaim : ∀ ps, (f ps).kv.reclaim = ps.kv.reclaim)
    (hcfg : ∀ ps, (f ps).kv.cfg = ps.kv.cfg) : Hw.KvKeeps s (s.modPen p f) := by
  refine ⟨rfl, rfl, fun q => ?_, fun q => ?_, .refl _ s⟩ <;> rcases Decidable.em (q = p) with rfl | hq
  · rw [Hw.pen_modPen, hreclaim]
  · rw [Hw.pen_modPen_ne s f hq]
  · rw [Hw.pen_modPen, hcfg]
  · rw [Hw.pen_modPen_ne s f hq]

theorem Hw.each_kvKeeps {α : Type} (s : Hw) {xs : List α} {f : α → Hw → Hw} (h : ∀ x ∈ xs, ∀ t, Hw.KvKeeps t (f x t)) :
    Hw.KvKeeps s (s.each xs f) := by
  induction xs generalizing s with
  | nil => exact .refl s
  | cons x xs ih =>
    exact (h x List.mem_cons_self s).trans (ih (f x s) fun y hy => h y (List.mem_cons_of_mem x hy))

theorem Hw.each_eq_self {α : Type} {s : Hw} {xs : List α} {f : α → Hw → Hw} (h : ∀ x ∈ xs, f x s = s) : s.each xs f = s := by
  induction xs with
  | nil => rfl
  | cons x xs ih =>
    show Hw.each (f x s) xs f = s
    rw [h x List.mem_cons_self]
    exact ih fun y hy => h y (List.mem_cons_of_mem x hy)

theorem Run.each_hw_eq {α : Type} {r : Run} {xs : List α} {f : α → Run → Run} (h : ∀ x ∈ xs, ∀ u, (f x u).hw = u.hw) :
    (r.each xs f).hw = r.hw := by
  induction xs generalizing r with
  | nil => rfl
  | cons x xs ih => exact (ih fun y hy => h y (List.mem_cons_of_mem x hy)).trans (h x List.mem_cons_self r)

/-- Steps that each keep this of hardware without bit errors keep it together. -/
theorem Run.each_kvKeeps {α : Type} {r : Run} {xs : List α} {f : α → Run → Run}
    (h : ∀ x ∈ xs, ∀ u : Run, u.hw.dev.soft = [] → Hw.KvKeeps u.hw (f x u).hw) (hsoft : r.hw.dev.soft = []) :
    Hw.KvKeeps r.hw (r.each xs f).hw := by
  induction xs generalizing r with
  | nil => exact .refl _
  | cons x xs ih =>
    have hx := h x List.mem_cons_self r hsoft
    exact hx.trans (ih (r := f x r) (fun y hy => h y (List.mem_cons_of_mem x hy)) (hx.soft.trans hsoft))

theorem Hw.deadHit_kvKeeps (s : Hw) (g : Nat) : Hw.KvKeeps s (s.deadHit g) := by
  unfold Hw.deadHit
  split
  next hg =>
    have hgranules : hbmEnd / granule = 393216 := by decide
    exact Hw.kvKeeps_inc s 1 (by decide) (by omega)
  next => exact Hw.kvKeeps_inc s 1 (by decide) (by decide)

/-- A granule that an extent touches begins before the extent's end. -/
theorem mul_granule_lt_of_mem_granulesOf {a n g : Nat} (hg : g ∈ granulesOf a n) : g * granule < a + n := by
  unfold granulesOf at hg
  split at hg
  next => cases hg
  next hn =>
    obtain ⟨k, hk, rfl⟩ := List.mem_map.mp hg
    have hlast : a / granule + k ≤ (a + n - 1) / granule := by
      have := List.mem_range.mp hk
      omega
    have := (Nat.le_div_iff_mul_le (by decide)).mp hlast
    omega

theorem Hw.countBytes_kvKeeps (s : Hw) {a n : Nat} (ha : a < hbmEnd) (hn : a + n ≤ hbmEnd) : Hw.KvKeeps s (s.countBytes a n true) := by
  unfold Hw.countBytes
  rw [if_pos ha]
  refine Hw.each_kvKeeps s fun g hg t => Hw.kvKeeps_inc t _ (by decide) ?_
  have hg := mul_granule_lt_of_mem_granulesOf hg
  refine Nat.lt_of_le_of_lt (Nat.div_le_self _ _) (Nat.lt_of_le_of_lt (Nat.div_le_div_right (Nat.le_of_lt (Nat.lt_of_lt_of_le hg hn))) ?_)
  decide

/-- Without a yoke nothing is mirrored. -/
theorem Hw.mirrorData_of_noYoke {s : Hw} (hyoke : s.NoYoke) (a : Nat) (bs : Bytes) (mk : Nat → Nat) :
    s.mirrorData a bs mk = s := by
  have hsend : ∀ p pkt, s.yokeSend p pkt = s := fun p pkt => by rw [Hw.yokeSend, hyoke]
  unfold Hw.mirrorData
  split
  · exact Hw.each_eq_self fun _ _ => hsend _ _
  · rfl

theorem Hw.cacheWrite_kvKeeps (s : Hw) (a n : Nat) (mk : Nat → Nat) : Hw.KvKeeps s (s.cacheWrite a n mk) := by
  unfold Hw.cacheWrite
  split
  · exact .refl s
  · refine Hw.each_kvKeeps s fun l _ t => ?_
    dsimp only
    split
    · exact .refl t
    · exact ⟨rfl, rfl, fun _ => rfl, fun _ => rfl, .refl _ t⟩

theorem Run.markWrite_hw (r : Run) (a n : Nat) (mk : Nat → Nat) : (r.markWrite a n mk).hw = r.hw :=
  Run.each_hw_eq fun l _ u => by
    unfold Run.setMark
    split <;> split <;> rfl

theorem Run.write_hw (r : Run) (a : Nat) (bs : Bytes) : (r.write a bs).hw = r.hw := by
  unfold Run.write
  split <;> rfl

theorem Hw.softIn_of_soft_nil {s : Hw} (hsoft : s.dev.soft = []) (a n : Nat) : s.softIn a n = [] := by
  rw [Hw.softIn, hsoft]
  rfl

/-- A store that meets no bit error outside the scratchpads. -/
theorem Run.storeBy_kvKeeps {r : Run} (hsoft : r.hw.dev.soft = []) (a : Nat) (bs : Bytes) (mk : Nat → Nat) :
    Hw.KvKeeps r.hw (r.storeBy a bs mk).hw := by
  unfold Run.storeBy Run.softWrite
  rw [Run.markWrite_hw, Run.write_hw, Hw.softIn_of_soft_nil hsoft]
  exact ⟨rfl, rfl, fun _ => rfl, fun _ => rfl, .refl _ _⟩

theorem Run.memWriteBy_kvKeeps {r : Run} (hsoft : r.hw.dev.soft = []) (hyoke : r.hw.NoYoke) {a : Nat} {bs : Bytes}
    (ha : a < hbmEnd) (hn : a + bs.length ≤ hbmEnd) (mk : Nat → Nat) : Hw.KvKeeps r.hw (r.memWriteBy a bs mk).hw := by
  have hcount := r.hw.countBytes_kvKeeps ha hn
  have hmirror : (r.on fun s => (s.countBytes a bs.length true).mirrorData a bs mk) = r.on fun s => s.countBytes a bs.length true :=
    congrArg (fun h : Hw => { r with hw := h }) (Hw.mirrorData_of_noYoke (hcount.noYoke hyoke) a bs mk)
  unfold Run.memWriteBy
  rw [hmirror]
  refine hcount.trans (Run.each_kvKeeps (r := r.on fun s => s.countBytes a bs.length true) (fun x _ u hu => ?_) (hcount.soft.trans hsoft))
  split
  · exact Hw.deadHit_kvKeeps _ _
  · exact (Run.storeBy_kvKeeps hu _ _ _).trans (Hw.cacheWrite_kvKeeps _ _ _ _)

theorem Hw.noteCtx_kvKeeps (s : Hw) (p x : Nat) : Hw.KvKeeps s (s.noteCtx p x) := by
  unfold Hw.noteCtx
  split
  · refine Hw.kvKeeps_modPen s p (fun ps => ?_) (fun ps => ?_) <;> dsimp only <;> split <;> rfl
  · exact .refl s

theorem Run.setPte_kvKeeps {r : Run} (hsoft : r.hw.dev.soft = []) (hyoke : r.hw.NoYoke) {c : KvCfg} {x sp j : Nat}
    (hin : c.pte x sp j + 4 ≤ hbmEnd) (p e : Nat) : Hw.KvKeeps r.hw (r.setPte p c x sp j e).hw :=
  (Run.memWriteBy_kvKeeps hsoft hyoke (by omega) hin _).trans (Hw.noteCtx_kvKeeps _ p x)

theorem Hw.unrefLoft_kvKeeps (s : Hw) (p q : Nat) : Hw.KvKeeps s (s.unrefLoft p q) := by
  unfold Hw.unrefLoft
  refine Hw.kvKeeps_modPen s p (fun ps => ?_) (fun ps => ?_) <;> dsimp only <;> split <;> rfl

theorem Hw.kvCounts_kvKeeps (s : Hw) {p : Nat} (hp : p < 65536) : Hw.KvKeeps s (s.kvCounts p) :=
  .trans (.trans (Hw.kvKeeps_set s _ (by decide) hp) (Hw.kvKeeps_set _ _ (by decide) hp)) (Hw.kvKeeps_set _ _ (by decide) hp)

/-- Without reclamation, and above the low watermark, a test of the start condition shows the counts alone. -/
theorem Run.reclaim_of_noReclaim {r : Run} {p : Nat} {c : KvCfg} (hcfg : (r.hw.pen p).kv.cfg = some c) (hrun : (r.hw.pen p).kv.reclaim = false)
    (hlow : 56 * c.lowG ≤ r.hw.freePages p) : r.reclaim p = r.on fun s => s.kvCounts p := by
  simp only [Run.reclaim, hcfg, if_neg (Nat.not_lt.mpr hlow), hrun, Bool.false_eq_true, if_false]

theorem Run.copyPage_kvKeeps {r : Run} {src dst : Nat} (hsoft : (r.fetch .kvm src pageSize).hw.dev.soft = [])
    (hyoke : (r.fetch .kvm src pageSize).hw.NoYoke) (hin : dst + pageSize ≤ hbmEnd) :
    Hw.KvKeeps (r.fetch .kvm src pageSize).hw (r.copyPage src dst).hw := by
  have hlen : ((r.fetch .kvm src pageSize).read src pageSize).length = pageSize := by rw [Run.read, List.length_map, List.length_range]
  have hpos : 0 < pageSize := by decide
  exact Run.memWriteBy_kvKeeps hsoft hyoke (by omega) (by rw [hlen]; exact hin) _

theorem Hw.endMove_kvKeeps (s : Hw) (p : Nat) (mv : SpanMove) : Hw.KvKeeps s (s.endMove p mv) :=
  Hw.kvKeeps_modPen s p (fun _ => rfl) (fun _ => rfl)

/-- The bookkeeping at the end of a restored page and of its span. -/
theorem Run.restored_kvKeeps (r : Run) {p : Nat} (hp : p < 65536) (q : Nat) (mv : SpanMove) :
    Hw.KvKeeps r.hw ((r.on fun s => (s.unrefLoft p q).inc R.KVM_PREFETCHED_PAGES p).on fun s => (s.endMove p mv).kvCounts p).hw :=
  ((Hw.unrefLoft_kvKeeps _ p q).trans (Hw.kvKeeps_inc _ 1 (by decide) hp)).trans ((Hw.endMove_kvKeeps _ p mv).trans (Hw.kvCounts_kvKeeps _ hp))

/-- A span of one page, in the loft by its entry `e`, is restored by one read of the loft page, one copy to the page `i` and its
bookkeeping. What follows the read keeps what the KV manager's writes keep. -/
theorem Run.restoreSpan_kvKeeps {r u v : Run} {p e i : Nat} {c : KvCfg} {mv : SpanMove} {s : Hw} (hone : c.gKv = 1)
    (hlook : r.lookSpan c mv.ctx mv.span = u) (hpte : u.pte p c mv.ctx mv.span 0 = e) (hloft : pteState e = 1)
    (halloc : u.hw.allocPage p = (some i, s)) (hread : (u.on fun _ => s).fetch .kvm (c.loftPage (pteIndex e)) pageSize = v)
    (hsoft : v.hw.dev.soft = []) (hyoke : v.hw.NoYoke) (hpage : c.page (u.hw.ctxMax p) i + pageSize ≤ hbmEnd)
    (hentry : c.pte mv.ctx mv.span 0 + 4 ≤ hbmEnd) (hp : p < 65536) : Hw.KvKeeps v.hw (r.restoreSpan p c mv).hw := by
  subst hread
  have hcopy := Run.copyPage_kvKeeps hsoft hyoke hpage
  have hset := Run.setPte_kvKeeps (hcopy.soft.trans hsoft) (hcopy.noYoke hyoke) hentry p i
  unfold Run.restoreSpan
  rw [hone, List.range_one, hlook]
  unfold Run.each
  rw [List.foldl_cons, List.foldl_nil]
  dsimp only
  rw [hpte, if_pos hloft, halloc]
  exact (hcopy.trans hset).trans (Run.restored_kvKeeps _ hp (pteIndex e) mv)

/-- KV_PREFETCH_SPAN with a span to restore and its pages free. -/
theorem execKvPrefetchSpan_of_free {p : PenId} {s : State} {c : KvCfg} {mv : SpanMove} (hcfg : (s.hw.pen p).kv.cfg = some c)
    (hmove : ((s.hw.pen p).kv.moves.find? fun m => !m.out) = some mv) (hfree : c.gKv ≤ s.hw.freePages p) :
    execKvPrefetchSpan p s = s.run fun _ => (Run.restoreSpan { hw := s.hw, mem := s.mem } p c mv).reclaim p := by
  unfold execKvPrefetchSpan State.run
  dsimp only
  rw [hcfg, hmove]
  dsimp only
  rw [if_pos hfree]

/-! ## A loft pool above every scratchpad (R249, R254) -/

/-- A configuration with two granules of HBM, the first for the page tables, and a loft pool that begins at `strayAddr`. -/
def strayLoft : KvCfg :=
  { pool := 0, poolCnt := 2, loft := (strayAddr - loftBase) / granule, loftCnt := 1, pfx := 0, pfxCnt := 0, gKv := 1, maxSpans := 1, lowG := 0,
    highG := 0 }

/-- A device with that configuration in pen 0, whose context 0 has its one span in loft page 0, to be restored. A word of that page has
a single bit error. -/
def strayRestore : State :=
  { hw := { dev := { truss := some { bareTruss with pens := [(0, { barePen with ctxMax := 1 })] }, softW := [(strayAddr / 8, 1)],
                     pens := [(0, { kv := { cfg := some strayLoft, moves := [⟨0, 0, false⟩] }, ctxs := [(0, { serving := .active })] })] } }
    mem := { dev := [(3, 0x40#8)], host := [], mark := [] } }

/-- The command once it has read the span's entry. -/
def strayLooked : Run := ({ hw := strayRestore.hw, mem := strayRestore.mem } : Run).lookSpan strayLoft 0 0

/-- The command once it has a page for the span. -/
def strayAllocated : Run := strayLooked.on fun _ => (strayLooked.hw.allocPage 0).2

/-- The page it has: the search starts at an open value (log 13). -/
def strayPage : Nat := strayLooked.hw.draw.1 % 56 % 56

theorem strayLooked_pte : strayLooked.pte 0 strayLoft 0 0 0 = 2 ^ 30 := by decide +kernel

theorem strayLooked_allocPage : strayLooked.hw.allocPage 0 = (some strayPage, (strayLooked.hw.allocPage 0).2) := rfl

theorem strayLoft_pages : strayLoft.pool + strayLoft.tblG (strayLooked.hw.ctxMax 0) = 1 := by decide +kernel

/-- Whichever page it is, it lies in HBM. -/
theorem strayLoft_page_le : strayLoft.page (strayLooked.hw.ctxMax 0) strayPage + pageSize ≤ hbmEnd := by
  have hlt : strayPage < 56 := Nat.mod_lt _ (by decide)
  have hlast : 1 * granule + 55 * pageSize + pageSize ≤ hbmEnd := by decide
  rw [KvCfg.page, strayLoft_pages, Nat.div_eq_of_lt hlt, Nat.mod_eq_of_lt hlt]
  have hle := Nat.mul_le_mul_right pageSize (Nat.le_of_lt_succ hlt)
  exact Nat.le_trans (Nat.add_le_add_right (Nat.add_le_add_left hle _) _) hlast

/-- The command once it has read the loft page. -/
def strayFetched : Run := strayAllocated.fetch .kvm (strayLoft.loftPage (pteIndex (2 ^ 30))) pageSize

/-- The bit error met by that read is counted at the key of SPD_TAG_SEL.SLOT of stall 0. -/
theorem strayFetched_counts : strayFetched.hw.get R.SPD_TAG_SEL_SLOT 0 = 1 := by
  rw [Hw.get, ← spdEccCe_key_strayAddr]
  decide +kernel

/-- What follows the read of the loft page leaves the count. -/
theorem restoreSpan_strayRestore_kvKeeps :
    Hw.KvKeeps strayFetched.hw (Run.restoreSpan { hw := strayRestore.hw, mem := strayRestore.mem } 0 strayLoft ⟨0, 0, false⟩).hw := by
  have hsoft : strayFetched.hw.dev.soft = [] := by decide +kernel
  have hyoke : strayFetched.hw.NoYoke := by
    unfold Hw.NoYoke
    decide +kernel
  have hlook : Run.lookSpan { hw := strayRestore.hw, mem := strayRestore.mem } strayLoft 0 0 = strayLooked := rfl
  have hread : (strayLooked.on fun _ => (strayLooked.hw.allocPage 0).2).fetch .kvm (strayLoft.loftPage (pteIndex (2 ^ 30))) pageSize =
      strayFetched := rfl
  exact Run.restoreSpan_kvKeeps (mv := ⟨0, 0, false⟩) rfl hlook strayLooked_pte (by decide) strayLooked_allocPage hread hsoft hyoke
    strayLoft_page_le (by decide) (by decide)

/-- The command ends with the page counts shown, for nothing is reclaimed, and the count stands. -/
theorem kvPrefetchSpan_strayRestore_counts {t : State} (h : exec (.kvPrefetchSpan 0) strayRestore = .next t) :
    t.hw.get R.SPD_TAG_SEL_SLOT 0 = 1 := by
  have hkeep := restoreSpan_strayRestore_kvKeeps
  have hcfg : (strayFetched.hw.pen 0).kv.cfg = some strayLoft := by decide +kernel
  have hidle : (strayFetched.hw.pen 0).kv.reclaim = false := by decide +kernel
  have hend : Hw.KvKeeps strayFetched.hw t.hw := by
    have hexec : exec (.kvPrefetchSpan 0) strayRestore = execKvPrefetchSpan 0 strayRestore := rfl
    rw [hexec, execKvPrefetchSpan_of_free (mv := ⟨0, 0, false⟩) rfl rfl (by decide +kernel), Fin.val_zero,
      Run.reclaim_of_noReclaim ((hkeep.cfg 0).trans hcfg) ((hkeep.reclaim 0).trans hidle) (Nat.zero_le _)] at h
    obtain rfl := Host.Outcome.next.inj h
    exact hkeep.trans (Hw.kvCounts_kvKeeps _ (by decide))
  exact (hend.regs _ _ (by decide)).trans strayFetched_counts

/-- Refutes O53: the loft pool's place is free in the statement, and the read of a loft page that lies above every scratchpad can count a
bit error in a register outside those of memory and of the KV manager. KVM_APPLY takes only a pool in the pen's loft ranges. -/
theorem not_kvPrefetch : ¬ Obligations.KvPrefetch := by
  unfold Obligations.KvPrefetch
  rintro ⟨hrestore, -⟩
  obtain ⟨t, ht, -, -, -, -, hflds⟩ := hrestore 0 strayRestore strayLoft ⟨0, 0, false⟩ rfl rfl rfl (by decide +kernel) (by decide) rfl (by decide)
    (by decide) (by decide +kernel) (by decide) (by decide +kernel) (by decide)
  have hsame : t.hw.get R.SPD_TAG_SEL_SLOT 0 = strayRestore.hw.get R.SPD_TAG_SEL_SLOT 0 := hflds _ _ (by decide)
  have hbefore : strayRestore.hw.get R.SPD_TAG_SEL_SLOT 0 = 0 := by decide
  have hcounted := kvPrefetchSpan_strayRestore_counts ht
  omega

end Sys2Proof.Machine
end

section
/-! SUPPORT. The statements of links (10_herd_links.md): what the operations of links show and leave, and the end of training. -/

namespace Sys2Proof.Machine

/-! ## Registers of a link after the operations of links -/

theorem LinkId.val_lt_65536 (l : LinkId) : l.val < 65536 := Nat.lt_trans l.isLt (by decide)

section
variable (s : Hw) (l : LinkId)

theorem Hw.set_get_link {f g : Fld} (v : Nat) (h : g.id ≠ f.id) : (s.set f l v).get g l = s.get g l :=
  Hw.get_set_fld s v h (LinkId.val_lt_65536 l) (LinkId.val_lt_65536 l)

theorem Hw.inc_get_link {f g : Fld} (n : Nat) (h : g.id ≠ f.id) : (s.inc f l n).get g l = s.get g l := s.set_get_link l _ h

theorem Hw.log_get_link (e : Err) (a : LogArg) {f : Fld} (h : f.id ∉ logKeys.map (· / 65536)) : (s.log e a).get f l = s.get f l :=
  Hw.log_get_fld s e a h (LinkId.val_lt_65536 l)

theorem Hw.drainTx_get_link {f : Fld} (h : f.id ≠ R.ZLT_TX_PKTS_PKTS.id ∧ f.id ≠ R.LNK_TX_BYTES_BYTES.id) : s.drainTx.get f l = s.get f l :=
  s.drainTx_keeps.regs.get (Fld.key_notin_tx h.1 h.2 (LinkId.val_lt_65536 l))

theorem Hw.linkTo_state_link (st : Nat) : (s.linkTo l st).get R.LNK_STATUS_STATE l = st % 8 := Hw.linkTo_state s l st (LinkId.val_lt_65536 l)

/-- A link that comes UP keeps the width set before. -/
theorem Hw.linkTo_up_width : (s.linkTo l 2).get R.LNK_STATUS_WIDTH l = s.get R.LNK_STATUS_WIDTH l := by
  have hl := LinkId.val_lt_65536 l
  unfold Hw.linkTo Hw.showPorts
  dsimp only
  rw [if_pos rfl, Hw.get_set_fld _ _ (by decide) (by decide) hl, Hw.modLink_get, Hw.set_get_link _ _ _ (by decide)]

/-- A link that enters another state has no width. -/
theorem Hw.linkTo_width {st : Nat} (h : st ≠ 2) : (s.linkTo l st).get R.LNK_STATUS_WIDTH l = 0 := by
  have hl := LinkId.val_lt_65536 l
  unfold Hw.linkTo Hw.showPorts
  dsimp only
  rw [if_neg h, Hw.get_set_fld _ _ (by decide) (by decide) hl, Hw.get_set_same, Nat.zero_mod]

/-- The other registers of the link stay. -/
theorem Hw.linkTo_get_link (st : Nat) {f : Fld} (h : f.id ∉ (linkKeys 0).map (· / 65536)) : (s.linkTo l st).get f l = s.get f l := by
  have hl := LinkId.val_lt_65536 l
  have hkeys : ∀ {g : Fld} {j : Nat}, j < 65536 → g.id ∈ (linkKeys 0).map (· / 65536) → f.key l ≠ g.key j := fun hj hg =>
    Fld.key_ne (fun he => h (he ▸ hg)) hj hl
  refine (s.linkTo_regs l st).get ?_
  simp only [linkKeys, List.mem_cons, List.not_mem_nil, or_false, not_or]
  exact ⟨hkeys hl (by decide), hkeys hl (by decide), hkeys (by decide) (by decide)⟩

theorem Hw.linkDown_state_link (cause : Nat) : (s.linkDown l cause).get R.LNK_STATUS_STATE l = 4 :=
  Hw.linkDown_state s l cause (LinkId.val_lt_65536 l)

theorem Hw.linkDown_count_link (cause : Nat) :
    (s.linkDown l cause).get R.LNK_EVENTS_DOWN l = min (s.get R.LNK_EVENTS_DOWN l + 1) 65535 := Hw.linkDown_count s l cause (LinkId.val_lt_65536 l)

theorem Hw.linkDown_width (cause : Nat) : (s.linkDown l cause).get R.LNK_STATUS_WIDTH l = 0 := by
  unfold Hw.linkDown
  rw [Hw.msi_get, Hw.log_get_link _ _ _ _ (by decide), Hw.inc_get_link _ _ _ (by decide), Hw.linkTo_width _ _ (by decide)]

theorem Hw.linkDown_get_link (cause : Nat) {f : Fld} (h : f.id ∉ (R.LNK_EVENTS_DOWN.key 0 :: (linkKeys 0 ++ logKeys)).map (· / 65536)) :
    (s.linkDown l cause).get f l = s.get f l := by
  simp only [List.map_cons, List.map_append, List.mem_cons, List.mem_append, not_or] at h
  obtain ⟨hdown, hlink, hlog⟩ := h
  unfold Hw.linkDown
  rw [Hw.msi_get, Hw.log_get_link _ _ _ _ hlog, Hw.inc_get_link _ _ _ hdown, Hw.linkTo_get_link _ _ _ hlink, Hw.keepWidth_get]

end

/-! ## Registers that the operations of links leave -/

section
variable {ks : List Nat} {s t : Hw}

theorem Hw.RegsBut.set (h : Hw.RegsBut ks s t) {f : Fld} {i : Nat} (v : Nat) (hk : f.key i ∈ ks) : Hw.RegsBut ks s (t.set f i v) :=
  h.trans (Hw.regsBut_set t f i v hk)

theorem Hw.RegsBut.inc (h : Hw.RegsBut ks s t) {f : Fld} {i : Nat} (n : Nat) (hk : f.key i ∈ ks) : Hw.RegsBut ks s (t.inc f i n) :=
  h.set _ hk

theorem Hw.RegsBut.of_regs_eq {u : Hw} (h : Hw.RegsBut ks s t) (hregs : u.regs = t.regs) : Hw.RegsBut ks s u := fun d k hk => by
  rw [hregs]
  exact h d k hk

theorem Hw.RegsBut.log (h : Hw.RegsBut ks s t) (e : Err) (a : LogArg) (hk : ∀ x ∈ logKeys, x ∈ ks) : Hw.RegsBut ks s (t.log e a) :=
  h.trans ((t.log_keeps e a).regs.mono hk)

theorem Hw.RegsBut.msi (h : Hw.RegsBut ks s t) (f v : Nat) : Hw.RegsBut ks s (t.msi f v) := h.of_regs_eq (t.msi_regs f v)

theorem Hw.RegsBut.linkTo (h : Hw.RegsBut ks s t) (l st : Nat) (hk : ∀ x ∈ linkKeys l, x ∈ ks) : Hw.RegsBut ks s (t.linkTo l st) :=
  h.trans ((t.linkTo_regs l st).mono hk)

theorem Hw.RegsBut.linkDown (h : Hw.RegsBut ks s t) (l cause : Nat) (hdown : R.LNK_EVENTS_DOWN.key l ∈ ks)
    (hlink : ∀ x ∈ linkKeys l, x ∈ ks) (hlog : ∀ x ∈ logKeys, x ∈ ks) : Hw.RegsBut ks s (t.linkDown l cause) :=
  h.trans ((t.linkDown_regs l cause).mono (List.forall_mem_cons.mpr ⟨hdown, List.forall_mem_append.mpr ⟨hlink, hlog⟩⟩))

theorem Hw.regsBut_reach (ks : List Nat) (s : Hw) (at_ : Nat) : Hw.RegsBut ks s (s.reach at_) := .refl ks s

theorem Hw.RegsBut.drainTx (h : Hw.RegsBut ks s t) (hk : ∀ x ∈ txKeys, x ∈ ks) : Hw.RegsBut ks s t.drainTx :=
  h.trans (t.drainTx_keeps.regs.mono hk)

end

/-! ## The end of training (R267, R268, R271 to R273) -/

/-- The link's peer shown, as the end of training reports it. -/
def Hw.showPeer (s : Hw) (l dev peerLink : Nat) : Hw := (s.set R.LNK_PEER_PEER_DEV l dev).set R.LNK_PEER_PEER_LINK l peerLink

/-- A herd-mode link UP at width `w` with its lanes. -/
def Hw.herdUp (s : Hw) (l w lanes : Nat) : Hw :=
  ((((s.set R.LNK_STATUS_WIDTH l w).set R.LNK_STATUS_LANE_FAIL l (255 - lanes)).linkTo l 2).modLink l
    fun x => { x with credit := [4096, 4096, 4096] }).drainTx

/-- A network-mode link UP, as one interface or two. -/
def Hw.networkUp (s : Hw) (l : Nat) (split : Bool) : Hw :=
  ((((s.set R.LNK_STATUS_WIDTH l 8).set R.LNK_STATUS_SPLIT l (if split then 1 else 0)).set R.LNK_STATUS_LANE_FAIL l 0).linkTo l 2).drainTx

section
variable {l : LinkId} {lanes : Fin 256} {peerDev : BitVec 16} {peerLink : Fin 32} {split : Bool} {s : State} {p : PortDef}

theorem not_untrained_of_training {st : Nat} (h : st = 1 ∨ st = 3) : ¬(st ≠ 1 ∧ st ≠ 3) := by omega

theorem Hw.showPeer_devId (h : Hw) (l : LinkId) (dev peerLink : Nat) : (h.showPeer l dev peerLink).devId = h.devId := by
  have hl := LinkId.val_lt_65536 l
  unfold Hw.showPeer Hw.devId
  rw [Hw.get_set_fld _ _ (by decide) hl (by decide), Hw.get_set_fld _ _ (by decide) hl (by decide)]

theorem execLinkTrained_of_other (hport : s.hw.portOf l = some p) (hherd : p.mode ≠ 1)
    (htrain : s.hw.get R.LNK_STATUS_STATE l = 1 ∨ s.hw.get R.LNK_STATUS_STATE l = 3) (hreset : peerDev.toNat ≠ 0xFFFF)
    (hother : peerDev.toNat ≠ s.hw.devId) {w : Nat}
    (hw : ([8, 6, 4, 2, 1].find? fun v => decide (v ≤ popcount 8 lanes.val) && decide (v ≤ (s.hw.link l).target)) = some w) :
    execLinkTrained l lanes peerDev peerLink split s = .next { s with hw := (s.hw.showPeer l peerDev.toNat peerLink).herdUp l w lanes } := by
  have hnot : ¬(peerDev.toNat = 0xFFFF ∨ peerDev.toNat = (s.hw.showPeer l peerDev.toNat peerLink).devId) := by
    rw [Hw.showPeer_devId]
    exact not_or.mpr ⟨hreset, hother⟩
  have hwidth : (widths.find? fun v => decide (v ≤ popcount 8 lanes.val) &&
      decide (v ≤ ((s.hw.showPeer l peerDev.toNat peerLink).link l).target)) = some w := hw
  unfold Hw.showPeer at hnot hwidth
  unfold execLinkTrained State.onHw
  dsimp only
  rw [hport]
  dsimp only
  rw [if_neg (not_untrained_of_training htrain), if_neg hherd, if_neg hnot, hwidth]
  rfl

theorem execLinkTrained_of_self (hport : s.hw.portOf l = some p) (hherd : p.mode ≠ 1)
    (htrain : s.hw.get R.LNK_STATUS_STATE l = 1 ∨ s.hw.get R.LNK_STATUS_STATE l = 3)
    (hself : peerDev.toNat = 0xFFFF ∨ peerDev.toNat = s.hw.devId) :
    execLinkTrained l lanes peerDev peerLink split s = .next { s with hw := (s.hw.showPeer l peerDev.toNat peerLink).linkDown l 2 } := by
  rw [← s.hw.showPeer_devId l peerDev.toNat peerLink] at hself
  unfold Hw.showPeer at hself
  unfold execLinkTrained State.onHw
  dsimp only
  rw [hport]
  dsimp only
  rw [if_neg (not_untrained_of_training htrain), if_neg hherd, if_pos hself]
  rfl

theorem execLinkTrained_of_network (hport : s.hw.portOf l = some p) (hnet : p.mode = 1)
    (htrain : s.hw.get R.LNK_STATUS_STATE l = 1 ∨ s.hw.get R.LNK_STATUS_STATE l = 3) (hlanes : popcount 8 lanes.val = 8) :
    execLinkTrained l lanes peerDev peerLink split s = .next { s with hw := s.hw.networkUp l split } := by
  unfold execLinkTrained State.onHw
  dsimp only
  rw [hport]
  dsimp only
  rw [if_neg (not_untrained_of_training htrain), if_pos hnet, if_neg (by omega)]
  rfl

end

/-! ### What each end shows -/

theorem le_eight_of_find? {f : Nat → Bool} {w : Nat} (h : [8, 6, 4, 2, 1].find? f = some w) : w ≤ 8 := by
  have hmem := List.mem_of_find?_eq_some h
  simp only [List.mem_cons, List.not_mem_nil, or_false] at hmem
  omega

section
variable (s : Hw) (l : LinkId)

theorem Hw.herdUp_shows {w lanes : Nat} (hw : w ≤ 8) :
    (s.herdUp l w lanes).get R.LNK_STATUS_STATE l = 2 ∧ (s.herdUp l w lanes).get R.LNK_STATUS_WIDTH l = w ∧
      (s.herdUp l w lanes).get R.LNK_STATUS_LANE_FAIL l = 255 - lanes := by
  have hwidth : w % 2 ^ R.LNK_STATUS_WIDTH.width = w := Nat.mod_eq_of_lt (Nat.lt_of_le_of_lt hw (by decide))
  have hfail : (255 - lanes) % 2 ^ R.LNK_STATUS_LANE_FAIL.width = 255 - lanes :=
    Nat.mod_eq_of_lt (Nat.lt_of_le_of_lt (Nat.sub_le ..) (by decide))
  unfold Hw.herdUp
  simp (disch := decide) only [Hw.drainTx_get_link, Hw.modLink_get, Hw.linkTo_state_link, Hw.linkTo_up_width, Hw.linkTo_get_link,
    Hw.set_get_link, Hw.get_set_same, hwidth, hfail, and_self]

theorem Hw.showPeer_shows {dev peerLink : Nat} (hdev : dev < 65536) (hlink : peerLink < 32) :
    (s.showPeer l dev peerLink).get R.LNK_PEER_PEER_DEV l = dev ∧ (s.showPeer l dev peerLink).get R.LNK_PEER_PEER_LINK l = peerLink := by
  have hd : dev % 2 ^ R.LNK_PEER_PEER_DEV.width = dev := Nat.mod_eq_of_lt hdev
  have hp : peerLink % 2 ^ R.LNK_PEER_PEER_LINK.width = peerLink := Nat.mod_eq_of_lt hlink
  unfold Hw.showPeer
  simp (disch := decide) only [Hw.set_get_link, Hw.get_set_same, hd, hp, and_self]

theorem Hw.herdUp_get_link {f : Fld} (w lanes : Nat) (hf : f.id ≠ R.LNK_STATUS_WIDTH.id ∧ f.id ≠ R.LNK_STATUS_LANE_FAIL.id)
    (hlink : f.id ∉ (linkKeys 0).map (· / 65536)) (htx : f.id ≠ R.ZLT_TX_PKTS_PKTS.id ∧ f.id ≠ R.LNK_TX_BYTES_BYTES.id) :
    (s.herdUp l w lanes).get f l = s.get f l := by
  unfold Hw.herdUp
  rw [Hw.drainTx_get_link _ _ htx, Hw.modLink_get, Hw.linkTo_get_link _ _ _ hlink, Hw.set_get_link _ _ _ hf.2, Hw.set_get_link _ _ _ hf.1]

theorem Hw.networkUp_shows (split : Bool) :
    (s.networkUp l split).get R.LNK_STATUS_STATE l = 2 ∧ (s.networkUp l split).get R.LNK_STATUS_WIDTH l = 8 ∧
      (s.networkUp l split).get R.LNK_STATUS_LANE_FAIL l = 0 ∧
      (s.networkUp l split).get R.LNK_STATUS_SPLIT l = if split then 1 else 0 := by
  have hwidth : 8 % 2 ^ R.LNK_STATUS_WIDTH.width = 8 := rfl
  have hsplit : (if split then 1 else 0) % 2 ^ R.LNK_STATUS_SPLIT.width = if split then 1 else 0 := by cases split <;> rfl
  unfold Hw.networkUp
  simp (disch := decide) only [Hw.drainTx_get_link, Hw.linkTo_state_link, Hw.linkTo_up_width, Hw.linkTo_get_link, Hw.set_get_link,
    Hw.get_set_same, Nat.zero_mod, hwidth, hsplit, and_self]

end

theorem Hw.showPeer_regs {ks : List Nat} (s : Hw) (l dev peerLink : Nat) (hdev : R.LNK_PEER_PEER_DEV.key l ∈ ks)
    (hlink : R.LNK_PEER_PEER_LINK.key l ∈ ks) : Hw.RegsBut ks s (s.showPeer l dev peerLink) :=
  (Hw.regsBut_set s _ _ _ hdev).set _ hlink

theorem Hw.herdUp_regs (s : Hw) (l w lanes : Nat) :
    Hw.RegsBut (R.LNK_STATUS_LANE_FAIL.key l :: (linkKeys l ++ txKeys)) s (s.herdUp l w lanes) := by
  have hset := (Hw.regsBut_set (ks := R.LNK_STATUS_LANE_FAIL.key l :: (linkKeys l ++ txKeys)) s R.LNK_STATUS_WIDTH l w
    (by simp [linkKeys])).set (f := R.LNK_STATUS_LANE_FAIL) (i := l) (255 - lanes) (by simp)
  exact ((hset.linkTo l 2 (by simp +contextual)).of_regs_eq (Hw.modLink_regs ..)).drainTx (by simp +contextual)

theorem Hw.networkUp_regs (s : Hw) (l : Nat) (split : Bool) :
    Hw.RegsBut ([R.LNK_STATUS_LANE_FAIL.key l, R.LNK_STATUS_SPLIT.key l] ++ linkKeys l ++ txKeys) s (s.networkUp l split) := by
  have hset := ((Hw.regsBut_set (ks := [R.LNK_STATUS_LANE_FAIL.key l, R.LNK_STATUS_SPLIT.key l] ++ linkKeys l ++ txKeys) s
    R.LNK_STATUS_WIDTH l 8 (by simp [linkKeys])).set (f := R.LNK_STATUS_SPLIT) (i := l) (if split then 1 else 0) (by simp)).set
    (f := R.LNK_STATUS_LANE_FAIL) (i := l) 0 (by simp)
  exact (hset.linkTo l 2 (by simp +contextual)).drainTx (by simp +contextual)

@[simp] theorem Hw.herdUp_mgt (s : Hw) (l w lanes : Nat) : (s.herdUp l w lanes).mgt = s.mgt := by
  unfold Hw.herdUp
  rw [(Hw.drainTx_keeps _).mgt, Hw.modLink_mgt, Hw.linkTo_mgt, Hw.set_mgt, Hw.set_mgt]

/-! ## Training without an end, a retry and a RETRAIN write (R267, R273) -/

theorem execLinkTrainTimeout_of_training {l : LinkId} {s : State} (htrain : s.hw.get R.LNK_STATUS_STATE l = 1) :
    execLinkTrainTimeout l s = .next { s with hw := (s.hw.reach ((s.hw.link l).since + 2000000)).linkDown l 1 } := by
  unfold execLinkTrainTimeout State.onHw
  dsimp only
  rw [if_pos htrain]

theorem execLinkRetry_of_down {l : LinkId} {s : State} {p : PortDef} (hdown : s.hw.get R.LNK_STATUS_STATE l = 4)
    (hport : s.hw.portOf l = some p) :
    execLinkRetry l s = .next { s with hw := (s.hw.reach ((s.hw.link l).since + 10000000)).linkTo l 1 } := by
  unfold execLinkRetry State.onHw
  dsimp only
  rw [if_pos ⟨hdown, by rw [hport]; rfl⟩]

theorem Hw.linkRetrain_of_enabled {s : Hw} {l : LinkId} (hon : s.get R.LNK_STATUS_STATE l ≠ 0) :
    s.linkRetrain l = ((s.set R.LNK_CTRL_RETRAIN l 0).linkTo l (if s.get R.LNK_STATUS_STATE l = 2 then 3 else 1)).modLink l
      fun x => { x with target := 8 } := by
  unfold Hw.linkRetrain
  dsimp only
  rw [Hw.set_get_link _ _ _ (by decide), if_neg hon]

/-! ## The statement of training -/

/-- Settles O25: each of the six commands is a chain of register writes around a link that enters a state, and a drain of the transmit
queue where it comes UP. -/
theorem linkTraining : Obligations.LinkTraining := by
  unfold Obligations.LinkTraining
  refine ⟨fun l lanes peerDev peerLink split s p w hport hherd htrain hreset hother hw => ?other,
    fun l lanes peerDev peerLink split s p hport hherd htrain hself => ?self,
    fun l lanes peerDev peerLink split s p hport hnet htrain hlanes => ?network, fun l s htrain => ?timeout,
    fun l s p hdown hport => ?retry, fun l s hup hon => ?retrain⟩
  case other =>
    obtain ⟨hstate, hwidth, hfail⟩ := (s.hw.showPeer l peerDev.toNat peerLink).herdUp_shows l (le_eight_of_find? hw)
    obtain ⟨hdev, hlink⟩ := s.hw.showPeer_shows l peerDev.isLt peerLink.isLt
    refine ⟨_, execLinkTrained_of_other hport hherd htrain hreset hother hw, hstate, hwidth, hfail, ?_, ?_, Hw.herdUp_mgt .., State.frame_of_regsBut ?_⟩
    · rw [Hw.herdUp_get_link _ _ _ _ (by decide) (by decide) (by decide), hdev]
    · rw [Hw.herdUp_get_link _ _ _ _ (by decide) (by decide) (by decide), hlink]
    · exact (Hw.showPeer_regs s.hw l _ _ (by simp) (by simp)).trans ((Hw.herdUp_regs _ l w lanes).mono (by simp +contextual))
  case self =>
    obtain ⟨hdev, hlink⟩ := s.hw.showPeer_shows l peerDev.isLt peerLink.isLt
    refine ⟨_, execLinkTrained_of_self hport hherd htrain hself, Hw.linkDown_state_link .., Hw.linkDown_width .., ?_, ?_, ?_, State.frame_of_regsBut ?_⟩
    · rw [Hw.linkDown_count_link, Hw.showPeer, Hw.set_get_link _ _ _ (by decide), Hw.set_get_link _ _ _ (by decide)]
    · rw [Hw.linkDown_get_link _ _ _ (by decide), hdev]
    · rw [Hw.linkDown_get_link _ _ _ (by decide), hlink]
    · exact (Hw.showPeer_regs s.hw l _ _ (by simp) (by simp)).linkDown l 2 (by simp) (by simp +contextual) (by simp +contextual)
  case network =>
    obtain ⟨hstate, hwidth, hfail, hsplit⟩ := s.hw.networkUp_shows l split
    exact ⟨_, execLinkTrained_of_network hport hnet htrain hlanes, hstate, hwidth, hfail, hsplit, State.frame_of_regsBut (s.hw.networkUp_regs l split)⟩
  case timeout =>
    refine ⟨_, execLinkTrainTimeout_of_training htrain, Hw.linkDown_state_link .., Hw.linkDown_count_link .., ?_, State.frame_of_regsBut ?_⟩
    · rw [Hw.linkDown_clk, Hw.reach_clk]
    · exact (Hw.regsBut_reach _ s.hw _).linkDown l 1 (by simp) (by simp +contextual) (by simp +contextual)
  case retry =>
    refine ⟨_, execLinkRetry_of_down hdown hport, Hw.linkTo_state_link .., ?_, ?_, ?_, State.frame_of_regsBut ?_⟩
    · rw [Hw.linkTo_clk, Hw.reach_clk]
    · rw [Hw.linkTo_link, Hw.linkTo_clk]
    · rw [Hw.linkTo_link, Hw.reach_link]
    · exact (Hw.regsBut_reach _ s.hw _).linkTo l 1 (by simp +contextual)
  case retrain =>
    have hnew : (if s.hw.get R.LNK_STATUS_STATE l = 2 then 3 else 1) ≠ 2 := by split <;> decide
    refine ⟨_, State.byHostHw_of_hostUp (·.linkRetrain l) hup, ?_⟩
    rw [Hw.linkRetrain_of_enabled hon]
    refine ⟨?_, ?_, ?_, ?_, State.frame_of_regsBut ?_⟩
    · rw [Hw.modLink_get, Hw.linkTo_state_link]
      split <;> rfl
    · rw [Hw.modLink_get, Hw.linkTo_width _ _ hnew]
    · rw [Hw.modLink_get, Hw.linkTo_get_link _ _ _ (by decide), Hw.get_set_same, Nat.zero_mod]
    · rw [Hw.link_modLink]
    · exact ((Hw.regsBut_set s.hw R.LNK_CTRL_RETRAIN l 0 (by simp)).linkTo l _ (by simp +contextual)).of_regs_eq (Hw.modLink_regs ..)

end Sys2Proof.Machine
end

section
/-! SUPPORT. The statements of links (10_herd_links.md), continued: lane failures, hangs, credits, FEC counts and the routing commit. -/

namespace Sys2Proof.Machine

/-! ## Lane failures (R273) -/

/-- Only the low `w` bits count. -/
theorem popcount_mod_two_pow (w v : Nat) : popcount w (v % 2 ^ w) = popcount w v := by
  induction w generalizing v with
  | zero => rfl
  | succ w ih =>
    have hlow : v % 2 ^ (w + 1) % 2 = v % 2 := Nat.mod_mod_of_dvd v ⟨2 ^ w, Nat.pow_succ'⟩
    have hhigh : v % 2 ^ (w + 1) / 2 = v / 2 % 2 ^ w := by rw [Nat.pow_succ', Nat.mod_mul_right_div_self]
    rw [popcount, popcount, hlow, hhigh, ih]

/-- The link with one more lane noted as failed. -/
def Hw.failLane (s : Hw) (l lane : Nat) : Hw := s.set R.LNK_STATUS_LANE_FAIL l (s.get R.LNK_STATUS_LANE_FAIL l ||| 2 ^ lane)

/-- A herd-mode link sent to RETRAIN at the lower width `v`, counted and recorded. -/
def Hw.degradeLink (s : Hw) (l lane v : Nat) : Hw :=
  ((((s.linkTo l 3).modLink l fun x => { x with target := v }).inc R.LNK_EVENTS_DEGRADE l).log E.LINK_DEGRADE
    { kind := 7, unit := l, detail := lane + 256 * v }).msi 0 3

/-- A network-mode link of two interfaces that keeps the four lanes of one. -/
def Hw.halveLink (s : Hw) (l : Nat) : Hw :=
  (((s.set R.LNK_STATUS_WIDTH l 4).inc R.LNK_EVENTS_DOWN l).log E.LINK_DOWN { kind := 7, unit := l, detail := 3 }).msi 0 3

/-- A network-mode link that loses the interface of a lane: of two interfaces one stays. -/
def Hw.loseInterface (s : Hw) (l : Nat) : Hw :=
  if s.is R.LNK_STATUS_SPLIT l = true ∧ s.get R.LNK_STATUS_WIDTH l = 8 then s.halveLink l else s.linkDown l 3

section
variable (s : Hw) (l : LinkId)

theorem Hw.failLane_get_link (lane : Nat) {f : Fld} (h : f.id ≠ R.LNK_STATUS_LANE_FAIL.id) : (s.failLane l lane).get f l = s.get f l :=
  s.set_get_link l _ h

theorem Hw.failLane_lanes (lane : Nat) :
    (s.failLane l lane).get R.LNK_STATUS_LANE_FAIL l = (s.get R.LNK_STATUS_LANE_FAIL l ||| 2 ^ lane) % 256 := Hw.get_set_same ..

theorem Hw.degradeLink_shows (lane v : Nat) :
    (s.degradeLink l lane v).get R.LNK_STATUS_STATE l = 3 ∧
      (s.degradeLink l lane v).get R.LNK_STATUS_LANE_FAIL l = s.get R.LNK_STATUS_LANE_FAIL l ∧ ((s.degradeLink l lane v).link l).target = v ∧
      (s.degradeLink l lane v).get R.LNK_EVENTS_DEGRADE l = min (s.get R.LNK_EVENTS_DEGRADE l + 1) 65535 := by
  unfold Hw.degradeLink
  refine ⟨?_, ?_, ?_, ?_⟩
  · simp (disch := decide) only [Hw.msi_get, Hw.log_get_link, Hw.inc_get_link, Hw.modLink_get, Hw.linkTo_state_link]
  · simp (disch := decide) only [Hw.msi_get, Hw.log_get_link, Hw.inc_get_link, Hw.modLink_get, Hw.linkTo_get_link]
  · rw [Hw.msi_link, Hw.log_link, Hw.inc_link, Hw.link_modLink]
  · simp (disch := decide) only [Hw.msi_get, Hw.log_get_link, Hw.get_inc_same, Hw.modLink_get, Hw.linkTo_get_link]
    rfl

theorem Hw.halveLink_shows :
    (s.halveLink l).get R.LNK_STATUS_STATE l = s.get R.LNK_STATUS_STATE l ∧ (s.halveLink l).get R.LNK_STATUS_WIDTH l = 4 ∧
      (s.halveLink l).get R.LNK_STATUS_LANE_FAIL l = s.get R.LNK_STATUS_LANE_FAIL l ∧
      (s.halveLink l).get R.LNK_EVENTS_DOWN l = min (s.get R.LNK_EVENTS_DOWN l + 1) 65535 := by
  unfold Hw.halveLink
  refine ⟨?_, ?_, ?_, ?_⟩ <;>
    simp (disch := decide) only [Hw.msi_get, Hw.log_get_link, Hw.inc_get_link, Hw.get_inc_same, Hw.set_get_link, Hw.get_set_same]
  all_goals rfl

end

section
variable {ks : List Nat} {s t : Hw} {l : LinkId} (h : Hw.RegsBut ks s t)
include h

theorem Hw.RegsBut.failLane (lane : Nat) (hk : R.LNK_STATUS_LANE_FAIL.key l ∈ ks) : Hw.RegsBut ks s (t.failLane l lane) := h.set _ hk

theorem Hw.RegsBut.degradeLink (lane v : Nat) (hk : R.LNK_EVENTS_DEGRADE.key l ∈ ks) (hlink : ∀ x ∈ linkKeys l, x ∈ ks)
    (hlog : ∀ x ∈ logKeys, x ∈ ks) : Hw.RegsBut ks s (t.degradeLink l lane v) :=
  ((((h.linkTo l 3 hlink).of_regs_eq (Hw.modLink_regs ..)).inc 1 hk).log _ _ hlog).msi 0 3

theorem Hw.RegsBut.halveLink (hk : R.LNK_EVENTS_DOWN.key l ∈ ks) (hlink : ∀ x ∈ linkKeys l, x ∈ ks) (hlog : ∀ x ∈ logKeys, x ∈ ks) :
    Hw.RegsBut ks s (t.halveLink l) := (((h.set 4 (hlink _ (by simp [linkKeys]))).inc 1 hk).log _ _ hlog).msi 0 3

end

section
variable {l : LinkId} {lane : Fin 8} {s : State}

/-- LANE_FAIL of a herd-mode link, by the next lower width that its healthy lanes allow. -/
theorem execLaneFail_of_herd (hup : s.hw.get R.LNK_STATUS_STATE l = 2) (hherd : s.hw.get R.LNK_STATUS_MODE l = 0) {o : Option Nat}
    (ho : ([8, 6, 4, 2, 1].find? fun v => decide (v < s.hw.get R.LNK_STATUS_WIDTH l) &&
      decide (v + popcount 8 (s.hw.get R.LNK_STATUS_LANE_FAIL l ||| 2 ^ lane.val) ≤ 8)) = o) :
    execLaneFail l lane s = .next { s with hw := match o with
      | none => (s.hw.failLane l lane).linkDown l 3
      | some v => (s.hw.failLane l lane).degradeLink l lane v } := by
  have hmode : ¬(s.hw.failLane l lane).get R.LNK_STATUS_MODE l = 1 := by
    rw [Hw.failLane_get_link _ _ _ (by decide), hherd]
    decide
  have hcount : popcount 8 ((s.hw.failLane l lane).get R.LNK_STATUS_LANE_FAIL l) =
      popcount 8 (s.hw.get R.LNK_STATUS_LANE_FAIL l ||| 2 ^ lane.val) := by
    rw [Hw.failLane_lanes]
    exact popcount_mod_two_pow 8 _
  rw [← hcount] at ho
  unfold Hw.failLane at hmode ho
  unfold execLaneFail State.onHw widths
  dsimp only
  rw [if_neg (not_not_intro hup), if_neg hmode, ho]
  cases o <;> rfl

/-- LANE_FAIL of a network-mode link: of two interfaces one stays. -/
theorem execLaneFail_of_network (hup : s.hw.get R.LNK_STATUS_STATE l = 2) (hnet : s.hw.get R.LNK_STATUS_MODE l = 1) :
    execLaneFail l lane s = .next { s with hw := (s.hw.failLane l lane).loseInterface l } := by
  have hmode : (s.hw.failLane l lane).get R.LNK_STATUS_MODE l = 1 := by rw [Hw.failLane_get_link _ _ _ (by decide), hnet]
  have hwidth : s.hw.get R.LNK_STATUS_WIDTH l = (s.hw.failLane l lane).get R.LNK_STATUS_WIDTH l := by
    rw [Hw.failLane_get_link _ _ _ (by decide)]
  unfold Hw.failLane at hmode hwidth
  unfold execLaneFail State.onHw
  dsimp only
  rw [if_neg (not_not_intro hup), if_pos hmode, hwidth]
  rfl

end

/-! ## Hangs (R284) -/

/-- A hang of a link seen, counted and recorded at the end of its watchdog's time. -/
def Hw.hangSeen (s : Hw) (l : Nat) : Hw :=
  let h := s.reach (s.quietFrom l + 100 * s.get R.ZLT_TWD_TWD_US)
  ((h.inc R.LNK_HANG_HANGS l).log E.LINK_HANG { kind := 7, unit := l }).modLink l fun x => { x with hung := some h.clk.now }

/-- Whether a link's last hang lies less than a second before the instant `now`. -/
def Hw.hungLately (s : Hw) (l now : Nat) : Bool := match (s.link l).hung with
  | some t => decide (now < t + 100000000)
  | none => false

section
variable (s : Hw) (l : LinkId)

theorem Hw.hangSeen_now : (s.hangSeen l).clk.now = max s.clk.now (s.quietFrom l + 100 * s.get R.ZLT_TWD_TWD_US) := by
  unfold Hw.hangSeen
  rw [Hw.modLink_clk, Hw.log_clk, Hw.inc_clk, Hw.reach_clk]

theorem Hw.hangSeen_link : (s.hangSeen l).link l = { s.link l with hung := some (s.hangSeen l).clk.now } := by
  rw [Hw.hangSeen_now]
  unfold Hw.hangSeen
  rw [Hw.link_modLink, Hw.log_link, Hw.inc_link, Hw.reach_link, Hw.reach_clk]

theorem Hw.hangSeen_get_link {f : Fld} (hf : f.id ≠ R.LNK_HANG_HANGS.id) (hlog : f.id ∉ logKeys.map (· / 65536)) :
    (s.hangSeen l).get f l = s.get f l := by
  unfold Hw.hangSeen
  rw [Hw.modLink_get, Hw.log_get_link _ _ _ _ hlog, Hw.inc_get_link _ _ _ hf, Hw.reach_get]

theorem Hw.hangSeen_count : (s.hangSeen l).get R.LNK_HANG_HANGS l = min (s.get R.LNK_HANG_HANGS l + 1) 65535 := by
  unfold Hw.hangSeen
  rw [Hw.modLink_get, Hw.log_get_link _ _ _ _ (by decide), Hw.get_inc_same, Hw.reach_get]
  rfl

/-- A link of known width comes back no wider. -/
theorem Hw.keepWidth_link : (s.keepWidth l).link l =
    { s.link l with target := if s.get R.LNK_STATUS_WIDTH l = 0 then (s.link l).target else s.get R.LNK_STATUS_WIDTH l } := Hw.link_modLink ..

theorem Hw.linkDown_link (cause : Nat) :
    (s.linkDown l cause).link l = { (s.keepWidth l).link l with since := s.clk.now, credit := [0, 0, 0] } := by
  unfold Hw.linkDown
  rw [Hw.msi_link, Hw.log_link, Hw.inc_link, Hw.linkTo_link, Hw.keepWidth_clk]

end

theorem Hw.RegsBut.hangSeen {ks : List Nat} {s t : Hw} (h : Hw.RegsBut ks s t) (l : Nat) (hk : R.LNK_HANG_HANGS.key l ∈ ks)
    (hlog : ∀ x ∈ logKeys, x ∈ ks) : Hw.RegsBut ks s (t.hangSeen l) :=
  (((h.of_regs_eq (Hw.reach_regs ..)).inc 1 hk).log _ _ hlog).of_regs_eq (Hw.modLink_regs ..)

/-- What a hang of a herd-mode link leads to: DOWN or RETRAIN, at the instant of the hang, no wider. -/
def Hw.afterHang (s : Hw) (l : Nat) (down : Bool) : Hw := if down then s.linkDown l 4 else (s.keepWidth l).linkTo l 3

theorem Hw.afterHang_shows (s : Hw) (l : LinkId) (down : Bool) :
    (s.afterHang l down).get R.LNK_STATUS_STATE l = (if down then 4 else 3) ∧ (s.afterHang l down).clk = s.clk ∧
      (s.afterHang l down).get R.LNK_HANG_HANGS l = s.get R.LNK_HANG_HANGS l ∧
      (s.afterHang l down).link l = { (s.keepWidth l).link l with since := s.clk.now, credit := [0, 0, 0] } := by
  unfold Hw.afterHang
  cases down
  · simp only [Bool.false_eq_true, if_false]
    exact ⟨Hw.linkTo_state_link .., Hw.linkTo_clk .., Hw.linkTo_get_link _ _ _ (by decide), Hw.linkTo_link ..⟩
  · simp only [if_true]
    exact ⟨Hw.linkDown_state_link .., Hw.linkDown_clk .., Hw.linkDown_get_link _ _ _ (by decide), Hw.linkDown_link ..⟩

theorem Hw.RegsBut.afterHang {ks : List Nat} {s t : Hw} (h : Hw.RegsBut ks s t) (l : Nat) (down : Bool) (hdown : R.LNK_EVENTS_DOWN.key l ∈ ks)
    (hlink : ∀ x ∈ linkKeys l, x ∈ ks) (hlog : ∀ x ∈ logKeys, x ∈ ks) : Hw.RegsBut ks s (t.afterHang l down) := by
  unfold Hw.afterHang
  split
  · exact h.linkDown l 4 hdown hlink hlog
  · exact (h.of_regs_eq (Hw.keepWidth_regs ..)).linkTo l 3 hlink

section
variable {l : LinkId} {s : State}

theorem execLinkHang_of_network (hup : s.hw.get R.LNK_STATUS_STATE l = 2) (hnet : s.hw.get R.LNK_STATUS_MODE l = 1) :
    execLinkHang l s = .next { s with hw := (s.hw.hangSeen l).linkDown l 4 } := by
  unfold execLinkHang State.onHw
  simp only [hup, hnet, ne_eq, not_true_eq_false, beq_self_eq_true, Bool.true_or, Bool.or_true, Bool.not_true, Bool.false_eq_true, or_self,
    if_false, if_true]
  rfl

theorem execLinkHang_of_herd (hup : s.hw.get R.LNK_STATUS_STATE l = 2) (hherd : s.hw.get R.LNK_STATUS_MODE l = 0)
    (hwait : s.hw.linkWaiting l = true) :
    execLinkHang l s = .next { s with hw := (s.hw.hangSeen l).afterHang l (s.hw.hungLately l (s.hw.hangSeen l).clk.now) } := by
  have hnet : (s.hw.get R.LNK_STATUS_MODE l == 1) = false := by rw [hherd]; rfl
  rw [Hw.hangSeen_now]
  unfold execLinkHang State.onHw
  simp only [hup, hnet, hwait, ne_eq, not_true_eq_false, Bool.or_true, Bool.not_true, Bool.false_eq_true, or_self, if_false, Bool.or_false]
  rfl

end

/-! ## Credits (R272) -/

/-- A link with `n` units of credit of a class back, up to the receiver's 256 KiB. -/
def Hw.credited (s : Hw) (l tc n : Nat) : Hw :=
  (s.hearLink l).modLink l fun x => { x with credit := x.credit.set tc (min 4096 (x.credit.getD tc 0 + n)) }

theorem execLinkCreditRx_of_up {l : LinkId} {tc : Fin 3} {n : BitVec 16} {s : State} (hup : s.hw.get R.LNK_STATUS_STATE l = 2)
    (hherd : s.hw.get R.LNK_STATUS_MODE l = 0) :
    execLinkCreditRx l tc n s = .next { s with hw := (s.hw.credited l tc n.toNat).drainTx } := by
  unfold execLinkCreditRx State.onHw
  dsimp only
  rw [if_pos ⟨hup, hherd⟩]
  rfl

/-- With nothing waiting there is nothing to send. -/
theorem Hw.drainTx_of_txq_nil {s : Hw} (h : s.dev.txq = []) : s.drainTx = s := by
  have hsame : ({ s with dev.txq := [] } : Hw) = s := by rw [← h]
  have hclass : ∀ tc, Hw.drainClass tc s.dev.txq [] { s with dev.txq := [] } = s := fun tc => by rw [h, Hw.drainClass, hsame]
  simp only [Hw.drainTx, Hw.each, List.foldl_cons, List.foldl_nil, hclass]

theorem execFecUncorrectable_of_up {l : LinkId} {s : State} (hup : s.hw.get R.LNK_STATUS_STATE l = 2) :
    execFecUncorrectable l s = .next { s with hw := s.hw.inc R.LNK_FEC_UNCORR_UNCORR l } := by
  unfold execFecUncorrectable State.onHw
  dsimp only
  rw [if_pos hup]

/-! ## The statement of link faults -/

/-- Settles O26: each command is a chain of register writes around a link that enters a state, and the credits that come back let the
transmit queue drain. -/
theorem linkFaults : Obligations.LinkFaults := by
  unfold Obligations.LinkFaults
  refine ⟨fun l lane s v hup hherd hv => ?narrower, fun l lane s hup hherd hwidth => ?noLane, fun l lane s hup hnet => ?interface,
    fun l s hup hnet => ?hangNetwork, fun l s hup hherd hwait => ?hangHerd, fun l tc n s hup hherd hempty => ?creditIdle,
    fun l tc n s hup hherd => ?credit, fun l s hup => ?fec, fun s hup => ?route⟩
  case narrower =>
    obtain ⟨hstate, hlanes, htarget, hcount⟩ := (s.hw.failLane l lane).degradeLink_shows l lane v
    rw [Hw.failLane_lanes] at hlanes
    rw [Hw.failLane_get_link _ _ _ (by decide)] at hcount
    refine ⟨_, execLaneFail_of_herd hup hherd hv, hstate, hlanes, htarget, hcount, State.frame_of_regsBut ?_⟩
    exact ((Hw.RegsBut.refl _ s.hw).failLane lane (by simp)).degradeLink lane v (by simp) (by simp +contextual) (by simp +contextual)
  case noLane =>
    have hnone : ([8, 6, 4, 2, 1].find? fun v => decide (v < s.hw.get R.LNK_STATUS_WIDTH l) &&
        decide (v + popcount 8 (s.hw.get R.LNK_STATUS_LANE_FAIL l ||| 2 ^ lane.val) ≤ 8)) = none := by
      have hle : ∀ v ∈ [8, 6, 4, 2, 1], ¬v < s.hw.get R.LNK_STATUS_WIDTH l := by
        simp only [List.mem_cons, List.not_mem_nil, or_false]
        omega
      exact List.find?_eq_none.mpr fun v hv => by simp [hle v hv]
    refine ⟨_, execLaneFail_of_herd hup hherd hnone, Hw.linkDown_state_link .., ?_, ?_, State.frame_of_regsBut ?_⟩
    · rw [Hw.linkDown_get_link _ _ _ (by decide), Hw.failLane_lanes]
    · rw [Hw.linkDown_count_link, Hw.failLane_get_link _ _ _ (by decide)]
    · exact ((Hw.RegsBut.refl _ s.hw).failLane lane (by simp)).linkDown l 3 (by simp) (by simp +contextual) (by simp +contextual)
  case interface =>
    have hlanes := s.hw.failLane_lanes l lane
    have hget : ∀ {f : Fld}, f.id ≠ R.LNK_STATUS_LANE_FAIL.id → (s.hw.failLane l lane).get f l = s.hw.get f l := s.hw.failLane_get_link l lane
    have hregs := (Hw.RegsBut.refl ([R.LNK_STATUS_LANE_FAIL.key l, R.LNK_EVENTS_DOWN.key l] ++ logKeys ++ linkKeys l) s.hw).failLane (l := l)
      lane (by simp)
    refine ⟨_, execLaneFail_of_network hup hnet, ?_⟩
    unfold Hw.loseInterface
    rw [Hw.is, hget (by decide), hget (by decide), ← Hw.is]
    by_cases htwo : s.hw.is R.LNK_STATUS_SPLIT l = true ∧ s.hw.get R.LNK_STATUS_WIDTH l = 8
    · obtain ⟨hstate, hwidth, hfail, hcount⟩ := (s.hw.failLane l lane).halveLink_shows l
      rw [hget (by decide)] at hstate hcount
      rw [if_pos htwo, if_pos htwo]
      exact ⟨hcount, hfail.trans hlanes, ⟨hstate.trans hup, hwidth⟩,
        State.frame_of_regsBut (hregs.halveLink (by simp) (by simp +contextual) (by simp +contextual))⟩
    · rw [if_neg htwo, if_neg htwo]
      refine ⟨?_, ?_, ⟨Hw.linkDown_state_link .., Hw.linkDown_width ..⟩,
        State.frame_of_regsBut (hregs.linkDown l 3 (by simp) (by simp +contextual) (by simp +contextual))⟩
      · rw [Hw.linkDown_count_link, hget (by decide)]
      · rw [Hw.linkDown_get_link _ _ _ (by decide), hlanes]
  case hangNetwork =>
    refine ⟨_, execLinkHang_of_network hup hnet, ?_, Hw.linkDown_state_link .., ?_, ?_, State.frame_of_regsBut ?_⟩
    · rw [Hw.linkDown_get_link _ _ _ (by decide), Hw.hangSeen_count]
    · rw [Hw.linkDown_count_link, Hw.hangSeen_get_link _ _ (by decide) (by decide)]
    · rw [Hw.linkDown_clk, Hw.hangSeen_now]
    · exact ((Hw.RegsBut.refl _ s.hw).hangSeen l (by simp) (by simp +contextual)).linkDown l 4 (by simp) (by simp +contextual)
        (by simp +contextual)
  case hangHerd =>
    obtain ⟨hstate, hclk, hcount, hlink⟩ :=
      (s.hw.hangSeen l).afterHang_shows l (s.hw.hungLately l (s.hw.hangSeen l).clk.now)
    rw [Hw.hangSeen_count] at hcount
    rw [Hw.keepWidth_link, Hw.hangSeen_link, Hw.hangSeen_get_link _ _ (by decide) (by decide)] at hlink
    refine ⟨_, execLinkHang_of_herd hup hherd hwait, hcount, fun hfirst => ?_, ?_, fun t0 hagain => ?_, ?_, fun hw => ?_, State.frame_of_regsBut ?_⟩
    · rw [hstate, Hw.hungLately, hfirst]
      rfl
    · rw [hclk, Hw.hangSeen_now]
    · rw [hstate, hclk, Hw.hungLately, hagain]
      simp only [decide_eq_true_eq]
    · rw [hlink, hclk]
    · rw [hlink, if_neg hw]
    · exact ((Hw.RegsBut.refl _ s.hw).hangSeen l (by simp) (by simp +contextual)).afterHang l _ (by simp) (by simp +contextual)
        (by simp +contextual)
  case creditIdle =>
    have hidle : (s.hw.credited l tc n.toNat).dev.txq = [] := hempty
    refine ⟨_, execLinkCreditRx_of_up hup hherd, ?_⟩
    rw [Hw.drainTx_of_txq_nil hidle]
    exact ⟨congrArg LinkSt.credit (Hw.link_modLink ..), rfl, State.frame_of_regsBut (.refl _ s.hw)⟩
  case credit =>
    have hsent := (s.hw.credited l tc n.toNat).drainTx_keeps
    exact ⟨_, execLinkCreditRx_of_up hup hherd, hsent.mgt, State.frame_of_regsBut hsent.regs⟩
  case fec =>
    exact ⟨_, execFecUncorrectable_of_up hup, Hw.get_inc_same .., State.frame_of_regsBut (Hw.regsBut_inc s.hw _ _ 1 (by simp))⟩
  case route =>
    exact ⟨_, State.byHostHw_of_hostUp (·.set R.LNK_RT_CTRL_COMMIT 0 1) hup, Hw.get_set_same ..,
      State.frame_of_regsBut (Hw.regsBut_set s.hw R.LNK_RT_CTRL_COMMIT 0 1 (by simp))⟩

end Sys2Proof.Machine
end

section
/-! SUPPORT. The statement of yoke pairs (10_herd_links.md): a bulk copy from a loft pool above every scratchpad. -/

namespace Sys2Proof.Machine

/-! ## A bulk copy from a loft pool above every scratchpad (R249, R309) -/

/-- Without a yoke nothing goes to a partner. -/
theorem Hw.sendDirect_of_noYoke {s : Hw} (hyoke : s.NoYoke) (p a : Nat) (bs : Bytes) (mk : Nat → Nat) : s.sendDirect p a bs mk = s :=
  Hw.each_eq_self fun _ _ => by rw [Hw.yokeSend, hyoke]

theorem Hw.modYoke_yokeSt (s : Hw) (p : Nat) (f : YokeSt → YokeSt) (q : Nat) : (s.modYoke p f).yokeSt q = s.yokeSt q := rfl

/-- BULK_COPY_DONE of a pen without contexts whose pool has one page in use, in the loft: the page is read and the next commit number
noted. -/
theorem execBulkCopyDone_of_loftPage {p : PenId} {s : State} {c : KvCfg} {q n : Nat} {r : Run} (hstate : s.hw.yokeSt p = 1)
    (hactive : s.hw.is R.YOK_PEN_STATE_ROLE p = true) (hbulk : (s.hw.pen p).yoke.bulk = none) (hcfg : (s.hw.pen p).kv.cfg = some c)
    (hrefs : (s.hw.pen p).kv.refs = []) (hloft : (s.hw.pen p).kv.loftRef = [(q, n)]) (hctxs : (s.hw.pen p).ctxs = [])
    (hread : Run.fetch { hw := s.hw, mem := s.mem } .device (c.loftPage q) pageSize = r) (hyoke : r.hw.NoYoke) :
    execBulkCopyDone p s = .next { pending := s.pending, hw := r.hw.modYoke p fun y => { y with bulk := some y.nextNo },
                                   mem := s.mem.apply r.posts.reverse } := by
  have hgo : ¬(s.hw.yokeSt p ≠ 1 ∨ (!s.hw.is R.YOK_PEN_STATE_ROLE p) = true ∨ (s.hw.pen p).yoke.bulk.isSome = true) := by
    simp [hstate, hactive, hbulk]
  unfold execBulkCopyDone State.run
  dsimp only
  rw [if_neg hgo, hcfg, hrefs, hloft, hctxs]
  simp only [List.map_nil, List.nil_append, List.map_cons, List.filter_nil, List.flatMap_nil, Run.each, Hw.each, List.foldl_cons, List.foldl_nil,
    Run.memRead, hread, Run.on, Hw.sendDirect_of_noYoke hyoke]

/-- An address above the trough. The model counts a corrected bit error of a scratchpad word there for stall `189 * 65536`, and register
keys are 65,536 a field. -/
def strayPool : Nat := spdBase + 189 * 65536 * spdSlot

theorem spdEccCe_key_strayPool : R.SPD_ECC_CE.key ((strayPool - spdBase) / spdSlot) = R.YOK_PEN_STATE_STATE.key 0 := by decide

/-- A configuration whose loft pool is one granule at `strayPool`. -/
def strayPoolCfg : KvCfg :=
  { pool := 0, poolCnt := 0, loft := (strayPool - loftBase) / granule, loftCnt := 1, pfx := 0, pfxCnt := 0, gKv := 1, maxSpans := 1, lowG := 0,
    highG := 0 }

/-- A device whose pen 0 is SYNCING and active, with that configuration and loft page 0 in use. A word of that page has a single bit
error. -/
def strayBulk : State :=
  { hw := { regs := [(R.YOK_PEN_STATE_STATE.key 0, 1), (R.YOK_PEN_STATE_ROLE.key 0, 1)]
            dev := { softW := [(strayPool / 8, 1)], pens := [(0, { kv := { cfg := some strayPoolCfg, loftRef := [(0, 1)] } })] } } }

/-- The command once it has read the loft page. -/
def strayBulkRead : Run := Run.fetch { hw := strayBulk.hw, mem := strayBulk.mem } .device (strayPoolCfg.loftPage 0) pageSize

/-- The bit error met by that read is counted at the key of YOK_PEN_STATE.STATE of pen 0. -/
theorem strayBulkRead_yokeSt : strayBulkRead.hw.yokeSt 0 = 2 := by
  rw [Hw.yokeSt, Hw.get, ← spdEccCe_key_strayPool]
  decide +kernel

theorem strayBulkRead_noYoke : strayBulkRead.hw.NoYoke := by
  unfold Hw.NoYoke
  decide +kernel

theorem bulkCopyDone_strayBulk_yokeSt {t : State} (h : exec (.bulkCopyDone 0) strayBulk = .next t) : t.hw.yokeSt 0 = 2 := by
  have hexec : exec (.bulkCopyDone 0) strayBulk = execBulkCopyDone 0 strayBulk := rfl
  have hread : Run.fetch { hw := strayBulk.hw, mem := strayBulk.mem } .device (strayPoolCfg.loftPage 0) pageSize = strayBulkRead := rfl
  rw [hexec, execBulkCopyDone_of_loftPage (n := 1) (by decide) (by decide) rfl rfl rfl rfl rfl hread strayBulkRead_noYoke] at h
  obtain rfl := Host.Outcome.next.inj h
  exact (Hw.modYoke_yokeSt ..).trans strayBulkRead_yokeSt

/-- Refutes O29: the loft pool's place is free in the statement. The bulk copy reads every page in use, and the read of one that lies above
every scratchpad can count a bit error at the key of the pen's YOK_PEN_STATE.STATE, which then shows MIRRORED instead of SYNCING.
KVM_APPLY takes only a pool in the pen's loft ranges. -/
theorem not_yokePairing : ¬ Obligations.YokePairing := by
  unfold Obligations.YokePairing
  rintro ⟨-, -, -, -, -, -, -, -, hbulk⟩
  obtain ⟨t, ht, -, hsyncing, -⟩ := hbulk 0 strayBulk (by decide) (by decide) rfl
  have hmirrored := bulkCopyDone_strayBulk_yokeSt ht
  exact absurd (hsyncing.symm.trans hmirrored) (by decide)

end Sys2Proof.Machine
end

section
/-! SUPPORT. The statements of the step itself: one command a step, runs of any length, and the memories after reset. -/

namespace Sys2Proof.Machine

/-- A step answers a next state; where a command waits, the queue is then its rest. -/
theorem step_next_tail (s : State) : ∃ t, step s = .next t ∧ t.pending = s.pending.tail := by
  unfold step
  cases hq : s.pending with
  | nil =>
    refine ⟨_, rfl, ?_⟩
    unfold State.idle
    split <;> simp [hq]
  | cons c rest =>
    obtain ⟨t, -, hexec, hpending, -⟩ := exec_cases c { s with pending := rest }
    exact ⟨t, hexec, hpending⟩

/-- A run of any length answers a next state, and each of its steps has taken the front of the queue. -/
theorem run_next_drop (k : Nat) (s : State) :
    ∃ t : State, Host.Core.run Sys2Proof.core k s = .next t ∧ t.pending = s.pending.drop k := by
  induction k generalizing s with
  | zero => exact ⟨s, rfl, rfl⟩
  | succ k ih =>
    obtain ⟨u, hstep, hu⟩ := step_next_tail s
    obtain ⟨t, hrun, ht⟩ := ih u
    refine ⟨t, ?_, by rw [ht, hu, List.drop_tail]⟩
    have hcore : Sys2Proof.core.step s = .next u := hstep
    simp only [Host.Core.run, hcore]
    exact hrun

/-- Settles O1: a step of a queue with c at its front is exec of c, by the definition of step. -/
theorem stepRunsFrontCommand : Obligations.StepRunsFrontCommand := by
  unfold Obligations.StepRunsFrontCommand
  intro c rest s
  rfl

/-- Settles O4: each step takes one command off the queue, by induction on the number of steps. -/
theorem runsDrainTheQueue : Obligations.RunsDrainTheQueue := by
  unfold Obligations.RunsDrainTheQueue
  intro s
  obtain ⟨t, hrun, ht⟩ := run_next_drop s.pending.length s
  refine ⟨⟨t, hrun, by rw [ht, List.drop_length]⟩, fun k => ?_⟩
  obtain ⟨u, hk, -⟩ := run_next_drop k s
  exact ⟨u, hk⟩

/-- Settles O6: the reset state's memories and queue list nothing. -/
theorem resetMemoryCanonical : Obligations.ResetMemoryCanonical := by
  unfold Obligations.ResetMemoryCanonical
  refine ⟨rfl, fun a => rfl, fun a => rfl, fun l => rfl, rfl⟩

end Sys2Proof.Machine
end

section
/-! SUPPORT. The statements of power (12_power_thermal.md), of fences (13_faults_reset.md) and of functions (15_host_interface.md) that a state
outside their reading refutes. -/

namespace Sys2Proof.Machine

/-! ## Reasons that peg groups note (R292) -/

/-- A command that keeps every register outside `keys` keeps the count shown. -/
theorem laggingCount_kept {keys : List Nat} {t : State} (hkey : R.PEG_GSTATUS_LOCAL_COUNT.key 0 ∉ keys)
    (hregs : Hw.RegsBut keys laggingCount.hw t.hw) : t.hw.get R.PEG_GSTATUS_LOCAL_COUNT 0 = 1 :=
  (hregs.get hkey).trans (by decide)

/-- 4 kW are above the limit, so that the target steps down and every ACTIVE group notes the clocks' new reason. -/
theorem powerMeasure_laggingCount {t : State} (h : exec (.powerMeasure 0 0 4000000) laggingCount = .next t) :
    t.hw.get R.PEG_GSTATUS_LOCAL_COUNT 0 = 0 := by
  obtain rfl := Host.Outcome.next.inj h
  decide +kernel

/-- The clamp's start is a new reason. -/
theorem powerClamp_laggingCount {t : State} (h : exec .powerClamp laggingCount = .next t) :
    t.hw.get R.PEG_GSTATUS_LOCAL_COUNT 0 = 0 := by
  obtain rfl := Host.Outcome.next.inj h
  decide +kernel

/-- SAG_WARN is a new reason. -/
theorem sagWarn_laggingCount {t : State} (h : exec (.sagWarn false) laggingCount = .next t) :
    t.hw.get R.PEG_GSTATUS_LOCAL_COUNT 0 = 0 := by
  obtain rfl := Host.Outcome.next.inj h
  decide +kernel

/-- Refutes O34: a measurement above the limit moves the target, and every ACTIVE peg group then notes its reason and shows its counts
afresh (R292). PEG_GSTATUS.LOCAL_COUNT, which is free in the statement and none of the registers of a measurement, changes. -/
theorem not_measureAndEstimate : ¬ Obligations.MeasureAndEstimate := by
  unfold Obligations.MeasureAndEstimate
  rintro ⟨hmeasure, -⟩
  obtain ⟨t, ht, -, -, -, -, -, -, -, hregs⟩ := hmeasure 0 0 4000000 laggingCount (by decide)
  have hkept := laggingCount_kept (by decide) hregs
  exact absurd (hkept.symm.trans (powerMeasure_laggingCount ht)) (by decide)

/-- Refutes O35: the start of the clamp has every ACTIVE peg group note its reason and show its counts afresh (R292).
PEG_GSTATUS.LOCAL_COUNT, which is free in the statement and none of the registers of a clamp, changes. -/
theorem not_capAndClamp : ¬ Obligations.CapAndClamp := by
  unfold Obligations.CapAndClamp
  rintro ⟨-, -, hclamp, -⟩
  obtain ⟨t, ht, -, -, -, -, -, -, hregs⟩ := hclamp laggingCount (by decide) (by decide)
  have hkept := laggingCount_kept (by decide) hregs
  exact absurd (hkept.symm.trans (powerClamp_laggingCount ht)) (by decide)

/-- Refutes O36: SAG_WARN has every ACTIVE peg group note its reason and show its counts afresh (R292). PEG_GSTATUS.LOCAL_COUNT, which
is free in the statement and none of the registers of SAG_WARN, changes. -/
theorem not_sagWarning : ¬ Obligations.SagWarning := by
  unfold Obligations.SagWarning
  rintro ⟨hsag, -⟩
  obtain ⟨t, ht, -, -, -, -, -, -, -, hregs⟩ := hsag false laggingCount (by decide) (by decide) (by decide)
  have hkept := laggingCount_kept (by decide) hregs
  exact absurd (hkept.symm.trans (sagWarn_laggingCount ht)) (by decide)

/-! ## The entry that an unbounded number names (R351) -/

/-- A running module with port 0 up, VFs 1 and 2 in service, and entry 0 of VF 2's MSI-X table unmasked. -/
def neighbourEntry : State :=
  { hw := { regs := [(R.HIF_PORT_P0_UP.key 0, 1)], mgt := { phase := .run }, dev := { vfs := [(0, 2)], msix := [(2 * 4096, { masked := false })] } } }

/-- Entry 4,096 of VF 1 is entry 0 of VF 2, which a reset of VF 1 keeps. -/
theorem flr_neighbourEntry {t : State} (h : exec (.flr (.vf 1)) neighbourEntry = .next t) : t.hw.msixEntry 1 4096 = { masked := false } := by
  obtain rfl := Host.Outcome.next.inj h
  decide +kernel

/-- Refutes O48: the number of the MSI-X entry is a free natural number in the statement. The model holds the entries of a function under
4,096 keys (a VF has 32 entries, the PF 2,048: R396, R397), and the number 4,096 names the first entry of the next function, which the
reset of its neighbour keeps. -/
theorem not_functionsAndPorts : ¬ Obligations.FunctionsAndPorts := by
  unfold Obligations.FunctionsAndPorts
  rintro ⟨hflr, -⟩
  obtain ⟨t, ht, -, -, hmsix, -⟩ := hflr 1 neighbourEntry (by decide) (by decide)
  exact absurd ((hmsix 4096).symm.trans (flr_neighbourEntry ht)) (by decide)

/-! ## A record saved at the end of a drain (R67, R349) -/

/-- An address above the trough. The model counts a corrected bit error of a scratchpad word there for stall `285 * 65536`, and register
keys are 65,536 a field. -/
def drainAddr : Nat := spdBase + 285 * 65536 * spdSlot

theorem spdEccCe_key_drainAddr : R.SPD_ECC_CE.key ((drainAddr - spdBase) / spdSlot) = R.ERR_PEN_DRAIN_ANSWERED.key 0 := by decide

/-- A running module whose pen 0 is DRAINING with nothing running and no request bound. The record of its resident context 0 is DIRTY and
lies at `drainAddr`, in a word with a single bit error. -/
def strayDrain : State :=
  { hw := { regs := [(R.ERR_PEN_STATE_STATE.key 0, 1)]
            dev := { truss := some onePenTruss, softW := [(drainAddr / 8, 1)], pens := [(0, { ctxs := [(0, { res := .idle, addr := drainAddr })] })] }
            mgt := { phase := .run } }
    mem := { dev := [(drainAddr + 0x0D, 1#8)] } }

/-- The bit error met when the record is saved is counted at the key of ERR_PEN_DRAIN.ANSWERED of pen 0. -/
theorem drainEnd_strayDrain_counts {t : State} (h : exec (.drainEnd 0) strayDrain = .next t) : t.hw.get R.ERR_PEN_DRAIN_ANSWERED 0 = 1 := by
  obtain rfl := Host.Outcome.next.inj h
  rw [Hw.get, ← spdEccCe_key_drainAddr]
  decide +kernel

/-- Refutes O41: the place of a context's record is free in the statement. At the end of a drain a DIRTY record is saved, and the read of
one above every scratchpad can count a bit error at the key of ERR_PEN_DRAIN.ANSWERED, which then exceeds the answered requests. -/
theorem not_fencesGoOn : ¬ Obligations.FencesGoOn := by
  unfold Obligations.FencesGoOn
  rintro ⟨hdrain, -⟩
  obtain ⟨t, ht, -, -, -, -, -, hanswered, -⟩ := hdrain 0 strayDrain (by decide) (by decide) (by decide)
  have hnone : min (strayDrain.hw.get R.ERR_PEN_DRAIN_ANSWERED 0 +
      ((strayDrain.hw.pen 0).bound.length + (strayDrain.hw.pen 0).deferred.length)) 65535 = 0 := by decide
  exact absurd ((drainEnd_strayDrain_counts ht).symm.trans (hanswered.trans hnone)) (by decide)

end Sys2Proof.Machine
end

section
/-! SUPPORT. The management pair (14_management_security.md): what a message heard leaves, and the answers. -/

namespace Sys2Proof.Machine

/-! ## What the sheepdog hears (R364, R381) -/

@[simp] theorem Hw.heard_mgt (s : Hw) (b : Bus) : (s.heard b).mgt = s.mgt := rfl
@[simp] theorem Hw.heard_dev (s : Hw) (b : Bus) : (s.heard b).dev = s.dev := rfl
@[simp] theorem Hw.heard_clk (s : Hw) (b : Bus) : (s.heard b).clk = s.clk := rfl
@[simp] theorem Hw.heard_out (s : Hw) (b : Bus) : (s.heard b).out = s.out := rfl

/-- A message heard sets the mode and is counted; every other register stays. -/
theorem Hw.heard_regsBut (s : Hw) (b : Bus) :
    Hw.RegsBut [R.SDG_MGMT_MODE.key 0, R.SDG_OOB_COUNTS_MCTP_RX.key 0] s (s.heard b) :=
  ((Hw.RegsBut.refl _ s).set _ (by decide)).inc _ (by decide)

theorem Hw.heard_get_fld (s : Hw) (b : Bus) {f : Fld} {i : Nat} (hf : f.id ∉ [R.SDG_MGMT_MODE.id, R.SDG_OOB_COUNTS_MCTP_RX.id]) (hi : i < 65536) :
    (s.heard b).get f i = s.get f i := by
  obtain ⟨hmode, hrx⟩ : f.id ≠ R.SDG_MGMT_MODE.id ∧ f.id ≠ R.SDG_OOB_COUNTS_MCTP_RX.id := by simpa using hf
  rw [Hw.heard, Hw.get_inc_fld _ _ hrx (by decide) hi, Hw.get_set_fld _ _ hmode (by decide) hi]

/-- No sensor shows what the pair counts. -/
@[simp] theorem Hw.heard_sensor (s : Hw) (b : Bus) (id : Nat) : (s.heard b).sensor id = s.sensor id := by
  unfold Hw.sensor
  iterate 2 refine ite_congr rfl (fun _ => congrArg some (s.heard_get_fld b (by decide) (by omega))) fun _ => ?_
  refine ite_congr rfl (fun _ => congrArg some (s.heard_get_fld b (by split <;> decide) (by omega))) fun _ => ?_
  iterate 7 refine ite_congr rfl (fun _ => congrArg some (s.heard_get_fld b (by decide) (by omega))) fun _ => ?_
  rfl

theorem State.onHw_mctp {s : State} {b : Bus} (rom : Bool) (f : Hw → Hw) (hears : s.hw.hearsBus b = true) :
    (s.onHw fun h => h.mctp b rom f) = .next { s with hw := f (s.hw.heard b) } := by
  obtain ⟨hup, hpair⟩ : s.hw.mgt.sdgUp = true ∧ s.hw.pairHears b = true := by simpa [Hw.hearsBus] using hears
  simp [State.onHw, Hw.mctp, hup, hpair, Hw.heard]

/-- A sensor that the sampling commands show is answered as it stands. -/
theorem exec_sensorRead {s : State} {b : Bus} {id v : Nat} (now : Fin 256) (hears : s.hw.hearsBus b = true)
    (hid : ¬(49 ≤ id ∧ id ≤ 56) ∧ id ≠ 60 ∧ id ≠ 61) (hv : s.hw.sensor id = some v) :
    exec (.sensorRead b id now) s = .next { s with hw := (s.hw.heard b).pairAnswer 0x11 Ans.ok (leBytes 4 v) } := by
  obtain ⟨hdie, hin, hout⟩ := hid
  refine (State.onHw_mctp _ _ hears).trans ?_
  simp only [if_neg hdie, if_neg hin, if_neg hout, Hw.heard_sensor, hv]

/-- A die's temperature is taken at the read. -/
theorem Hw.sensor_die (s : Hw) {id v : Nat} (hlo : 49 ≤ id) (hhi : id ≤ 56) (hv : v < 256) :
    (s.set R.THM_DIE_TEMP_C (id - 49) v).sensor id = some v := by
  have hget : (s.set R.THM_DIE_TEMP_C (id - 49) v).get R.THM_DIE_TEMP_C (id - 49) = v :=
    (s.get_set_same _ _ _).trans (Nat.mod_eq_of_lt hv)
  rw [Hw.sensor, if_neg (by omega), if_neg (by omega), if_neg (by omega), if_pos ⟨hlo, hhi⟩, hget]

/-- The register that shows a coolant temperature. -/
def coolantFld (out : Bool) : Fld := if out then R.SDG_COOLANT_OUTLET_C else R.SDG_COOLANT_INLET_C

/-- The body of the sensor event of a crossing: the sensor, the range left and the range entered. -/
def Hw.coolantEvent (s : Hw) (out : Bool) (c : Nat) : Bytes :=
  leBytes 2 (if out then 61 else 60) ++ leBytes 1 (coolantRange out (s.get (coolantFld out))) ++ leBytes 1 (coolantRange out c)

/-- A crossing, once events are enabled, is shown and sent (R415). -/
theorem exec_coolantThreshold {s : State} {out : Bool} {c : Fin 256} (hup : s.hw.mgt.sdgUp = true) (hev : s.hw.mgt.events = true)
    (hcross : coolantRange out (s.hw.get (coolantFld out)) ≠ coolantRange out c.val) :
    exec (.coolantThreshold out c) s = .next { s with hw := (s.hw.set (coolantFld out) 0 c.val).pairAnswer 0x0A Ans.ok (s.hw.coolantEvent out c) } := by
  have hsent : (s.hw.mgt.events && coolantRange out (s.hw.get (coolantFld out)) != coolantRange out c.val) = true := by simp [hev, hcross]
  refine congrArg (fun h => Host.Outcome.next { s with hw := h }) ?_
  exact (if_neg (by simp [hup])).trans (if_pos hsent)

/-- Settles O46: each message is heard, and its meaning then answers on what was heard. -/
theorem managementPair : Obligations.ManagementPair := by
  unfold Obligations.ManagementPair
  refine ⟨?_, ?_, ?_, ?_, ?_, ?_, ?_, ?_, ?_, ?_, ?_, ?_, ?_⟩
  · intro b on s hears
    exact State.onHw_mctp _ _ hears
  · intro b w s hears
    exact State.onHw_mctp _ _ hears
  · intro b id w s hears hid
    exact (State.onHw_mctp _ _ hears).trans (by simp only [if_neg hid])
  · intro b id now v s hears hid hv
    exact exec_sensorRead now hears (by omega) hv
  · intro b id now s hears hlo hhi
    refine (State.onHw_mctp _ _ hears).trans ?_
    simp only [if_pos (And.intro hlo hhi), Hw.sensor_die _ hlo hhi now.isLt]
  · intro b s hears
    refine (State.onHw_mctp _ _ hears).trans ?_
    rw [Hw.heard_get_fld _ _ (by decide) (by decide), Hw.heard_get_fld _ _ (by decide) (by decide), Hw.heard_get_fld _ _ (by decide) (by decide)]
  · intro b off len s hears
    exact State.onHw_mctp _ _ hears
  · intro b off len s hears
    exact State.onHw_mctp _ _ hears
  · intro b eid s hears
    exact State.onHw_mctp _ _ hears
  · intro ad s hears
    obtain ⟨hup, hpair⟩ : s.hw.mgt.sdgUp = true ∧ s.hw.pairHears .i3c = true := by simpa [Hw.hearsBus] using hears
    have hexec : exec (.dynamicAddressAssign ad) s =
        .next { s with hw := (s.hw.set R.SDG_MGMT_MODE 0 2).set R.SDG_MGMT_I3C_DA 0 ad.toNat } := by
      change execDynamicAddressAssign ad s = _
      simp [execDynamicAddressAssign, State.onHw, hup, hpair]
    refine ⟨_, hexec, ?_, ?_, State.frame_of_regsBut (((Hw.RegsBut.refl _ _).set _ (by decide)).set _ (by decide))⟩
    · rw [Hw.get_set_ne _ _ (by decide), Hw.get_set_same]
      rfl
    · exact (Hw.get_set_same _ _ _ _).trans (Nat.mod_eq_of_lt ad.isLt)
  · intro b p s hears hupd hwhole
    have hup : s.hw.mgt.sdgUp = true := (Bool.and_eq_true_iff.mp hears).1
    refine (State.onHw_mctp _ _ hears).trans ?_
    simp only [Hw.pathBusy, Hw.heard_mgt, hupd, hwhole, hup, Bool.not_true, Bool.false_eq_true, if_false, if_true]
    rw [Hw.heard_get_fld _ _ (by decide) (by decide)]
  · intro b u s hears hupd hpldm hbusy hpassed
    refine (State.onHw_mctp _ _ hears).trans ?_
    simp only [Hw.heard_mgt, hupd, hpldm, hbusy, hpassed, Bool.not_true, Bool.false_eq_true, or_self, if_false]
  · intro out c s hup hev hcross
    refine ⟨_, exec_coolantThreshold hup hev hcross, ?_, rfl, rfl, State.frame_of_regsBut ?_⟩
    · refine (Hw.get_set_same _ (coolantFld out) _ _).trans ?_
      cases out <;> exact Nat.mod_eq_of_lt c.isLt
    · exact ((Hw.RegsBut.refl _ _).set _ List.mem_cons_self).of_regs_eq (Hw.emit_regs _ _)

end Sys2Proof.Machine
end

section
/-! SUPPORT. The SPDM responder (14_management_security.md): requests in their order on each transport. -/

namespace Sys2Proof.Machine

/-! ## Requests at the SPDM responder (R381) -/

@[simp] theorem Hw.heardSpdm_mgt (s : Hw) (p : SpdmPort) : (s.heardSpdm p).mgt = s.mgt := by cases p <;> rfl
@[simp] theorem Hw.heardSpdm_dev (s : Hw) (p : SpdmPort) : (s.heardSpdm p).dev = s.dev := by cases p <;> rfl

@[simp] theorem Hw.heardSpdm_spdmSt (s : Hw) (p : SpdmPort) : (s.heardSpdm p).spdmSt p = s.spdmSt p := by simp [Hw.spdmSt]

theorem Hw.heardSpdm_get_fld (s : Hw) (p : SpdmPort) {f : Fld} {i : Nat} (hf : f.id ∉ [R.SDG_MGMT_MODE.id, R.SDG_OOB_COUNTS_MCTP_RX.id])
    (hi : i < 65536) : (s.heardSpdm p).get f i = s.get f i := by
  cases p with
  | mctp b => exact s.heard_get_fld b hf hi
  | doe => rfl

theorem Hw.heardSpdm_debug (s : Hw) (p : SpdmPort) : (s.heardSpdm p).is R.SEC_BOOT_STATUS_DEBUG = s.is R.SEC_BOOT_STATUS_DEBUG := by
  rw [Hw.is, Hw.is, s.heardSpdm_get_fld p (by decide) (by decide)]

/-- No measurement takes in what the pair counts. -/
theorem Hw.heardSpdm_measurement (s : Hw) (p : SpdmPort) (i : Nat) : (s.heardSpdm p).measurement i = s.measurement i := by
  have hkeeps (f : Fld) (hf : f.id ∉ [R.SDG_MGMT_MODE.id, R.SDG_OOB_COUNTS_MCTP_RX.id]) : (s.heardSpdm p).get f = s.get f :=
    s.heardSpdm_get_fld p hf (by decide)
  have hbank : (s.heardSpdm p).bootedBank = s.bootedBank := by
    rw [Hw.bootedBank, Hw.bootedBank, Hw.heardSpdm_mgt, hkeeps R.SEC_BOOT_STATUS_BANK (by decide)]
  unfold Hw.measurement
  rw [hbank, Hw.heardSpdm_mgt, Hw.heardSpdm_dev, hkeeps R.HIF_MODULE_ID_STEPPING (by decide), hkeeps R.HIF_MODULE_ID_VARIANT (by decide),
    hkeeps R.SEC_ARC_ARC (by decide), hkeeps R.SEC_KEY_STATUS_VKEY_REVOKED (by decide), hkeeps R.SEC_BOOT_STATUS_DEBUG (by decide),
    hkeeps R.SEC_KEY_COUNTER_COUNTER (by decide)]

theorem State.next_hw_congr (s : State) {h k : Hw} (heq : h = k) :
    (Host.Outcome.next { s with hw := h } : Host.Outcome State Fault Refusal) = .next { s with hw := k } := by rw [heq]

section Request
variable {s : State} {p : SpdmPort} (hears : s.hw.hearsSpdm p = true)
include hears

theorem State.onHw_spdm (rom : Bool) (f : Hw → Hw) : (s.onHw fun h => h.spdm p rom f) = .next { s with hw := f (s.hw.heardSpdm p) } := by
  cases p with
  | mctp b => exact State.onHw_mctp rom f hears
  | doe =>
    obtain ⟨hlink, hup⟩ : s.hw.hostUp = true ∧ s.hw.mgt.sdgUp = true := by simpa [Hw.hearsSpdm] using hears
    simp [State.onHw, Hw.spdm, hlink, hup, Hw.heardSpdm]

/-- A request in its order runs on what was heard. -/
theorem State.onHw_spdmAt (op : Nat) {stage : Nat} (f : Hw → Hw) (hstage : stage ≤ (s.hw.spdmSt p).stage) :
    (s.onHw fun h => h.spdmAt p op stage f) = .next { s with hw := f (s.hw.heardSpdm p) } := by
  refine (State.onHw_spdm hears _ _).trans ?_
  simp only [Hw.heardSpdm_spdmSt, if_neg (Nat.not_lt.mpr hstage)]

end Request

theorem Hw.signed_of_closed {s : Hw} (p : SpdmPort) (op : Nat) (body : Bytes) (hclosed : s.is R.SEC_BOOT_STATUS_DEBUG = false) :
    s.signed p op body = s.draw.2.spdmAnswer p op Ans.ok (body ++ leBytes 114 s.draw.1) := by
  simp [Hw.signed, hclosed]

theorem Hw.signed_of_open {s : Hw} (p : SpdmPort) (op : Nat) (body : Bytes) (hopen : s.is R.SEC_BOOT_STATUS_DEBUG = true) :
    s.signed p op body = s.spdmAnswer p op Ans.denied [] := by
  simp [Hw.signed, hopen]

/-- Settles O47: each request in its order runs on what was heard, and no state of the responder and no measurement depends on that. -/
theorem spdmResponder : Obligations.SpdmResponder := by
  unfold Obligations.SpdmResponder
  refine ⟨?_, ?_, ?_, ?_, ?_, ?_, ?_, ?_, ?_, ?_, ?_, ?_, ?_, ?_⟩
  · intro p s hears
    exact (State.onHw_spdm hears _ _).trans (by rw [Hw.heardSpdm_spdmSt])
  · intro p s hears hstage
    refine (State.onHw_spdmAt hears _ _ hstage).trans ?_
    cases p <;> rfl
  · intro p s hears hstage
    exact (State.onHw_spdmAt hears _ _ hstage).trans (by rw [Hw.heardSpdm_spdmSt, if_pos rfl])
  · intro p s hears hstage
    exact State.onHw_spdmAt hears _ _ hstage
  · intro p off len s hears hstage
    exact State.onHw_spdmAt hears _ _ hstage
  · intro p sl off len s hears hstage hsl
    exact (State.onHw_spdmAt hears _ _ hstage).trans (by rw [if_neg hsl])
  · intro p s hears hstage hclosed
    refine (State.onHw_spdmAt hears _ _ hstage).trans (s.next_hw_congr ((if_pos rfl).trans ?_))
    exact Hw.signed_of_closed _ _ _ ((s.hw.heardSpdm_debug p).trans hclosed)
  · intro p s hears hstage hopen
    refine (State.onHw_spdmAt hears _ _ hstage).trans (s.next_hw_congr ((if_pos rfl).trans ?_))
    exact Hw.signed_of_open _ _ _ ((s.hw.heardSpdm_debug p).trans hopen)
  · intro p i s hears hstage hlo hhi
    refine (State.onHw_spdmAt hears _ _ hstage).trans ?_
    simp only [if_neg (Nat.ne_of_gt hlo), if_pos hhi, Hw.heardSpdm_measurement, Bool.false_eq_true, if_false]
  · intro s hears hstage hclosed
    exact (State.onHw_spdmAt hears _ _ hstage).trans (by simp only [Hw.heardSpdm, hclosed, Bool.false_eq_true, if_false])
  · intro s hears hstage hsession
    exact (State.onHw_spdmAt hears _ _ hstage).trans (by simp only [Hw.heardSpdm, hsession, if_true])
  · intro s hears hstage hsession
    exact (State.onHw_spdmAt hears _ _ hstage).trans (by simp only [Hw.heardSpdm, hsession, if_true])
  · intro port stream key s hears hsession hport
    refine (State.onHw_spdm hears _ _).trans ?_
    have hserved : ¬((s.hw.spdmSt .doe).session ≠ 2 ∨ (port.val = 1 ∧ (!s.hw.is R.HIF_PORT_BIFUR) = true)) := by simpa [hsession] using hport
    exact s.next_hw_congr (if_neg hserved)
  · intro port stream on x s hears hsession hport hkey
    have hserved : ¬((s.hw.spdmSt .doe).session ≠ 2 ∨ (port.val = 1 ∧ (!s.hw.is R.HIF_PORT_BIFUR) = true)) := by simpa [hsession] using hport
    refine (State.onHw_spdm hears _ _).trans (s.next_hw_congr ((if_neg hserved).trans ?_))
    simp only [Hw.heardSpdm, hkey]
    cases on <;> rfl

end Sys2Proof.Machine
end

section
/-! SUPPORT. The mailbox (14_management_security.md): its commands with no update under way, and the end of a transfer. -/

namespace Sys2Proof.Machine

/-! ## What a raised vector and an answer of the mailbox leave (R398, R399) -/

@[simp] theorem Hw.msi_mgt (s : Hw) (f v : Nat) : (s.msi f v).mgt = s.mgt := by
  unfold Hw.msi
  split
  · rfl
  · dsimp only
    split <;> rfl

/-- What was sent before a vector is raised stays sent. -/
theorem Hw.mem_msi_out {s : Hw} {o : Out} (f v : Nat) (h : o ∈ s.out) : o ∈ (s.msi f v).out := by
  unfold Hw.msi
  split
  · exact h
  · dsimp only
    split
    · exact h
    · exact List.mem_cons_of_mem _ h

section MbAnswer
variable (s : Hw) (op st : Nat) (body : Bytes)

@[simp] theorem Hw.mbAnswer_mgt : (s.mbAnswer op st body).mgt = s.mgt := by rw [Hw.mbAnswer, Hw.msi_mgt, Hw.emit_mgt]
@[simp] theorem Hw.mbAnswer_regs : (s.mbAnswer op st body).regs = s.regs := by rw [Hw.mbAnswer, Hw.msi_regs, Hw.emit_regs]
@[simp] theorem Hw.mbAnswer_get (g : Fld) (j : Nat) : (s.mbAnswer op st body).get g j = s.get g j := by simp [Hw.get]

theorem Hw.mbAnswer_sent : (s.mbAnswer op st body).out.contains (.msg 0 op st body) = true :=
  List.contains_iff_mem.mpr (Hw.mem_msi_out 0 7 List.mem_cons_self)

end MbAnswer

/-! ## Commands of the mailbox with no update under way -/

section Idle
variable {s : State} (hlink : s.hw.hostUp = true) (hup : s.hw.mgt.sdgUp = true) (hidle : s.hw.mgt.update = none)
include hlink hup hidle

theorem State.mailbox_of_idle (op : Nat) (rom always : Bool) (f : Hw → Hw) : s.mailbox op rom always f = .next { s with hw := f s.hw } := by
  refine (State.byHostHw_of_hostUp _ hlink).trans ?_
  simp [hup, hidle]

theorem exec_transferFw {slot : Fin 256} {p : FwPackage} (hslot : slot.val = 1 ∨ slot.val = 2)
    (hother : slot.val - 1 ≠ s.hw.get R.SEC_BOOT_STATUS_BANK) (hwhole : fwWhole p = true) :
    exec (.transferFw slot p) s = .next { s with hw := (s.hw.transfer false (slot.val - 1) p).mbAnswer 0x0201 Ans.started [] } := by
  change execTransferFw slot p s = _
  refine (State.mailbox_of_idle hlink hup hidle _ _ _ _).trans (s.next_hw_congr ?_)
  have hfree : ¬(slot.val = 0 ∨ 2 < slot.val ∨ (slot.val - 1 = s.hw.get R.SEC_BOOT_STATUS_BANK ∧ s.hw.mgt.sdgUp = true)) := by
    rintro (h | h | ⟨h, -⟩)
    · omega
    · omega
    · exact hother h
  simp only [Hw.pathBusy, hidle, if_neg hfree, hwhole, Bool.false_eq_true, Bool.not_true, if_false]

theorem exec_transferFw_invalid {slot : Fin 256} (p : FwPackage)
    (hslot : slot.val = 0 ∨ 2 < slot.val ∨ slot.val - 1 = s.hw.get R.SEC_BOOT_STATUS_BANK) :
    exec (.transferFw slot p) s = .next { s with hw := s.hw.mbAnswer 0x0201 Ans.invalidSlot [] } := by
  change execTransferFw slot p s = _
  refine (State.mailbox_of_idle hlink hup hidle _ _ _ _).trans (s.next_hw_congr ?_)
  have hbad : slot.val = 0 ∨ 2 < slot.val ∨ (slot.val - 1 = s.hw.get R.SEC_BOOT_STATUS_BANK ∧ s.hw.mgt.sdgUp = true) :=
    hslot.imp_right fun h => h.imp_right fun h => ⟨h, hup⟩
  simp only [Hw.pathBusy, hidle, if_pos hbad, Bool.false_eq_true, if_false]

theorem exec_activateFw {slot : Fin 256} (hslot : slot.val ≠ 0) (hpassed : s.hw.mgt.passed.contains (slot.val - 1) = true) :
    exec (.activateFw slot false) s = .next { s with hw := (s.hw.activate (slot.val - 1)).mbAnswer 0x0202 Ans.ok [] } := by
  change execActivateFw slot false s = _
  refine (State.mailbox_of_idle hlink hup hidle _ _ _ _).trans (s.next_hw_congr ?_)
  simp only [Hw.pathBusy, hidle, hslot, hpassed, Bool.false_eq_true, Bool.not_true, or_self, if_false]

theorem exec_activateFw_online (slot : Fin 256) :
    exec (.activateFw slot true) s = .next { s with hw := s.hw.mbAnswer 0x0202 Ans.unsupported [] } := by
  change execActivateFw slot true s = _
  refine (State.mailbox_of_idle hlink hup hidle _ _ _ _).trans (s.next_hw_congr ?_)
  simp only [Hw.pathBusy, hidle, Bool.false_eq_true, if_false, if_true]

end Idle

/-! ## The end of a transfer (R376) -/

/-- The answer to a whole package, and the update with its bank as the check leaves them. -/
def Hw.fwResult (s : Hw) (p : FwPackage) : Nat :=
  if s.bankVerifies p = false then Ans.corrupt else if s.compatReason p ≠ 0 then Ans.invalidImage else Ans.ok
def Hw.checked (s : Hw) (u : Update) : Hw :=
  if s.fwResult u.pkg = Ans.ok then
    s.modMgt fun m => { m with banks := Tbl.insert u.slot u.pkg m.banks, passed := u.slot :: m.passed, update := some { u with busy := false, seen := s.clk.now } }
  else s.modMgt fun m => { m with update := none }

theorem Hw.fwResult_ok_iff (s : Hw) (p : FwPackage) : s.fwResult p = Ans.ok ↔ s.bankVerifies p = true ∧ s.compatReason p = 0 := by
  unfold Hw.fwResult
  cases s.bankVerifies p with
  | false => simp [Ans.corrupt, Ans.ok]
  | true => by_cases h : s.compatReason p = 0 <;> simp [h, Ans.invalidImage, Ans.ok]

theorem exec_transferFwDone {s : State} {u : Update} (hupd : s.hw.mgt.update = some u) (hbusy : u.busy = true) (hmb : u.pldm = false) :
    exec .transferFwDone s = .next { s with hw := (s.hw.checked u).mbAnswer 0x0201 (s.hw.fwResult u.pkg) [] } := by
  change execTransferFwDone s = _
  refine s.next_hw_congr ?_
  obtain ⟨pldm, slot, pkg, busy, seen⟩ := u
  dsimp only at hbusy hmb
  subst hbusy hmb
  simp only [hupd, Hw.checked, Hw.fwResult, Bool.not_true, Bool.false_eq_true, if_false, Bool.not_eq_true']

theorem Hw.checked_regs (s : Hw) (u : Update) : (s.checked u).regs = s.regs := by
  unfold Hw.checked
  split <;> rfl

/-- Settles O44: each command reaches its meaning, and its answer leaves the registers and the sheepdog's state. -/
theorem mailboxAnswers : Obligations.MailboxAnswers := by
  unfold Obligations.MailboxAnswers
  refine ⟨?_, ?_, ?_, ?_, ?_, ?_, ?_, ?_, ?_, ?_, ?_⟩
  · intro s hlink hup hidle
    change execGetFwInfo s = _
    exact State.mailbox_of_idle hlink hup hidle _ _ _ _
  · intro s hlink hup hidle
    change execGetTimestamp s = _
    exact State.mailbox_of_idle hlink hup hidle _ _ _ _
  · intro v s hlink hup hidle
    change execSetTimestamp v s = _
    exact State.mailbox_of_idle hlink hup hidle _ _ _ _
  · intro s hlink hup hidle
    change execGetSupportedLogs s = _
    exact State.mailbox_of_idle hlink hup hidle _ _ _ _
  · intro s hlink hup hidle
    change execGetLog s = _
    exact State.mailbox_of_idle hlink hup hidle _ _ _ _
  · intro slot p s hlink hup hidle hslot hother hwhole
    refine ⟨_, exec_transferFw hlink hup hidle hslot hother hwhole, ?_, ?_, ?_, Hw.mbAnswer_sent _ _ _ _, ?_, State.frame_of_regsBut ?_⟩
    · rw [Hw.mbAnswer_mgt]
      rfl
    · rw [Hw.mbAnswer_mgt]
      exact Tbl.find?_erase_same _ _
    · rw [Hw.mbAnswer_mgt]
      simp [Hw.transfer, Hw.modMgt]
    · rw [Hw.mbAnswer_mgt]
      rfl
    · exact (Hw.RegsBut.refl _ _).of_regs_eq (Hw.mbAnswer_regs _ _ _ _)
  · intro slot p s hlink hup hidle hslot
    exact ⟨_, exec_transferFw_invalid hlink hup hidle p hslot, rfl, rfl, rfl⟩
  · intro u s hupd hbusy hmb
    refine ⟨_, exec_transferFwDone hupd hbusy hmb, ?_, ?_, Hw.mbAnswer_sent _ _ _ _, State.frame_of_regsBut ?_⟩
    · simp only [Hw.mbAnswer_mgt, Hw.checked, ← Hw.fwResult_ok_iff]
      split <;> rfl
    · simp only [Hw.mbAnswer_mgt, Hw.checked, ← Hw.fwResult_ok_iff]
      split <;> rfl
    · exact (Hw.RegsBut.refl _ _).of_regs_eq ((Hw.mbAnswer_regs _ _ _ _).trans (Hw.checked_regs _ _))
  · intro slot s hlink hup hidle hslot hpassed
    refine ⟨_, exec_activateFw hlink hup hidle hslot hpassed, ?_, ?_, ?_, Hw.mbAnswer_sent _ _ _ _, State.frame_of_regsBut ?_⟩
    · rw [Hw.mbAnswer_get]
      exact (Hw.get_set_ne _ _ (by decide)).trans (Hw.get_set_same _ _ _ _)
    · rw [Hw.mbAnswer_get]
      exact Hw.get_set_same _ _ _ _
    · rw [Hw.mbAnswer_mgt]
      rfl
    · exact (((Hw.RegsBut.refl _ s.hw).set 1 (by decide)).set (slot.val - 1) (by decide)).of_regs_eq (Hw.mbAnswer_regs _ _ _ _)
  · intro slot s hlink hup hidle
    exact exec_activateFw_online hlink hup hidle slot
  · intro u s hupd hbusy
    have hexec : exec .updateIdleTimeout s =
        .next { s with hw := (s.hw.reach (u.seen + 60 * second)).modMgt fun m => { m with update := none } } := by
      change execUpdateIdleTimeout s = _
      refine s.next_hw_congr ?_
      simp only [hupd, hbusy, Bool.false_eq_true, if_false]
    exact ⟨_, hexec, rfl, rfl, State.frame_of_regsBut (Hw.RegsBut.refl _ _)⟩

end Sys2Proof.Machine
end

section
/-! SUPPORT. Firmware trust (14_management_security.md): the trial, the anti-rollback counter, key records and debug tokens. -/

namespace Sys2Proof.Machine

/-! ## The end of a key record's fetch (R380) -/

/-- What the fetch itself counts: an access outside the windows is rejected, a read that did not end well is counted. -/
def Hw.keyFetched (s : Hw) (a : Nat) (res : Completion) : Hw :=
  if a % 8 ≠ 0 then s else if s.dmaOk 0 a 210 false then s.cplErr res else s.dmaReject 0 a false

/-- The code of the first check that fails, the fetch included. -/
def Hw.keyCode (s : Hw) (a : Nat) (res : Completion) (b : Bytes) : Nat :=
  if a % 8 ≠ 0 ∨ !(s.dmaOk 0 a 210 false) ∨ res ≠ .ok then 0x01 else (s.keyFetched a res).keyRecordCode b

/-- The record has ended with `code`. -/
def Hw.keyShown (s : Hw) (code : Nat) : Hw :=
  ((s.modMgt fun m => { m with keyRec := none }).set R.SEC_KEY_CTRL_APPLY 0 0).set R.SEC_KEY_CTRL_ERR 0 code

/-- An accepted record is in force. -/
def Hw.keyAccepted (s : Hw) (b : Bytes) : Hw :=
  let s := s.modMgt fun m => { m with keys := keysAfter b m.keys }
  let s := s.set R.SEC_KEY_STATUS_VALID 0 ((s.mgt.keys.map fun kv : Nat × Bytes => 2 ^ kv.1).sum)
  (s.set R.SEC_KEY_COUNTER_COUNTER 0 (fld b 8 4)).set R.SEC_KEY_CTRL_DONE 0 1

def Hw.keyEnd (s : Hw) (code : Nat) (b : Bytes) : Hw :=
  if code ≠ 0 then (s.keyShown code).set R.SEC_KEY_CTRL_FAIL 0 1 else (s.keyShown code).keyAccepted b

theorem Run.readHost_start (s : State) (a n : Nat) : (⟨s.hw, s.mem, []⟩ : Run).readHost a n = (List.range n).map fun i => s.hostByte (a + i) := rfl

theorem exec_keyRecordDone {s : State} {a : Nat} (res : Completion) (hrec : s.hw.mgt.keyRec = some a) {b : Bytes}
    (hb : b = (List.range 210).map fun i => s.hostByte (a + i)) :
    exec (.keyRecordDone res) s = .next { s with hw := ((s.hw.keyFetched a res).keyEnd (s.hw.keyCode a res b) b).msi 0 8 } := by
  subst hb
  change execKeyRecordDone res s = _
  unfold execKeyRecordDone State.run
  simp only [hrec]
  rfl

theorem Hw.keyFetched_mgt (s : Hw) (a : Nat) (res : Completion) : (s.keyFetched a res).mgt = s.mgt := by
  unfold Hw.keyFetched
  split
  · rfl
  · split
    · cases res <;> rfl
    · rfl

/-- A fetch that ends well counts nothing. -/
theorem Hw.keyFetched_ok {s : Hw} {a : Nat} (ha : a % 8 = 0) (hin : s.dmaOk 0 a 210 false = true) : s.keyFetched a .ok = s := by
  rw [Hw.keyFetched, if_neg (not_not.mpr ha), if_pos hin, Hw.cplErr]

/-- What a fetch counts are registers of the host interface. -/
theorem Hw.keyFetched_get (s : Hw) (a : Nat) (res : Completion) {f : Fld}
    (hf : f.key 0 ∉ [R.HIF_DMA_DENY_COUNT.key 0, R.HIF_DMA_LAST_FUNCTION.key 0, R.HIF_DMA_LAST_WRITE.key 0, R.HIF_DMA_LAST_ADDR_ADDR.key 0,
      R.HIF_CPL_ERR_ERR.key 0, R.HIF_CPL_ERR_TIMEOUT.key 0]) : (s.keyFetched a res).get f = s.get f := by
  refine Hw.RegsBut.get ?_ hf
  unfold Hw.keyFetched
  split
  · exact .refl _ _
  · split
    · cases res with
      | ok => exact .refl _ _
      | error => exact (Hw.RegsBut.refl _ s).inc 1 (by decide)
      | timeout => exact (Hw.RegsBut.refl _ s).inc 1 (by decide)
    · exact ((((Hw.RegsBut.refl _ s).inc 1 (by decide)).set 0 (by decide)).set 0 (by decide)).set a (by decide)

section End
variable (s : Hw) (code : Nat) (b : Bytes)

theorem Hw.keyShown_regsBut : Hw.RegsBut [R.SEC_KEY_CTRL_APPLY.key 0, R.SEC_KEY_CTRL_ERR.key 0] s (s.keyShown code) :=
  ((Hw.RegsBut.refl _ s).set 0 (by decide)).set code (by decide)

theorem Hw.keyAccepted_regsBut :
    Hw.RegsBut [R.SEC_KEY_STATUS_VALID.key 0, R.SEC_KEY_COUNTER_COUNTER.key 0, R.SEC_KEY_CTRL_DONE.key 0] s (s.keyAccepted b) :=
  (((Hw.RegsBut.refl _ s).set _ (by decide)).set (fld b 8 4) (by decide)).set 1 (by decide)

theorem Hw.keyShown_err : (s.keyShown code).get R.SEC_KEY_CTRL_ERR = code % 256 := Hw.get_set_same _ _ _ _

theorem Hw.keyShown_apply : (s.keyShown code).get R.SEC_KEY_CTRL_APPLY = 0 :=
  (Hw.get_set_ne _ _ (by decide)).trans ((Hw.get_set_same _ _ _ _).trans (Nat.zero_mod _))

theorem Hw.keyEnd_keyRec : (s.keyEnd code b).mgt.keyRec = none := by
  unfold Hw.keyEnd
  split <;> rfl

theorem Hw.keyEnd_err : (s.keyEnd code b).get R.SEC_KEY_CTRL_ERR = code % 256 := by
  unfold Hw.keyEnd
  split
  · exact (Hw.get_set_ne _ _ (by decide)).trans (s.keyShown_err code)
  · exact ((Hw.keyAccepted_regsBut _ b).get (by decide)).trans (s.keyShown_err code)

theorem Hw.keyEnd_apply : (s.keyEnd code b).get R.SEC_KEY_CTRL_APPLY = 0 := by
  unfold Hw.keyEnd
  split
  · exact (Hw.get_set_ne _ _ (by decide)).trans (s.keyShown_apply code)
  · exact ((Hw.keyAccepted_regsBut _ b).get (by decide)).trans (s.keyShown_apply code)

/-- A record refused shows FAIL and leaves the key store. -/
theorem Hw.keyEnd_refused (hcode : code ≠ 0) : (s.keyEnd code b).get R.SEC_KEY_CTRL_FAIL = 1 ∧
    (s.keyEnd code b).get R.SEC_KEY_COUNTER_COUNTER = s.get R.SEC_KEY_COUNTER_COUNTER ∧ (s.keyEnd code b).mgt.keys = s.mgt.keys := by
  rw [Hw.keyEnd, if_pos hcode]
  refine ⟨Hw.get_set_same _ _ _ _, ?_, rfl⟩
  exact (Hw.get_set_ne _ _ (by decide)).trans ((s.keyShown_regsBut code).get (by decide))

/-- A record accepted shows DONE, and the key store follows it. -/
theorem Hw.keyEnd_accepted : (s.keyEnd 0 b).get R.SEC_KEY_CTRL_DONE = 1 ∧
    (s.keyEnd 0 b).get R.SEC_KEY_COUNTER_COUNTER = fld b 8 4 % 2 ^ 32 ∧ (s.keyEnd 0 b).mgt.keys = keysAfter b s.mgt.keys := by
  rw [Hw.keyEnd, if_neg (not_not.mpr rfl)]
  exact ⟨Hw.get_set_same _ _ _ _, (Hw.get_set_ne _ _ (by decide)).trans (Hw.get_set_same _ _ _ _), rfl⟩

end End

/-! ## The trial, the counter and the key store's APPLY (R377, R378, R380) -/

theorem exec_fwTrialConfirm {s : State} {t0 : Nat} (hup : s.hw.mgt.sdgUp = true) (hclean : s.hw.mgt.spoilt = false)
    (hnormal : s.hw.get R.SEC_BOOT_STATUS_STATE = 0) (htrial : s.hw.mgt.trial = some t0) :
    exec .fwTrialConfirm s = .next { s with hw := ((s.hw.reach (t0 + 60 * second)).modMgt fun m =>
      { m with trial := none, active := s.hw.get R.SEC_BOOT_STATUS_BANK }).set R.SEC_FW_PENDING_TRY 0 0 } := by
  change execFwTrialConfirm s = _
  refine s.next_hw_congr ?_
  simp only [hup, hclean, hnormal, htrial, Bool.not_false, Bool.and_self, BEq.rfl]
  rfl

theorem exec_keyRecordApply {s : State} (hlink : s.hw.hostUp = true) : exec .keyRecordApply s = .next { s with hw := s.hw.keyApply } :=
  State.byHostHw_of_hostUp Hw.keyApply hlink

theorem exec_arcCommit {s : State} (key : BitVec 16) (hlink : s.hw.hostUp = true) :
    exec (.arcCommit key) s = .next { s with hw := s.hw.arcCommit key.toNat } :=
  State.byHostHw_of_hostUp (fun h => h.arcCommit key.toNat) hlink

/-- A commit with another key, without the sheepdog, outside NORMAL or in a trial is discarded. -/
theorem Hw.arcCommit_rejected {s : Hw} {key : BitVec 16}
    (hbad : key ≠ 0x4B41#16 ∨ s.mgt.sdgUp = false ∨ s.get R.SEC_BOOT_STATUS_STATE ≠ 0 ∨ s.is R.SEC_FW_PENDING_TRY = true) :
    s.arcCommit key.toNat = s.set R.SEC_ARC_REJECT 0 1 := by
  refine if_neg ?_
  rintro ⟨hkey, hup, hnormal, hfree⟩
  rcases hbad with h | h | h | h
  · exact h (BitVec.eq_of_toNat_eq hkey)
  · simp [h] at hup
  · exact h hnormal
  · simp [h] at hfree

/-- Each burn raises ARC by one fuse; with the last one the commit has ended. -/
theorem exec_arcFuseBurn {s : State} {g : Nat} (hto : s.hw.mgt.arcTo = some g) (hlt : s.hw.get R.SEC_ARC_ARC < g) :
    ∃ m, exec .arcFuseBurn s = .next { s with hw := { s.hw.inc R.SEC_ARC_ARC with mgt := m } } := by
  by_cases hmore : (s.hw.inc R.SEC_ARC_ARC).get R.SEC_ARC_ARC < g
  · refine ⟨s.hw.mgt, (?_ : execArcFuseBurn s = _)⟩
    refine s.next_hw_congr ?_
    simp only [hto, if_pos hlt, if_pos hmore]
    rfl
  · refine ⟨{ s.hw.mgt with arcTo := none }, (?_ : execArcFuseBurn s = _)⟩
    refine s.next_hw_congr ?_
    simp only [hto, if_pos hlt, if_neg hmore]
    rfl

/-- Settles O45: each write and each end has one outcome, given by the lemmas above. -/
theorem firmwareTrust : Obligations.FirmwareTrust := by
  unfold Obligations.FirmwareTrust
  refine ⟨?_, ?_, ?_, ?_, ?_, ?_, ?_, ?_, ?_⟩
  · intro t0 s hup hclean hnormal htrial
    refine ⟨_, exec_fwTrialConfirm hup hclean hnormal htrial, rfl, rfl, rfl, Hw.get_set_same _ _ _ _, State.frame_of_regsBut ?_⟩
    exact (Hw.RegsBut.refl _ s.hw).set 0 (by decide)
  · intro s hlink hup hnormal hfree hlt
    have hcommit : s.hw.arcCommit (0x4B41#16).toNat = s.hw.modMgt fun m => { m with arcTo := some (s.hw.get R.SEC_ARC_COMMIT_TARGET) } :=
      (if_pos ⟨rfl, hup, hnormal, by simp [hfree]⟩).trans (if_pos hlt)
    refine ⟨_, (exec_arcCommit _ hlink).trans (s.next_hw_congr hcommit), rfl, State.frame_of_regsBut (Hw.RegsBut.refl _ _)⟩
  · intro key s hlink hbad
    refine ⟨_, (exec_arcCommit key hlink).trans (s.next_hw_congr (Hw.arcCommit_rejected hbad)), Hw.get_set_same _ _ _ _, rfl, ?_⟩
    exact State.frame_of_regsBut ((Hw.RegsBut.refl _ s.hw).set 1 (by decide))
  · intro g s hto hlt
    obtain ⟨m, hexec⟩ := exec_arcFuseBurn hto hlt
    refine ⟨_, hexec, Hw.get_inc_same _ _ _ _, State.frame_of_regsBut ?_⟩
    exact ((Hw.RegsBut.refl _ s.hw).inc 1 (by decide)).of_regs_eq rfl
  · intro s hlink hup hnone
    have happly : s.hw.keyApply = (s.hw.modMgt fun m => { m with keyRec := some (s.hw.get R.SEC_KEYREC_ADDR_ADDR) }).set R.SEC_KEY_CTRL_APPLY 0 1 :=
      if_neg (by simp [hup, hnone])
    refine ⟨_, (exec_keyRecordApply hlink).trans (s.next_hw_congr happly), rfl, Hw.get_set_same _ _ _ _, State.frame_of_regsBut ?_⟩
    exact (Hw.RegsBut.refl _ s.hw).set 1 (by decide)
  · intro s hlink hsome
    exact (exec_keyRecordApply hlink).trans (s.next_hw_congr (if_pos (by simp [hsome])))
  · intro a res s hrec hbad
    have hcode : s.hw.keyCode a res ((List.range 210).map fun i => s.hostByte (a + i)) = 1 :=
      if_pos (hbad.imp_right (Or.imp_left fun h => by simp [h]))
    have hexec := exec_keyRecordDone res hrec rfl
    rw [hcode] at hexec
    obtain ⟨hfail, hcounter, hkeys⟩ := (s.hw.keyFetched a res).keyEnd_refused 1 ((List.range 210).map fun i => s.hostByte (a + i)) (by decide)
    refine ⟨_, hexec, ?_, ?_, ?_, ?_, ?_, ?_, rfl, rfl⟩
    · rw [Hw.msi_get, hfail]
    · rw [Hw.msi_get, Hw.keyEnd_err]
    · rw [Hw.msi_get, Hw.keyEnd_apply]
    · rw [Hw.msi_mgt, hkeys, Hw.keyFetched_mgt]
    · rw [Hw.msi_get, hcounter, Hw.keyFetched_get _ _ _ (by decide)]
    · rw [Hw.msi_mgt, Hw.keyEnd_keyRec]
  · intro a b s hrec ha hin hb
    have hcode : s.hw.keyCode a .ok b = s.hw.keyRecordCode b := by
      rw [Hw.keyCode, Hw.keyFetched_ok ha hin, if_neg (by simp [ha, hin])]
    have hexec := exec_keyRecordDone .ok hrec hb
    rw [hcode, Hw.keyFetched_ok ha hin] at hexec
    refine ⟨_, hexec, ?_, fun hzero => ?_, fun hcode => ?_, ?_, rfl, rfl⟩
    · rw [Hw.msi_get, Hw.keyEnd_err]
    · rw [hzero, Hw.msi_get, Hw.msi_get, Hw.msi_mgt]
      exact s.hw.keyEnd_accepted b
    · rw [Hw.msi_get, Hw.msi_get, Hw.msi_mgt]
      exact s.hw.keyEnd_refused _ b hcode
    · rw [Hw.msi_mgt, Hw.keyEnd_keyRec]
  · intro b tk s hears
    refine ⟨_, State.onHw_mctp false _ hears, rfl, s.hw.heard_get_fld b (by decide) (by decide), State.frame_of_regsBut ?_⟩
    exact s.hw.heard_regsBut b

end Sys2Proof.Machine
end

section
/-! SUPPORT. The power cap's two writers (12_power_thermal.md, 14_management_security.md). -/

namespace Sys2Proof.Machine

/-! ## The cap's two writers (R323, R365) -/

theorem Hw.setCap_regsBut (s : Hw) (w : Nat) : Hw.RegsBut [R.PWR_CAP_CAP_W.key 0] s (s.setCap w) := (Hw.RegsBut.refl _ s).set _ (by decide)

/-- The cap held within its limits fits its field. -/
theorem Hw.setCap_get (s : Hw) (w : Nat) : (s.setCap w).get R.PWR_CAP_CAP_W = min (max w 2900) 3200 := by
  refine (Hw.get_set_same _ _ _ _).trans (Nat.mod_eq_of_lt ?_)
  have : 2 ^ R.PWR_CAP_CAP_W.width = 4096 := rfl
  omega

/-- The word at 0x15004 holds the cap alone. -/
theorem fieldsAt_cap : fieldsAt 0x15004 = [(R.PWR_CAP_CAP_W, 0, 0)] := by decide +kernel

/-- The cap is a field that a write acts on, and stores nothing by itself. -/
theorem Hw.storeWord_cap (s : Hw) (v : Nat) : s.storeWord 0x15004 v = s := by
  have hacts : actingFlds.contains R.PWR_CAP_CAP_W = true := by decide
  simp only [Hw.storeWord, fieldsAt_cap, Hw.each, List.foldl_cons, List.foldl_nil, hacts, Bool.true_or, if_true]

theorem Run.actWord_cap (r : Run) (v : Nat) : r.actWord 0x15004 v = r.on fun s => s.setCap (bits v 0 12) := by
  simp [Run.actWord]

theorem exec_registerWrite_cap {s : State} (v : BitVec 12) (hlink : s.hw.hostUp = true) (hnormal : s.hw.get R.SEC_BOOT_STATUS_STATE 0 = 0) :
    exec (.registerWrite .bar0 0x15004 4 v.toNat) s = .next { s with hw := s.hw.setCap v.toNat } := by
  have hv : v.toNat < 4096 := v.isLt
  have hword : bits (v.toNat % 2 ^ 32) 0 12 = v.toNat := by
    simp only [bits]
    omega
  have hresponds : s.hw.responds 0x15004 = true := by simp [Hw.responds, hnormal]
  have hwrite : (⟨s.hw, s.mem, []⟩ : Run).barWrite 0x15004 v.toNat 4 = ⟨s.hw.setCap v.toNat, s.mem, []⟩ := by
    simp only [Run.barWrite, accessOk, hresponds, Run.on, Hw.storeWord_cap, Run.actWord_cap, hword]
    rfl
  change execRegisterWrite .bar0 0x15004 4 v.toNat s = _
  simp only [execRegisterWrite, State.run, hlink, if_true, hwrite]
  rfl

theorem exec_effecterWrite_cap {s : State} {b : Bus} (w : Nat) (hears : s.hw.hearsBus b = true) :
    exec (.effecterWrite b 1 w) s = .next { s with hw := ((s.hw.heard b).setCap w).pairAnswer 0x31 Ans.ok [] } :=
  State.onHw_mctp _ _ hears

/-- A write of the cap by either side leaves what the other side needs. -/
theorem Hw.setCap_hearsBus (s : Hw) (w : Nat) (b : Bus) : (s.setCap w).hearsBus b = s.hearsBus b := by
  have hmode : (s.setCap w).get R.SDG_MGMT_MODE = s.get R.SDG_MGMT_MODE := (s.setCap_regsBut w).get (by decide)
  rw [Hw.hearsBus, Hw.hearsBus, Hw.pairHears, Hw.pairHears, hmode]
  rfl

theorem Hw.effecter_regsBut (s : Hw) (b : Bus) (w : Nat) :
    Hw.RegsBut [R.PWR_CAP_CAP_W.key 0, R.SDG_MGMT_MODE.key 0, R.SDG_OOB_COUNTS_MCTP_RX.key 0] s (((s.heard b).setCap w).pairAnswer 0x31 Ans.ok []) := by
  have hheard := (s.heard_regsBut b).mono (ls := [R.PWR_CAP_CAP_W.key 0, R.SDG_MGMT_MODE.key 0, R.SDG_OOB_COUNTS_MCTP_RX.key 0]) (by decide)
  exact (hheard.trans (((s.heard b).setCap_regsBut w).mono (by decide))).of_regs_eq rfl

/-- Settles O11: both writers end in the same function of the cap's register. -/
theorem effecterAndRegisterSetCap : Obligations.EffecterAndRegisterSetCap := by
  unfold Obligations.EffecterAndRegisterSetCap
  refine ⟨?_, ?_, ?_⟩
  · intro b w s hears
    exact ⟨_, exec_effecterWrite_cap w hears, Hw.setCap_get _ _, ⟨_, _, rfl⟩, State.frame_of_regsBut (s.hw.effecter_regsBut b w)⟩
  · intro v s hlink hnormal
    exact ⟨_, exec_registerWrite_cap v hlink hnormal, Hw.setCap_get _ _, rfl, State.frame_of_regsBut (s.hw.setCap_regsBut _)⟩
  · intro b w v s hears hlink hnormal
    refine ⟨⟨_, _, exec_effecterWrite_cap w hears, exec_registerWrite_cap v ?_ ?_, Hw.setCap_get _ _⟩,
      ⟨_, _, exec_registerWrite_cap v hlink hnormal, exec_effecterWrite_cap w ?_, Hw.setCap_get _ _⟩⟩
    · have hport := (s.hw.effecter_regsBut b w).get (f := R.HIF_PORT_P0_UP) (i := 0) (by decide)
      rw [Hw.hostUp, Hw.is, hport]
      exact hlink
    · exact ((s.hw.effecter_regsBut b w).get (by decide)).trans hnormal
    · exact (s.hw.setCap_hearsBus _ b).trans hears

end Sys2Proof.Machine
end

section
/-! SUPPORT. Dumps, the flash log, storms and the sheepdog's reset (13_faults_reset.md). -/

namespace Sys2Proof.Machine

/-! ## Dumps written (R359, R360) -/

/-- A dump written leaves every register but DUMP_NEW and the slots shown, and of the sheepdog's state everything but the slots. -/
theorem Hw.writeDump_regsBut (s : Hw) (d : Dump) :
    Hw.RegsBut [R.ERR_STATUS_DUMP_NEW.key 0, R.ERR_DUMP_STATUS_VALID.key 0, R.ERR_DUMP_STATUS_SHORT_VALID.key 0] s (s.writeDump d) := by
  unfold Hw.writeDump
  split <;> exact (((Hw.RegsBut.refl _ s).set _ (by decide)).set _ (by decide)).set _ (by decide)

theorem Hw.writeDump_mgt (s : Hw) (d : Dump) : (s.writeDump d).mgt =
    { s.mgt with dumps := if d.full then Tbl.insert (dumpSlot 2 s.mgt.dumps) d s.mgt.dumps else s.mgt.dumps
                 shorts := if d.full then s.mgt.shorts else Tbl.insert (dumpSlot 4 s.mgt.shorts) d s.mgt.shorts } := by
  unfold Hw.writeDump
  split <;> rfl

theorem Hw.writeDump_new (s : Hw) (d : Dump) : (s.writeDump d).get R.ERR_STATUS_DUMP_NEW = 1 := Hw.get_set_same _ _ _ _

/-- The device boots from the dump phase, with nothing captured. -/
def Hw.dumped (s : Hw) : Hw := s.modMgt fun m => { m with phase := .boot, rst := { m.rst with cap := none } }

theorem exec_dumpWriteDone {s : State} {d : Dump} (hphase : s.hw.mgt.phase = .dump) (hcap : s.hw.mgt.rst.cap = some d)
    (hpend : s.hw.is R.SEC_FW_PENDING_PENDING = false) : exec .dumpWriteDone s = .next { s with hw := (s.hw.writeDump d).dumped } := by
  have hkept : (s.hw.writeDump d).dumped.is R.SEC_FW_PENDING_PENDING = false := by
    rw [Hw.is, ((s.hw.writeDump_regsBut d).of_regs_eq (u := (s.hw.writeDump d).dumped) rfl).get (by decide)]
    exact hpend
  change execDumpWriteDone s = _
  refine s.next_hw_congr ?_
  simp only [hphase, hcap]
  exact if_neg fun h => Bool.false_ne_true (hkept.symm.trans h)

/-! ## Dump copies (R361) -/

/-- The hardware that has taken COPY = 1, and a copy of it under way. -/
def Hw.copyTaken (s : Hw) : Hw := s.set R.ERR_DUMP_CTRL_COPY 0 0
def Hw.copyStarted (s : Hw) : Hw :=
  (s.copyTaken.modMgt fun m => { m with copy := some (s.get R.ERR_DUMP_CTRL_SOURCE, s.get R.ERR_DUMP_DST_ADDR) }).set R.ERR_DUMP_STATUS_BUSY 0 1

/-- A copy starts where its destination is page-aligned and inside the PF's windows. -/
theorem exec_dumpCopy {s : State} {d : Dump} (hlink : s.hw.hostUp = true) (hup : s.hw.mgt.sdgUp = true) (hfree : s.hw.mgt.copy = none)
    (hdump : s.hw.dumpOf (s.hw.get R.ERR_DUMP_CTRL_SOURCE) = some d) (hpage : s.hw.get R.ERR_DUMP_DST_ADDR % 4096 = 0)
    (hwin : s.hw.dmaOk 0 (s.hw.get R.ERR_DUMP_DST_ADDR) d.size true = true) :
    exec .dumpCopy s = .next { s with hw := s.hw.copyStarted } := by
  have hsrc : s.hw.copyTaken.get R.ERR_DUMP_CTRL_SOURCE = s.hw.get R.ERR_DUMP_CTRL_SOURCE := Hw.get_set_ne _ _ (by decide)
  have hdst : s.hw.copyTaken.get R.ERR_DUMP_DST_ADDR = s.hw.get R.ERR_DUMP_DST_ADDR := Hw.get_set_ne _ _ (by decide)
  have hgo : (!s.hw.copyTaken.mgt.sdgUp || s.hw.copyTaken.mgt.copy.isSome) = false := by simp [Hw.copyTaken, hup, hfree]
  have hdump' : s.hw.copyTaken.dumpOf (s.hw.get R.ERR_DUMP_CTRL_SOURCE) = some d := hdump
  have hwin' : s.hw.copyTaken.dmaOk 0 (s.hw.get R.ERR_DUMP_DST_ADDR) d.size true = true := hwin
  refine (State.byHostHw_of_hostUp Hw.dumpCopy hlink).trans (s.next_hw_congr ?_)
  unfold Hw.dumpCopy Hw.copyStarted
  simp only [← Hw.copyTaken.eq_def, hsrc, hdst, hgo, hdump', hpage, hwin', Bool.not_true, Bool.false_eq_true, if_false, ne_eq, not_true]
  rfl

theorem Hw.copyStarted_regsBut (s : Hw) : Hw.RegsBut [R.ERR_DUMP_STATUS_BUSY.key 0, R.ERR_DUMP_CTRL_COPY.key 0] s s.copyStarted :=
  (s.regsBut_set R.ERR_DUMP_CTRL_COPY 0 0 (by decide)).trans (Hw.regsBut_set _ R.ERR_DUMP_STATUS_BUSY 0 1 (by decide))

/-- A dump has bytes, and its slice of full size holds each of them. -/
theorem Dump.getElem?_slice (d : Dump) (i : Nat) : (d.slice 0 d.size)[i]? = if i < d.size then some (d.byte i) else none := by
  unfold Dump.slice
  rw [List.getElem?_map, Nat.sub_zero, Nat.min_self]
  split
  · next h => rw [List.getElem?_range h, Option.map_some, Nat.zero_add]
  · next h => rw [List.getElem?_eq_none (by rw [List.length_range]; omega), Option.map_none]

theorem Dump.slice_ne_nil (d : Dump) : d.slice 0 d.size ≠ [] := by
  have hpos : 0 < d.size := by
    unfold Dump.size
    split <;> decide
  intro hnil
  have hfirst := d.getElem?_slice 0
  rw [hnil, if_pos hpos] at hfirst
  exact absurd hfirst (by simp)

/-- The copy has ended. -/
def Hw.dumpCopied (s : Hw) : Hw :=
  (((s.modMgt fun m => { m with copy := none }).set R.ERR_DUMP_STATUS_BUSY 0 0).set R.ERR_DUMP_STATUS_COPY_DONE 0 1).msi 0 8

theorem exec_dumpCopyDone {s : State} {src dst : Nat} {d : Dump} (hcopy : s.hw.mgt.copy = some (src, dst)) (hdump : s.hw.dumpOf src = some d) :
    exec .dumpCopyDone s =
      .next { s with hw := s.hw.dumpCopied, mem := { s.mem with host := writeBytes dst (d.slice 0 d.size) s.mem.host } } := by
  change execDumpCopyDone s = _
  simp only [execDumpCopyDone, State.run, hcopy, hdump, Run.writeHost, if_neg d.slice_ne_nil]
  rfl

theorem Hw.dumpCopied_regsBut (s : Hw) : Hw.RegsBut [R.ERR_DUMP_STATUS_BUSY.key 0, R.ERR_DUMP_STATUS_COPY_DONE.key 0] s s.dumpCopied :=
  (((Hw.RegsBut.refl _ s).set 0 (by decide)).set 1 (by decide)).of_regs_eq (Hw.msi_regs _ _ _)

/-! ## Storms of corrected errors (R340) -/

/-- A unit's second marked as judged, and its storm logged and counted. -/
def Hw.judged (s : Hw) (kind unit : Nat) (x : CeCount) : Hw :=
  { s with dev.ce := Tbl.set {} (256 * kind + unit) { x with logged := true } s.dev.ce }
def Hw.stormed (s : Hw) (kind unit : Nat) (x : CeCount) : Hw :=
  ((s.judged kind unit x).log E.CE_STORM { kind := kind, unit := unit, detail := x.count }).inc R.ERR_COUNTS2_CE_STORM

theorem Hw.judged_regs (s : Hw) (kind unit : Nat) (x : CeCount) : (s.judged kind unit x).regs = s.regs := rfl

theorem Hw.stormed_regsBut (s : Hw) (kind unit : Nat) (x : CeCount) :
    Hw.RegsBut ([R.ERR_COUNTS2_CE_STORM.key 0] ++ logKeys) s (s.stormed kind unit x) :=
  (((Hw.RegsBut.refl _ s).of_regs_eq (s.judged_regs kind unit x)).log _ _ fun _ hx => List.mem_append_right _ hx).inc 1 (by decide)

theorem Hw.stormed_count (s : Hw) (kind unit : Nat) (x : CeCount) :
    (s.stormed kind unit x).get R.ERR_COUNTS2_CE_STORM = min (s.get R.ERR_COUNTS2_CE_STORM + 1) 65535 := by
  rw [Hw.stormed, Hw.get_inc_same, Hw.log_get_fld _ _ _ (by decide) (by decide), Hw.get, s.judged_regs]
  rfl

theorem Hw.stormed_ce (s : Hw) (kind unit : Nat) (x : CeCount) :
    Tbl.get {} (256 * kind + unit) (s.stormed kind unit x).dev.ce = { x with logged := true } := by
  rw [Hw.stormed, Hw.inc_dev, ((s.judged kind unit x).log_keeps _ _).dev_field Dev.ce rfl, Hw.judged, Tbl.get_set_same]

theorem exec_ceStorm {s : State} {kd : Fin 8} {u : Fin 192} {fec : Nat} (hup : s.hw.diesUp = true)
    (hnew : (s.hw.ceOf kd.val u.val fec).logged = false)
    (hover : s.hw.get R.ERR_CE_THRESH_PER_S < (s.hw.ceOf kd.val u.val fec).count) :
    exec (.ceStorm kd u fec) s = .next { s with hw := s.hw.stormed kd.val u.val (s.hw.ceOf kd.val u.val fec) } :=
  s.next_hw_congr (if_neg (by simp [hup, hnew, hover]))

theorem exec_ceStorm_quiet {s : State} {kd : Fin 8} {u : Fin 192} {fec : Nat}
    (hquiet : (s.hw.ceOf kd.val u.val fec).logged = true ∨ (s.hw.ceOf kd.val u.val fec).count ≤ s.hw.get R.ERR_CE_THRESH_PER_S) :
    exec (.ceStorm kd u fec) s = .next s :=
  s.next_hw_congr (if_pos (by rcases hquiet with h | h <;> simp [h]))

/-! ## The sheepdog's reset (R344) -/

/-- The registers that the reset of the sheepdog changes. -/
def sdgDownKeys : List Nat :=
  [R.SDG_STATUS_STATE.key 0, R.SDG_STATUS_EID_VALID.key 0, R.SDG_MGMT_MODE.key 0, R.SDG_MGMT_I3C_DA.key 0, R.SDG_MGMT_EID.key 0,
    R.SDG_STATUS_RESETS.key 0, R.ERR_DUMP_STATUS_BUSY.key 0, R.SEC_KEY_CTRL_APPLY.key 0]

/-- The sheepdog's own state emptied, before its registers show it. -/
def Hw.sdgCleared (s : Hw) : Hw := { s with mgt := s.sdgDown.mgt }

theorem Hw.sdgDown_eq (s : Hw) : s.sdgDown =
    (((((((s.sdgCleared.set R.SDG_STATUS_STATE 0 2).set R.SDG_STATUS_EID_VALID 0 0).set R.SDG_MGMT_MODE 0 0).set R.SDG_MGMT_I3C_DA 0 0).set
      R.SDG_MGMT_EID 0 0).inc R.SDG_STATUS_RESETS).set R.ERR_DUMP_STATUS_BUSY 0 0).set R.SEC_KEY_CTRL_APPLY 0 0 := rfl

theorem Hw.sdgCleared_regsBut (ks : List Nat) (s : Hw) : Hw.RegsBut ks s s.sdgCleared := .refl ks s

theorem Hw.sdgDown_regsBut (s : Hw) : Hw.RegsBut sdgDownKeys s s.sdgDown := by
  rw [Hw.sdgDown_eq]
  exact ((((((((s.sdgCleared_regsBut sdgDownKeys).set 2 (by decide)).set 0 (by decide)).set 0 (by decide)).set 0 (by decide)).set 0
    (by decide)).inc 1 (by decide)).set 0 (by decide)).set 0 (by decide)

theorem Hw.sdgDown_state (s : Hw) : s.sdgDown.get R.SDG_STATUS_STATE = 2 := by
  rw [Hw.sdgDown_eq]
  iterate 2 rw [Hw.get_set_ne _ _ (by decide)]
  rw [Hw.get_inc_ne _ _ (by decide)]
  iterate 4 rw [Hw.get_set_ne _ _ (by decide)]
  exact Hw.get_set_same _ _ _ _

theorem Hw.sdgDown_resets (s : Hw) : s.sdgDown.get R.SDG_STATUS_RESETS = min (s.get R.SDG_STATUS_RESETS + 1) 65535 := by
  rw [Hw.sdgDown_eq]
  iterate 2 rw [Hw.get_set_ne _ _ (by decide)]
  rw [Hw.get_inc_same]
  iterate 5 rw [Hw.get_set_ne _ _ (by decide)]
  rfl

theorem exec_sdgReset {s : State} (hup : s.hw.mgt.sdgUp = true) :
    exec .sdgReset s = .next { s with hw := s.hw.sdgDown.log E.SDG_RESET { kind := 5 } } := s.next_hw_congr (if_pos hup)

/-- Settles O42: each end's hardware is one of the functions above, whose registers and fields are read off. -/
theorem logAndDumps : Obligations.LogAndDumps := by
  unfold Obligations.LogAndDumps
  refine ⟨?_, ?_, ?_, ?_, ?_, ?_, ?_, ?_, ?_⟩
  · intro s hphase
    exact s.next_hw_congr (if_pos hphase)
  · intro d s hphase hcap hpend
    refine ⟨_, exec_dumpWriteDone hphase hcap hpend, rfl, rfl, s.hw.writeDump_new d, ?_, State.frame_of_regsBut ?_⟩
    · simp only [Hw.dumped, Hw.modMgt_mgt, Hw.writeDump_mgt]
      split <;> rfl
    · exact (s.hw.writeDump_regsBut d).of_regs_eq rfl
  · intro d s hlink hup hfree hdump hpage hwin
    refine ⟨_, exec_dumpCopy hlink hup hfree hdump hpage hwin, rfl, Hw.get_set_same _ _ _ _, State.frame_of_regsBut s.hw.copyStarted_regsBut⟩
  · intro src dst d s hcopy hdump
    refine ⟨_, exec_dumpCopyDone hcopy hdump, ?_, ?_, ?_, ?_, ?_, rfl, rfl, rfl, s.hw.dumpCopied_regsBut⟩
    · exact (Hw.msi_get _ _ _ _ _).trans ((Hw.get_set_ne _ _ (by decide)).trans (Hw.get_set_same _ _ _ _))
    · exact (Hw.msi_get _ _ _ _ _).trans (Hw.get_set_same _ _ _ _)
    · exact congrArg Mgt.copy (Hw.msi_mgt _ _ _)
    · intro i hi
      rw [State.hostByte, get_writeBytes, if_pos (Nat.le_add_right dst i), Nat.add_sub_cancel_left, d.getElem?_slice, if_pos hi, Option.getD_some]
    · intro a ha
      rw [State.hostByte, get_writeBytes]
      split
      · rw [d.getElem?_slice, if_neg (by omega)]
        rfl
      · rfl
  · intro x rest s hup hlog
    refine ⟨{ s with hw.mgt.log := { s.hw.mgt.log with toFl := rest, flash := ((x, s.hw.timestamp) :: s.hw.mgt.log.flash).take 65536 } },
      ?_, rfl, rfl, State.frame_of_regsBut (Hw.RegsBut.refl _ _)⟩
    change execFlashLogWrite s = _
    refine s.next_hw_congr ?_
    simp only [hup, hlog]
  · intro room x rest s hup hlog
    have hexec : exec (.platformEventSend room) s = .next { s with hw :=
        if room then ({ s.hw with mgt.log := { s.hw.mgt.log with events := rest } }).emit (.msg 1 0x0A 0 x.bytes)
        else { s.hw with mgt.log := { s.hw.mgt.log with events := rest } } } := by
      change execPlatformEventSend room s = _
      refine s.next_hw_congr ?_
      simp only [hup, hlog]
    refine ⟨_, hexec, ?_, ?_, State.frame_of_regsBut ?_⟩
    · cases room <;> rfl
    · cases room <;> rfl
    · cases room <;> exact Hw.RegsBut.refl _ _
  · rintro kd u fec x s hup rfl hnew hover
    exact ⟨_, exec_ceStorm hup hnew hover, s.hw.stormed_count _ _ _, s.hw.stormed_ce _ _ _, State.frame_of_regsBut (s.hw.stormed_regsBut _ _ _)⟩
  · rintro kd u fec x s - rfl hquiet
    exact exec_ceStorm_quiet hquiet
  · intro s hup
    refine ⟨_, exec_sdgReset hup, ?_, ?_, ?_, ?_, ?_, ?_, ?_, ?_, ?_, ?_, State.frame_of_regsBut ?_⟩
    · exact (Hw.log_get_fld _ _ _ (by decide) (by decide)).trans s.hw.sdgDown_state
    · exact (Hw.log_get_fld _ _ _ (by decide) (by decide)).trans s.hw.sdgDown_resets
    · exact Hw.log_mgt_sdgUp _ _ _
    · exact Hw.log_mgt_update _ _ _
    · exact Hw.log_mgt_spdm _ _ _
    · exact Hw.log_mgt_keys _ _ _
    · exact Hw.log_clk _ _ _
    · exact Hw.log_dev_truss _ _ _
    · exact Hw.log_dev_pens _ _ _
    · exact Hw.log_dev_stls _ _ _
    · exact (s.hw.sdgDown_regsBut.mono fun _ hx => List.mem_append_left _ hx).log _ _ fun _ hx => List.mem_append_right _ hx

end Sys2Proof.Machine
end

section
/-! SUPPORT. Device resets (13_faults_reset.md): what every cause leaves of the device and of its memory. -/

namespace Sys2Proof.Machine

/-! ## What a device reset leaves (R344, R358) -/

/-- Of the device nothing is left but the levels of the port pins; the key store stays, every register that does not outlive a device
reset is at its reset value, and the cause is shown. -/
structure Hw.ResetLeaves (ports : List Nat) (keys : Tbl Bytes) (cause : Nat) (t : Hw) : Prop where
  dev : t.dev = { ports := ports }
  clk : t.clk = { now := t.clk.now }
  keys : t.mgt.keys = keys
  shown : t.get R.ERR_STATUS_LAST_DEV_RESET = cause
  regs : ∀ d k, keptId (k / 65536) = false → Tbl.get d k t.regs = d

/-- The sheepdog's reset keeps the truss key store. -/
theorem Hw.sdgDown_keys (s : Hw) : s.sdgDown.mgt.keys = s.mgt.keys := by
  rw [Hw.sdgDown]
  rfl

section Leaves
variable {ports : List Nat} {keys : Tbl Bytes} {cause : Nat} {t : Hw} (h : Hw.ResetLeaves ports keys cause t)
include h

/-- What the sheepdog keeps of its own changes nothing of this. -/
theorem Hw.ResetLeaves.of_mgt {u : Hw} (hdev : u.dev = t.dev) (hclk : u.clk = t.clk) (hregs : u.regs = t.regs) (hkeys : u.mgt.keys = t.mgt.keys) :
    Hw.ResetLeaves ports keys cause u where
  dev := hdev.trans h.dev
  clk := by rw [hclk]; exact h.clk
  keys := hkeys.trans h.keys
  shown := by rw [Hw.get, hregs]; exact h.shown
  regs d k hk := by rw [hregs]; exact h.regs d k hk

/-- A write of another register that outlives a device reset. -/
theorem Hw.ResetLeaves.set (f : Fld) (v : Nat) (hf : keptId f.id = true ∧ f.id ≠ R.ERR_STATUS_LAST_DEV_RESET.id) :
    Hw.ResetLeaves ports keys cause (t.set f 0 v) where
  dev := h.dev
  clk := h.clk
  keys := h.keys
  shown := (Hw.get_set_fld _ _ hf.2.symm (by decide) (by decide)).trans h.shown
  regs d k hk := by
    have hne : k ≠ f.key 0 := by
      rintro rfl
      rw [f.key_div (by decide), hf.1] at hk
      exact absurd hk (by decide)
    exact (Tbl.get_set_ne _ _ _ _ hne).trans (h.regs d k hk)

/-- A write of a register's reset value. -/
theorem Hw.ResetLeaves.set_reset (f : Fld) (v : Nat) (hv : v % 2 ^ f.width = f.reset) (hf : f.id ≠ R.ERR_STATUS_LAST_DEV_RESET.id) :
    Hw.ResetLeaves ports keys cause (t.set f 0 v) where
  dev := h.dev
  clk := h.clk
  keys := h.keys
  shown := (Hw.get_set_fld _ _ hf.symm (by decide) (by decide)).trans h.shown
  regs d k hk := by
    have herased : (t.set f 0 v).regs = Tbl.erase (f.key 0) t.regs := if_pos hv
    rw [herased]
    by_cases he : k = f.key 0
    · rw [he, Tbl.get_erase_same]
    · rw [Tbl.get_erase_ne _ _ he, h.regs d k hk]

theorem Hw.ResetLeaves.inc (f : Fld) (n : Nat) (hf : keptId f.id = true ∧ f.id ≠ R.ERR_STATUS_LAST_DEV_RESET.id) :
    Hw.ResetLeaves ports keys cause (t.inc f 0 n) := h.set f _ hf

theorem Hw.ResetLeaves.writeDump (d : Dump) : Hw.ResetLeaves ports keys cause (t.writeDump d) := by
  have hslots (m : Mgt) (hm : m.keys = t.mgt.keys) : Hw.ResetLeaves ports keys cause { t with mgt := m } := h.of_mgt rfl rfl rfl hm
  unfold Hw.writeDump
  split <;> exact (((hslots _ (by rfl)).set R.ERR_DUMP_STATUS_VALID _ (by decide)).set R.ERR_DUMP_STATUS_SHORT_VALID _ (by decide)).set
    R.ERR_STATUS_DUMP_NEW 1 (by decide)

theorem Hw.ResetLeaves.sdgDown : Hw.ResetLeaves ports keys cause t.sdgDown := by
  rw [Hw.sdgDown_eq]
  have hcleared : Hw.ResetLeaves ports keys cause t.sdgCleared :=
    h.of_mgt (by rw [Hw.sdgCleared]) (by rw [Hw.sdgCleared]) (by rw [Hw.sdgCleared]) (by rw [Hw.sdgCleared, Hw.sdgDown_keys])
  have hpair := (((((hcleared.set R.SDG_STATUS_STATE 2 (by decide)).set R.SDG_STATUS_EID_VALID 0 (by decide)).set R.SDG_MGMT_MODE 0
    (by decide)).set R.SDG_MGMT_I3C_DA 0 (by decide)).set R.SDG_MGMT_EID 0 (by decide)).inc R.SDG_STATUS_RESETS 1 (by decide)
  exact (hpair.set_reset R.ERR_DUMP_STATUS_BUSY 0 (by decide) (by decide)).set R.SEC_KEY_CTRL_APPLY 0 (by decide)

theorem Hw.ResetLeaves.takePending : Hw.ResetLeaves ports keys cause t.takePending := by
  unfold Hw.takePending
  split
  · exact Hw.ResetLeaves.sdgDown (t := t.flushLog) (h.of_mgt rfl rfl rfl rfl)
  · exact h

end Leaves

/-- The dies' domain keeps its phase while a pending bank takes the sheepdog along. -/
theorem Hw.takePending_phase (s : Hw) : s.takePending.mgt.phase = s.mgt.phase := by
  unfold Hw.takePending
  split <;> rfl

theorem Tbl.get_filter_of_kept {α : Type} (d : α) {k : Nat} {keep : Nat × α → Bool} (hk : ∀ v, keep (k, v) = true) (t : Tbl α) :
    Tbl.get d k (t.filter keep) = Tbl.get d k t := by
  induction t with
  | nil => rfl
  | cons x t ih =>
    rw [List.filter_cons]
    by_cases hx : x.1 = k
    · have hkeep : keep x = true := by rw [← Prod.eta x, hx]; exact hk x.2
      rw [if_pos hkeep, Tbl.get, Tbl.get, if_pos hx, if_pos hx]
    · split
      · rw [Tbl.get, Tbl.get, if_neg hx, if_neg hx, ih]
      · rw [ih, Tbl.get, if_neg hx]

theorem keptId_lastDevReset : keptId (R.ERR_STATUS_LAST_DEV_RESET.key 0 / 65536) = true := by decide

/-- The reset of the dies leaves this of every hardware that shows the cause. -/
theorem Run.diesReset_leaves (r : Run) {cause : Nat} (hshown : r.hw.get R.ERR_STATUS_LAST_DEV_RESET = cause) :
    Hw.ResetLeaves r.hw.dev.ports r.hw.mgt.keys cause r.diesReset.hw := by
  have hreset (m : Mgt) (hm : m.keys = r.hw.mgt.keys) : Hw.ResetLeaves r.hw.dev.ports r.hw.mgt.keys cause
      (Hw.resetFields { r.hw with dev := { ports := r.hw.dev.ports }, latch := [], clk := { now := r.hw.clk.now }, mgt := m } keptId) :=
    { dev := rfl, clk := rfl, keys := hm
      shown := (Tbl.get_filter_of_kept _ (fun _ => keptId_lastDevReset) r.hw.regs).trans hshown
      regs := fun d k hk => Tbl.get_filter_of_dropped d (fun _ => hk) r.hw.regs }
  exact Hw.ResetLeaves.set (hreset _ (by rfl)) R.SEC_KEY_CTRL_APPLY 0 (by decide)

/-- The phase that a device reset of powered dies leads to: the supply's causes and THERMAL_CRITICAL leave them without power, causes 5 and
6 are captured first unless NO_DUMP. -/
def resetPhase (cause : Nat) (noDump : Bool) : Phase :=
  if cause ≤ 4 then .reset else if cause ≤ 6 ∧ noDump = false then .capture else .boot

/-- The reset's record, and the causes shown. -/
def Hw.causeShown (s : Hw) (cause : Nat) (rst : DevReset) : Hw :=
  let s := ({ s with mgt.rst := rst }).set R.ERR_STATUS_LAST_DEV_RESET 0 cause
  let s := s.set R.THM_STATUS_LAST_RESET_CRIT 0 (if cause = 4 then 1 else 0)
  if 1 ≤ cause ∧ cause ≤ 3 then s.set R.PWR_STATUS_LAST_SUPPLY_RESET 0 cause else s

theorem Hw.causeShown_get (s : Hw) {cause : Nat} (hcause : cause ≤ 7) (rst : DevReset) :
    (s.causeShown cause rst).get R.ERR_STATUS_LAST_DEV_RESET = cause := by
  have hset (u : Hw) : ((u.set R.ERR_STATUS_LAST_DEV_RESET 0 cause).set R.THM_STATUS_LAST_RESET_CRIT 0 (if cause = 4 then 1 else 0)).get
      R.ERR_STATUS_LAST_DEV_RESET = cause :=
    (Hw.get_set_ne _ _ (by decide)).trans ((Hw.get_set_same _ _ _ _).trans (Nat.mod_eq_of_lt (Nat.lt_succ_of_le hcause)))
  unfold Hw.causeShown
  dsimp only
  split
  · exact (Hw.get_set_ne _ _ (by decide)).trans (hset _)
  · exact hset _

theorem Hw.causeShown_dev (s : Hw) (cause : Nat) (rst : DevReset) : (s.causeShown cause rst).dev = s.dev := by
  unfold Hw.causeShown
  dsimp only
  split <;> rfl

theorem Hw.causeShown_keys (s : Hw) (cause : Nat) (rst : DevReset) : (s.causeShown cause rst).mgt.keys = s.mgt.keys := by
  unfold Hw.causeShown
  dsimp only
  split <;> rfl

/-- The record of a device reset of powered dies. -/
def Hw.resetRecord (s : Hw) (cause : Nat) : DevReset :=
  { cause := cause, seq := s.get R.ERR_LOG_SEQ_NEWEST, frame := s.clk.frame, start := s.clk.now,
    clear := if (cause == 4) = true then none else if cause = 3 then some (s.clk.now + 2000) else some s.clk.now
    hot := cause == 4, sag := cause == 1 || cause == 2 }

/-- The three courses of a device reset, from the hardware that shows the cause: a short dump written on the hold-up rail, a capture
for a full dump, or neither. -/
def Run.supplyReset (r : Run) (u : Hw) : Run :=
  (({ r with hw := (u.capture false).2 } : Run).diesReset.on fun s => s.writeDump (u.capture false).1).on fun s =>
    ({ s with mgt.phase := .reset } : Hw).takePending
def Run.captureReset (r : Run) (u : Hw) : Run :=
  ({ r with hw := (u.capture true).2 } : Run).diesReset.on fun s =>
    { s with mgt.phase := .capture, mgt.rst := { s.mgt.rst with cap := some (u.capture true).1 } }
def Run.plainReset (r : Run) (u : Hw) : Run :=
  ({ r with hw := u } : Run).diesReset.on fun s => ({ s with mgt.phase := .boot } : Hw).takePending

theorem Run.deviceReset_eq {r : Run} (hup : r.hw.diesUp = true) (cause : Nat) (noDump : Bool) : r.deviceReset cause noDump =
    if decide (1 ≤ cause) && decide (cause ≤ 4) then r.supplyReset (r.hw.causeShown cause (r.hw.resetRecord cause))
    else if decide (5 ≤ cause) && decide (cause ≤ 6) && !noDump then r.captureReset (r.hw.causeShown cause (r.hw.resetRecord cause))
    else r.plainReset (r.hw.causeShown cause (r.hw.resetRecord cause)) := by
  unfold Run.deviceReset
  simp only [Hw.absorbs_of_diesUp hup, Hw.phase_ne_reset_of_diesUp hup, Bool.false_eq_true, if_false, Bool.false_and, Bool.or_false, or_false]
  rfl

section Courses
variable (r : Run) {u : Hw} {cause : Nat} (hu : u.get R.ERR_STATUS_LAST_DEV_RESET = cause)
include hu

theorem Run.supplyReset_leaves : Hw.ResetLeaves u.dev.ports u.mgt.keys cause (r.supplyReset u).hw :=
  have hdies := Run.diesReset_leaves { r with hw := (u.capture false).2 } hu
  Hw.ResetLeaves.takePending ((hdies.writeDump _).of_mgt rfl rfl rfl rfl)

theorem Run.captureReset_leaves : Hw.ResetLeaves u.dev.ports u.mgt.keys cause (r.captureReset u).hw :=
  (Run.diesReset_leaves { r with hw := (u.capture true).2 } hu).of_mgt rfl rfl rfl rfl

theorem Run.plainReset_leaves : Hw.ResetLeaves u.dev.ports u.mgt.keys cause (r.plainReset u).hw :=
  Hw.ResetLeaves.takePending ((Run.diesReset_leaves { r with hw := u } hu).of_mgt rfl rfl rfl rfl)

end Courses

/-- A device reset of powered dies: what it leaves, the phase it leads to, and the one write it posts, which clears device memory. -/
theorem Run.deviceReset_leaves {r : Run} (hup : r.hw.diesUp = true) {cause : Nat} (hlo : 1 ≤ cause) (hhi : cause ≤ 7) (noDump : Bool) :
    Hw.ResetLeaves r.hw.dev.ports r.hw.mgt.keys cause (r.deviceReset cause noDump).hw ∧
      (r.deviceReset cause noDump).hw.mgt.phase = resetPhase cause noDump ∧
      (r.deviceReset cause noDump).posts = .zero 0 (2 ^ 48) :: r.posts := by
  have hshown := r.hw.causeShown_get hhi (r.hw.resetRecord cause)
  rw [Run.deviceReset_eq hup, ← r.hw.causeShown_dev cause (r.hw.resetRecord cause), ← r.hw.causeShown_keys cause (r.hw.resetRecord cause),
    resetPhase]
  by_cases h4 : cause ≤ 4
  · rw [if_pos (by simp [hlo, h4]), if_pos h4]
    exact ⟨r.supplyReset_leaves hshown, Hw.takePending_phase _, rfl⟩
  · rw [if_neg (by simp [h4]), if_neg h4]
    by_cases hfull : cause ≤ 6 ∧ noDump = false
    · rw [if_pos (by simp [hfull]; omega), if_pos hfull]
      exact ⟨r.captureReset_leaves hshown, rfl, rfl⟩
    · rw [if_neg (by simpa [show 5 ≤ cause by omega] using hfull), if_neg hfull]
      exact ⟨r.plainReset_leaves hshown, Hw.takePending_phase _, rfl⟩

/-! ## Device-fatal records and the commands that reset the device -/

/-- The hardware after a device-fatal record, before the reset. -/
def Hw.fatalLogged (s : Hw) (e : Err) (a : LogArg) : Hw :=
  let s := s.log e a
  let s := { s with mgt := { s.mgt with spoilt := s.mgt.spoilt || s.mgt.trial.isSome } }
  match s.mgt.log.events.find? fun x => x.seq == s.get R.ERR_LOG_SEQ_NEWEST && x.cls == 3 with
  | some x => { s.emit (.msg 1 0x0A 0 x.bytes) with mgt.log := { s.mgt.log with events := s.mgt.log.events.filter fun y => y.seq != x.seq } }
  | none => s

theorem Hw.fatalLogged_keeps (s : Hw) (e : Err) (a : LogArg) :
    (s.fatalLogged e a).mgt.phase = s.mgt.phase ∧ (s.fatalLogged e a).dev.ports = s.dev.ports ∧ (s.fatalLogged e a).mgt.keys = s.mgt.keys := by
  unfold Hw.fatalLogged
  dsimp only
  split <;> exact ⟨Hw.log_mgt_phase _ _ _, Hw.log_dev_ports _ _ _, Hw.log_mgt_keys _ _ _⟩

theorem Run.deviceFatal_eq {r : Run} (hup : r.hw.diesUp = true) (e : Err) (a : LogArg) (cause : Nat) (noDump : Bool) :
    r.deviceFatal e a cause noDump =
      (r.on fun s => s.fatalLogged e { a with flags := a.flags ||| (if noDump then 0 else 2) }).deviceReset cause noDump := by
  unfold Run.deviceFatal
  rw [Hw.absorbs_of_diesUp hup, if_neg Bool.false_ne_true]
  rfl

theorem Run.deviceFatal_leaves {r : Run} (hup : r.hw.diesUp = true) (e : Err) (a : LogArg) {cause : Nat} (hlo : 1 ≤ cause) (hhi : cause ≤ 7)
    (noDump : Bool) : Hw.ResetLeaves r.hw.dev.ports r.hw.mgt.keys cause (r.deviceFatal e a cause noDump).hw ∧
      (r.deviceFatal e a cause noDump).hw.mgt.phase = resetPhase cause noDump ∧
      (r.deviceFatal e a cause noDump).posts = .zero 0 (2 ^ 48) :: r.posts := by
  rw [Run.deviceFatal_eq hup]
  obtain ⟨hphase, hports, hkeys⟩ := r.hw.fatalLogged_keeps e { a with flags := a.flags ||| (if noDump then 0 else 2) }
  have hlogged : (r.on fun s => s.fatalLogged e { a with flags := a.flags ||| (if noDump then 0 else 2) }).hw.diesUp = true := by
    rw [Run.on_hw, Hw.diesUp, hphase]
    exact hup
  have h := Run.deviceReset_leaves hlogged hlo hhi noDump
  rw [Run.on_hw, hports, hkeys] at h
  exact h

/-- The command answers a next state after a device reset of this cause that leads to this phase: device memory reads 0, host memory and
the queue stay. -/
def ResetsDevice (s : State) (ports : List Nat) (phase : Phase) (cause : Nat) (o : Host.Outcome State Fault Refusal) : Prop :=
  ∃ t, o = .next t ∧ t.hw.mgt.phase = phase ∧ t.hw.get R.ERR_STATUS_LAST_DEV_RESET 0 = cause ∧ t.hw.dev = { ports := ports } ∧
    t.hw.clk = { now := t.hw.clk.now } ∧ t.hw.mgt.keys = s.hw.mgt.keys ∧ t.pending = s.pending ∧ (∀ a, a < 2 ^ 48 → t.devByte a = 0#8) ∧
    (∀ a, t.hostByte a = s.hostByte a) ∧ ∀ d k, keptId (k / 65536) = false → Tbl.get d k t.hw.regs = d

theorem State.run_resetsDevice (s : State) {f : Run → Run} {ports : List Nat} {phase : Phase} {cause : Nat}
    (hhw : Hw.ResetLeaves ports s.hw.mgt.keys cause (f ⟨s.hw, s.mem, []⟩).hw) (hphase : (f ⟨s.hw, s.mem, []⟩).hw.mgt.phase = phase)
    (hposts : (f ⟨s.hw, s.mem, []⟩).posts = [.zero 0 (2 ^ 48)]) : ResetsDevice s ports phase cause (s.run f) := by
  obtain ⟨t, ht, hpending, hthw, hmem⟩ := State.run_cases s f
  rw [hposts] at hmem
  rw [← hthw] at hhw hphase
  refine ⟨t, ht, hphase, hhw.shown, hhw.dev, hhw.clk, hhw.keys, hpending, fun a ha => ?_, fun a => ?_, hhw.regs⟩
  · rw [State.devByte, hmem, Mem.get_dev_apply]
    have hzero : [Post.zero 0 (2 ^ 48)].findSome? (Post.devByte a) = some 0#8 := by
      rw [List.findSome?_cons, Post.devByte, if_pos ⟨Nat.zero_le a, by omega⟩]
    rw [hzero, Option.getD_some]
  · rw [State.hostByte, hmem, Mem.get_host_apply]
    rfl

/-- The reset of a device-fatal record, with what the command does to the hardware after it. -/
theorem State.fatal_resetsDevice (s : State) {f : Run → Run} {r : Run} (hup : r.hw.diesUp = true) {e : Err} {a : LogArg} {cause : Nat}
    (hlo : 1 ≤ cause) (hhi : cause ≤ 7) {noDump : Bool} (hr : r.posts = []) (hkeys : r.hw.mgt.keys = s.hw.mgt.keys)
    (hf : f ⟨s.hw, s.mem, []⟩ = r.deviceFatal e a cause noDump) : ResetsDevice s r.hw.dev.ports (resetPhase cause noDump) cause (s.run f) := by
  obtain ⟨hleaves, hphase, hposts⟩ := Run.deviceFatal_leaves hup e a hlo hhi noDump
  rw [hkeys] at hleaves
  rw [hr] at hposts
  exact s.run_resetsDevice (hf ▸ hleaves) (hf ▸ hphase) (hf ▸ hposts)

section
variable {s : State}

theorem execSagReset_resetsDevice (hup : s.hw.diesUp = true) : ResetsDevice s s.hw.dev.ports .reset 1 (execSagReset s) := by
  obtain ⟨hleaves, hphase, hposts⟩ := Run.deviceFatal_leaves (r := ⟨s.hw, s.mem, []⟩) hup E.SAG_RESET { kind := 5 } (cause := 1)
    (by decide) (by decide) false
  refine s.run_resetsDevice ?_ ?_ ?_ <;> rw [if_pos (Hw.lit_of_diesUp hup)]
  exacts [hleaves.of_mgt rfl rfl rfl rfl, hphase, hposts]

theorem execOvReset_resetsDevice (hup : s.hw.diesUp = true) : ResetsDevice s s.hw.dev.ports .reset 2 (execOvReset s) := by
  obtain ⟨hleaves, hphase, hposts⟩ := Run.deviceFatal_leaves (r := ⟨s.hw, s.mem, []⟩) hup E.OV_RESET { kind := 5 } (cause := 2)
    (by decide) (by decide) false
  refine s.run_resetsDevice ?_ ?_ ?_ <;> rw [if_pos (Hw.lit_of_diesUp hup)]
  exacts [hleaves.of_mgt rfl rfl rfl rfl, hphase, hposts]

theorem execPowerOvercurrent_resetsDevice (hup : s.hw.diesUp = true) (hclamp : s.hw.is R.PWR_STATUS_CLAMP = true) {t0 : Nat}
    (hat : s.hw.mgt.pwr.clampAt = some t0) : ResetsDevice s s.hw.dev.ports .reset 3 (execPowerOvercurrent s) := by
  obtain ⟨hleaves, hphase, hposts⟩ := Run.deviceFatal_leaves (r := (Run.mk s.hw s.mem []).on fun h => h.reach (t0 + 1000000)) hup
    E.POWER_OVERCURRENT { kind := 5 } (cause := 3) (by decide) (by decide) false
  refine s.run_resetsDevice ?_ ?_ ?_ <;> simp only [hclamp, hup, hat, Bool.and_self]
  · refine Hw.ResetLeaves.set ?_ R.PWR_STATUS_CLAMP 0 (by decide)
    exact hleaves.of_mgt rfl rfl rfl rfl
  exacts [hphase, hposts]

theorem execThermalCritical_resetsDevice (hup : s.hw.diesUp = true) (u : ThermUnit) :
    ResetsDevice s s.hw.dev.ports .reset 4 (execThermalCritical u s) :=
  s.fatal_resetsDevice (r := ⟨s.hw, s.mem, []⟩) (cause := 4) (noDump := false) hup (by decide) (by decide) rfl rfl rfl

theorem execFabricUe_resetsDevice (hup : s.hw.diesUp = true) {d : Fin 40} (hd : 24 ≤ d.val) :
    ResetsDevice s s.hw.dev.ports .capture 5 (execFabricUe d s) := by
  refine s.fatal_resetsDevice (r := ⟨s.hw, s.mem, []⟩) (e := E.FABRIC_UE_DEV) (a := { kind := (dieSource d.val).1, unit := (dieSource d.val).2 })
    (cause := 5) (noDump := false) hup (by decide) (by decide) rfl rfl ?_
  simp only [hup, dieSource_fst_ne_six hd, Bool.not_true, Bool.false_eq_true, if_false]

theorem execDieFatal_resetsDevice (hup : s.hw.diesUp = true) {d : Fin 40} (hd : 24 ≤ d.val) (hmg : d.val < 39) :
    ResetsDevice s s.hw.dev.ports .capture 5 (execDieFatal d s) := by
  refine s.fatal_resetsDevice (r := ⟨s.hw, s.mem, []⟩) (e := E.DIE_FATAL) (a := { kind := (dieSource d.val).1, unit := (dieSource d.val).2 })
    (cause := 5) (noDump := false) hup (by decide) (by decide) rfl rfl ?_
  simp only [hup, dieSource_fst_ne_six hd, dieSource_fst_ne_five hmg, Bool.not_true, Bool.false_eq_true, or_false, if_false]

theorem execHostReset_resetsDevice (hup : s.hw.hostUp = true) (noDump : Bool) :
    ResetsDevice s s.hw.dev.ports (if noDump then .boot else .capture) 6 (execHostReset noDump s) := by
  have hphase : resetPhase 6 noDump = if noDump then .boot else .capture := by cases noDump <;> rfl
  rw [← hphase]
  exact s.fatal_resetsDevice (r := ⟨s.hw, s.mem, []⟩) (cause := 6) (Hw.diesUp_of_hostUp hup) (by decide) (by decide) rfl rfl (if_pos hup)

/-- A reset by the host interface writes no dump. -/
theorem State.plain_resetsDevice {f : Run → Run} {r : Run} (hup : r.hw.diesUp = true) (hr : r.posts = [])
    (hkeys : r.hw.mgt.keys = s.hw.mgt.keys) (hf : f ⟨s.hw, s.mem, []⟩ = r.deviceReset 7) : ResetsDevice s r.hw.dev.ports .boot 7 (s.run f) := by
  obtain ⟨hleaves, hphase, hposts⟩ := Run.deviceReset_leaves hup (cause := 7) (by decide) (by decide) false
  rw [hkeys] at hleaves
  rw [hr] at hposts
  exact s.run_resetsDevice (hf ▸ hleaves) (hf ▸ hphase) (hf ▸ hposts)

theorem execPerstAssert_resetsDevice (hup : s.hw.diesUp = true) (hport : s.hw.dev.ports.contains 0 = true) :
    ResetsDevice s (s.hw.dev.ports.filter (· ≠ 0)) .boot 7 (execPerstAssert 0 s) := by
  refine State.plain_resetsDevice (r := (Run.mk s.hw s.mem []).on fun h => { h with dev.ports := h.dev.ports.filter (· ≠ 0) }) hup rfl rfl ?_
  simp only [Fin.val_zero, hport, Bool.not_true, Bool.false_eq_true, if_false, if_true]

theorem execFlr_resetsDevice (hup : s.hw.portUp 0 = true) : ResetsDevice s s.hw.dev.ports .boot 7 (execFlr .pf s) :=
  State.plain_resetsDevice (r := ⟨s.hw, s.mem, []⟩) (Hw.diesUp_of_portUp hup) rfl rfl (if_pos hup)

theorem execCxlReset_resetsDevice (hup : s.hw.portUp 0 = true) : ResetsDevice s s.hw.dev.ports .boot 7 (execCxlReset 0 s) := by
  refine State.plain_resetsDevice (r := ⟨s.hw, s.mem, []⟩) (Hw.diesUp_of_portUp hup) rfl rfl ?_
  simp only [Fin.val_zero, hup, Bool.not_true, Bool.false_eq_true, if_false, if_true]

end

/-- Settles O39: each of these commands runs one device reset of powered dies. -/
theorem deviceResets : Obligations.DeviceResets := by
  unfold Obligations.DeviceResets
  exact ⟨fun _ hup => execSagReset_resetsDevice hup, fun _ hup => execOvReset_resetsDevice hup,
    fun _ _ hup hclamp hat => execPowerOvercurrent_resetsDevice hup hclamp hat, fun u _ hup => execThermalCritical_resetsDevice hup u,
    fun _ _ hup hd => execFabricUe_resetsDevice hup hd, fun _ _ hup hd hmg => execDieFatal_resetsDevice hup hd hmg,
    fun n _ hup => execHostReset_resetsDevice hup n, fun _ hup hport => execPerstAssert_resetsDevice hup hport,
    fun _ hup => execFlr_resetsDevice hup, fun _ hup => execCxlReset_resetsDevice hup⟩

end Sys2Proof.Machine
end

section
/-! SUPPORT. What the conditions of power and heat leave: their registers, the clock and the boot's facts. -/

namespace Sys2Proof.Machine

/-! ## What conditions and late records leave of a boot (R75, R292, R342) -/

theorem Hw.FieldsBut.get_fld {fs : List Fld} {s t : Hw} (h : Hw.FieldsBut fs s t) {f : Fld} {i : Nat} (hf : (fs.any fun g => g.id == f.id) = false)
    (hi : i < 65536) : t.get f i = s.get f i :=
  h _ _ (by rw [f.key_div hi, hf])

theorem Hw.FieldsBut.mono {fs gs : List Fld} {s t : Hw} (h : Hw.FieldsBut fs s t) (hsub : ∀ f ∈ fs, f ∈ gs) : Hw.FieldsBut gs s t := fun d k hk => by
  refine h d k (Bool.eq_false_iff.mpr fun hany => ?_)
  obtain ⟨f, hf, hid⟩ := List.any_eq_true.mp hany
  exact absurd ((List.any_eq_true.mpr ⟨f, hsub f hf, hid⟩).symm.trans hk) (by decide)

/-- Steps that are each related keep a reflexive and transitive relation together. -/
theorem Hw.each_rel {α : Type} {P : Hw → Hw → Prop} (hrefl : ∀ s, P s s) (htrans : ∀ s t u, P s t → P t u → P s u) (s : Hw) {xs : List α}
    {f : α → Hw → Hw} (h : ∀ x ∈ xs, ∀ t, P t (f x t)) : P s (s.each xs f) := by
  induction xs generalizing s with
  | nil => exact hrefl s
  | cons x xs ih => exact htrans _ _ _ (h x List.mem_cons_self s) (ih (f x s) fun y hy => h y (List.mem_cons_of_mem x hy))

/-- The registers that a condition of the supply, the clocks or the temperatures changes, and those of a record taken late. -/
def condFlds : List Fld :=
  [R.FSQ_STATE_SUSPENDED, R.FSQ_STATE_SUSP_SAG, R.FSQ_STATE_SUSP_THERMAL, R.FSQ_STATE_SUSP_OTHER, R.PEG_GSTATUS_LOCAL_COUNT,
    R.PEG_GSTATUS_CHILD_ARRIVED, R.PWR_STATUS_ACLK_MHZ, R.PWR_STATUS_CAP_HELD, R.PWR_STATUS_SAG_WARN, R.PWR_STATUS_SAG_CAUSE, R.PWR_SAG_WARN,
    R.ERR_PEN_LAST_LOG_SEQ] ++ logFlds

/-- What conditions and late records keep: the clock, the phase, whether the sheepdog runs and since when, and every other register. -/
structure Hw.CondKeeps (s t : Hw) : Prop where
  clk : t.clk = s.clk
  phase : t.mgt.phase = s.mgt.phase
  sdgUp : t.mgt.sdgUp = s.mgt.sdgUp
  bootAt : t.mgt.bootAt = s.mgt.bootAt
  flds : Hw.FieldsBut condFlds s t

theorem Hw.CondKeeps.refl (s : Hw) : Hw.CondKeeps s s := ⟨rfl, rfl, rfl, rfl, .refl _ s⟩

theorem Hw.CondKeeps.trans {s t u : Hw} (h : Hw.CondKeeps s t) (k : Hw.CondKeeps t u) : Hw.CondKeeps s u :=
  ⟨k.clk.trans h.clk, k.phase.trans h.phase, k.sdgUp.trans h.sdgUp, k.bootAt.trans h.bootAt, h.flds.trans k.flds⟩

theorem Hw.condKeeps_each {α : Type} (s : Hw) {xs : List α} {f : α → Hw → Hw} (h : ∀ x ∈ xs, ∀ t, Hw.CondKeeps t (f x t)) :
    Hw.CondKeeps s (s.each xs f) := Hw.each_rel .refl (fun _ _ _ => .trans) s h

theorem Hw.condKeeps_set (s : Hw) (f : Fld) {i : Nat} (v : Nat) (hf : f ∈ condFlds) (hi : i < 65536) : Hw.CondKeeps s (s.set f i v) :=
  ⟨rfl, rfl, rfl, rfl, s.fieldsBut_set v hf hi⟩

theorem Hw.condKeeps_modPen (s : Hw) (p : Nat) (f : PenSt → PenSt) : Hw.CondKeeps s (s.modPen p f) := ⟨rfl, rfl, rfl, rfl, .refl _ s⟩

theorem Hw.condKeeps_modPwr (s : Hw) (f : Power → Power) : Hw.CondKeeps s (s.modPwr f) := ⟨rfl, rfl, rfl, rfl, .refl _ s⟩

theorem Hw.LogKeeps.condKeeps {s t : Hw} (h : Hw.LogKeeps s t) : Hw.CondKeeps s t where
  clk := h.clk
  phase := h.mgt_field Mgt.phase rfl
  sdgUp := h.mgt_field Mgt.sdgUp rfl
  bootAt := h.mgt_field Mgt.bootAt rfl
  flds d k hk := h.regs d k fun hm => by
    have hlog : ∀ x ∈ logKeys, (condFlds.any fun f => f.id == x / 65536) = true := by decide
    exact absurd ((hlog k hm).symm.trans hk) (by decide)

theorem Hw.CondKeeps.ite {s t u : Hw} (c : Prop) [Decidable c] (h : Hw.CondKeeps s t) (k : Hw.CondKeeps s u) :
    Hw.CondKeeps s (if c then t else u) := by split <;> assumption

section Steps
variable {s t : Hw} (h : Hw.CondKeeps s t)
include h

theorem Hw.CondKeeps.set (f : Fld) {i : Nat} (v : Nat) (hf : f ∈ condFlds) (hi : i < 65536) : Hw.CondKeeps s (t.set f i v) :=
  h.trans (t.condKeeps_set f v hf hi)
theorem Hw.CondKeeps.log (e : Err) (a : LogArg) : Hw.CondKeeps s (t.log e a) := h.trans (t.log_keeps e a).condKeeps
theorem Hw.CondKeeps.msi (f v : Nat) : Hw.CondKeeps s (t.msi f v) := h.trans (t.msi_keeps f v).condKeeps
theorem Hw.CondKeeps.modPen (p : Nat) (f : PenSt → PenSt) : Hw.CondKeeps s (t.modPen p f) := h.trans (t.condKeeps_modPen p f)
theorem Hw.CondKeeps.modPwr (f : Power → Power) : Hw.CondKeeps s (t.modPwr f) := h.trans (t.condKeeps_modPwr f)

theorem Hw.CondKeeps.setTarget (f : Nat) : Hw.CondKeeps s (t.setTarget f) := by
  have htarget := h.set R.PWR_STATUS_ACLK_MHZ (i := 0) f (by decide) (by decide)
  unfold Hw.setTarget
  split
  · exact htarget.set R.PWR_STATUS_CAP_HELD 0 (by decide) (by decide)
  · exact htarget

end Steps

/-- A record taken late, and all of them. -/
theorem Hw.takeLate_condKeeps (s : Hw) (r : Rec) : Hw.CondKeeps s (s.takeLate r) := by
  refine (s.take_keeps r).condKeeps.trans (Hw.condKeeps_each _ fun p hp t => ?_)
  have hp : p < 65536 := by have := List.mem_range.mp hp; omega
  split
  · exact ((Hw.CondKeeps.refl t).set R.ERR_PEN_LAST_LOG_SEQ _ (by decide) hp).modPen _ _
  · exact .refl t

theorem Hw.drainBuffers_condKeeps (s : Hw) : Hw.CondKeeps s s.drainBuffers := by
  have hbuf (l : Log) : Hw.CondKeeps s { s with mgt.log := l } := ⟨rfl, rfl, rfl, rfl, .refl _ s⟩
  exact (hbuf _).trans (Hw.condKeeps_each _ fun r _ t => t.takeLate_condKeeps r)

/-- A pen's number stays below the span of one field's keys. -/
theorem Hw.lt_of_mem_penList {s : Hw} {p : Nat} (hp : p ∈ s.penList) : p < 65536 := by
  have := List.mem_range.mp (List.mem_filter.mp hp).1
  omega

theorem Hw.suspend_condKeeps (s : Hw) : Hw.CondKeeps s s.suspend := by
  refine Hw.condKeeps_each s fun p hp t => ?_
  have hp := Hw.lt_of_mem_penList hp
  have hcauses (a b c : Nat) : Hw.CondKeeps t (((t.set R.FSQ_STATE_SUSP_SAG p a).set R.FSQ_STATE_SUSP_THERMAL p b).set R.FSQ_STATE_SUSP_OTHER p c) :=
    (((Hw.CondKeeps.refl t).set R.FSQ_STATE_SUSP_SAG a (by decide) hp).set R.FSQ_STATE_SUSP_THERMAL b (by decide) hp).set
      R.FSQ_STATE_SUSP_OTHER c (by decide) hp
  exact .ite _ (.modPen (.set (hcauses _ _ _) R.FSQ_STATE_SUSPENDED 1 (by decide) hp) _ _) (hcauses _ _ _)

theorem Hw.notePegs_condKeeps (s : Hw) : Hw.CondKeeps s s.notePegs := by
  refine Hw.condKeeps_each s fun g hg t => ?_
  have hg : g < 65536 := by have := List.mem_range.mp hg; omega
  have hpegs (x : Tbl PegSt) : Hw.CondKeeps t { t with dev.pegs := x } := ⟨rfl, rfl, rfl, rfl, .refl _ t⟩
  split
  · exact ((hpegs _).set R.PEG_GSTATUS_LOCAL_COUNT _ (by decide) hg).set R.PEG_GSTATUS_CHILD_ARRIVED _ (by decide) hg
  · exact .refl t

theorem Hw.clocked_condKeeps (s : Hw) : Hw.CondKeeps s s.clocked := by
  refine (Hw.condKeeps_each s fun p _ t => ?_).trans (Hw.notePegs_condKeeps _)
  split
  · exact t.condKeeps_modPen _ _
  · exact .refl t

theorem Hw.limits_condKeeps (s : Hw) : Hw.CondKeeps s s.limits := s.suspend_condKeeps.trans (Hw.clocked_condKeeps _)

theorem Hw.enterSag_condKeeps (s : Hw) (cause : Nat) : Hw.CondKeeps s (s.enterSag cause) := by
  have hheld (f : Power → Power) : Hw.CondKeeps s ((((s.set R.PWR_STATUS_SAG_WARN 0 1).set R.PWR_STATUS_SAG_CAUSE 0 cause).modPwr f).set
      R.PWR_STATUS_CAP_HELD 0 0) :=
    ((((Hw.CondKeeps.refl s).set R.PWR_STATUS_SAG_WARN 1 (by decide) (by decide)).set R.PWR_STATUS_SAG_CAUSE cause (by decide)
      (by decide)).modPwr f).set R.PWR_STATUS_CAP_HELD 0 (by decide) (by decide)
  unfold Hw.enterSag
  dsimp only
  refine .trans (.msi (.set (.log ?_ _ _) R.PWR_SAG_WARN _ (by decide) (by decide)) _ _) (Hw.limits_condKeeps _)
  split
  · exact (hheld _).setTarget _
  · exact hheld _

end Sys2Proof.Machine
end

section
/-! SUPPORT. The boots of the sheepdog and of the device, stage by stage. -/

namespace Sys2Proof.Machine

/-! ## The boot of the sheepdog (R371, Table 14.5) -/

/-- The bank that a boot tries first. -/
def Hw.bootBank (s : Hw) : Nat := if s.is R.SEC_FW_PENDING_PENDING then s.get R.SEC_FW_PENDING_BANK else s.mgt.active

/-- The stages of a boot that has found `bank`, STATE `st` and REASON `reason`: it is counted, its result is shown, the versions of the
booted image are, and the address is. -/
def Hw.bootCounted (s : Hw) (fell : Bool) : Hw :=
  let h := s.inc R.SDG_BOOT_COUNT_BOOT
  if fell || (!s.is R.SEC_FW_PENDING_PENDING && h.mgt.spoilt) then h.set R.SEC_BOOT_STATUS_FALLBACK 0 1 else h

def Hw.bootResult (s : Hw) (bank : Option Nat) (st reason : Nat) (try_ : Bool) : Hw :=
  let h := ((s.set R.SEC_BOOT_STATUS_STATE 0 st).set R.SEC_BOOT_STATUS_REASON 0 reason).set R.SEC_BOOT_STATUS_BANK 0 (bank.getD 0)
  let h := (h.set R.SEC_FW_PENDING_PENDING 0 0).set R.SEC_FW_PENDING_TRY 0 (if try_ then 1 else 0)
  { h with mgt := { h.mgt with sdgUp := st != 2, trial := if try_ then some h.clk.now else none, spoilt := false, bootAt := h.clk.now,
                               log := { h.mgt.log with ring := [], last := [] } } }

def Hw.bootImages (s : Hw) (bank : Option Nat) (up : Bool) : Hw :=
  let h := s.set R.ERR_LOG_MIN_OLDEST 0 0
  let p : FwPackage := (bank.bind fun b => Tbl.find? b h.mgt.banks).getD ⟨[], [], []⟩
  let h := h.showImage 1 (fwManifest p 1)
  let h := h.set R.SEC_ARC_COMMIT_TARGET 0 ([2, 3, 4].foldl (fun m k => min m (mfSvn (fwManifest p k))) (mfSvn (fwManifest p 1)))
  h.set R.SEC_BOOT_STATUS_DEBUG 0 (if up && h.debugOpens p then 1 else 0)

def Hw.bootAddress (s : Hw) (up wasReset : Bool) (addr : Nat) : Hw :=
  let h := (s.set R.SDG_STATUS_STATE 0 (if up then 1 else 0)).set R.SDG_MGMT_SMB_ADDR 0 (0x58 + addr)
  if wasReset then h.set R.ERR_STATUS_SDG_RESET 0 1 else h

def Hw.bootShown (s : Hw) (x : Option Nat × Bool × Nat × Nat) (addr : Nat) : Hw :=
  (((s.bootCounted x.2.1).bootResult x.1 x.2.2.1 x.2.2.2 (s.is R.SEC_FW_PENDING_PENDING && x.1 == some s.bootBank)).bootImages x.1
    (x.2.2.1 != 2)).bootAddress (x.2.2.1 != 2) (s.get R.SDG_STATUS_STATE == 2) addr

/-- The records that waited are taken by a sheepdog that runs. -/
def Hw.bootDone (s : Hw) (x : Option Nat × Bool × Nat × Nat) (addr : Nat) : Hw :=
  if x.2.2.1 != 2 then (s.bootShown x addr).drainBuffers else s.bootShown x addr

theorem exec_sheepdogBoot {s : State} (ad : Fin 4) (hlit : s.hw.lit = true) (hdown : s.hw.mgt.sdgUp = false) (hrom : s.hw.rom = false) :
    exec (.sheepdogBoot ad) s = .next { s with hw := s.hw.bootDone (s.hw.romBoot s.hw.bootBank) ad.val } := by
  change execSheepdogBoot ad s = _
  exact s.next_hw_congr (if_neg (by simp [hlit, hdown, hrom]))

theorem Hw.bootCounted_regsBut (s : Hw) (fell : Bool) :
    Hw.RegsBut [R.SDG_BOOT_COUNT_BOOT.key 0, R.SEC_BOOT_STATUS_FALLBACK.key 0] s (s.bootCounted fell) := by
  have hcount := s.regsBut_inc (ks := [R.SDG_BOOT_COUNT_BOOT.key 0, R.SEC_BOOT_STATUS_FALLBACK.key 0]) R.SDG_BOOT_COUNT_BOOT 0 1 (by decide)
  unfold Hw.bootCounted
  dsimp only
  split
  · exact hcount.set 1 (by decide)
  · exact hcount

theorem Hw.bootCounted_count (s : Hw) (fell : Bool) :
    (s.bootCounted fell).get R.SDG_BOOT_COUNT_BOOT = min (s.get R.SDG_BOOT_COUNT_BOOT + 1) (2 ^ 32 - 1) := by
  unfold Hw.bootCounted
  dsimp only
  split
  · exact (Hw.get_set_ne _ _ (by decide)).trans (Hw.get_inc_same _ _ _ _)
  · exact Hw.get_inc_same _ _ _ _

theorem Hw.bootCounted_clk (s : Hw) (fell : Bool) : (s.bootCounted fell).clk = s.clk := by
  unfold Hw.bootCounted
  dsimp only
  split <;> rfl

section Result
variable (s : Hw) (bank : Option Nat) (st reason : Nat) (try_ : Bool)

theorem Hw.bootResult_regsBut : Hw.RegsBut [R.SEC_BOOT_STATUS_STATE.key 0, R.SEC_BOOT_STATUS_REASON.key 0, R.SEC_BOOT_STATUS_BANK.key 0,
    R.SEC_FW_PENDING_PENDING.key 0, R.SEC_FW_PENDING_TRY.key 0] s (s.bootResult bank st reason try_) :=
  ((((((Hw.RegsBut.refl _ s).set st (by decide)).set reason (by decide)).set (bank.getD 0) (by decide)).set 0 (by decide)).set
    (if try_ then 1 else 0) (by decide)).of_regs_eq rfl

theorem Hw.bootResult_state : (s.bootResult bank st reason try_).get R.SEC_BOOT_STATUS_STATE = st % 4 := by
  refine (Hw.get_set_ne _ _ (by decide)).trans ((Hw.get_set_ne _ _ (by decide)).trans ?_)
  exact (Hw.get_set_ne _ _ (by decide)).trans ((Hw.get_set_ne _ _ (by decide)).trans (Hw.get_set_same _ _ _ _))

theorem Hw.bootResult_reason : (s.bootResult bank st reason try_).get R.SEC_BOOT_STATUS_REASON = reason % 256 := by
  refine (Hw.get_set_ne _ _ (by decide)).trans ((Hw.get_set_ne _ _ (by decide)).trans ?_)
  exact (Hw.get_set_ne _ _ (by decide)).trans (Hw.get_set_same _ _ _ _)

theorem Hw.bootResult_pending : (s.bootResult bank st reason try_).get R.SEC_FW_PENDING_PENDING = 0 :=
  (Hw.get_set_ne _ _ (by decide)).trans (Hw.get_set_same _ _ _ _)

end Result

theorem Hw.bootImages_regsBut (s : Hw) (bank : Option Nat) (up : Bool) : Hw.RegsBut [R.ERR_LOG_MIN_OLDEST.key 0, R.SEC_IMG_VER_VERSION.key 0,
    R.SEC_IMG_SVN_SDG.key 0, R.SEC_ARC_COMMIT_TARGET.key 0, R.SEC_BOOT_STATUS_DEBUG.key 0] s (s.bootImages bank up) :=
  (((((Hw.RegsBut.refl _ s).set 0 (by decide)).set _ (by decide)).set _ (by decide)).set _ (by decide)).set _ (by decide)

theorem Hw.showImage_mgt (s : Hw) (k : Nat) (m : Bytes) : (s.showImage k m).mgt = s.mgt := by rw [Hw.showImage, Hw.set_mgt, Hw.set_mgt]
theorem Hw.showImage_clk (s : Hw) (k : Nat) (m : Bytes) : (s.showImage k m).clk = s.clk := by rw [Hw.showImage, Hw.set_clk, Hw.set_clk]

theorem Hw.bootImages_mgt (s : Hw) (bank : Option Nat) (up : Bool) : (s.bootImages bank up).mgt = s.mgt := by
  rw [Hw.bootImages, Hw.set_mgt, Hw.set_mgt, Hw.showImage_mgt, Hw.set_mgt]

theorem Hw.bootAddress_regsBut (s : Hw) (up wasReset : Bool) (addr : Nat) :
    Hw.RegsBut [R.SDG_STATUS_STATE.key 0, R.SDG_MGMT_SMB_ADDR.key 0, R.ERR_STATUS_SDG_RESET.key 0] s (s.bootAddress up wasReset addr) := by
  have haddr := ((Hw.RegsBut.refl [R.SDG_STATUS_STATE.key 0, R.SDG_MGMT_SMB_ADDR.key 0, R.ERR_STATUS_SDG_RESET.key 0] s).set
    (f := R.SDG_STATUS_STATE) (i := 0) (if up then 1 else 0) (by decide)).set (f := R.SDG_MGMT_SMB_ADDR) (i := 0) (0x58 + addr) (by decide)
  unfold Hw.bootAddress
  dsimp only
  split
  · exact haddr.set 1 (by decide)
  · exact haddr

theorem Hw.bootAddress_addr (s : Hw) (up wasReset : Bool) (addr : Fin 4) :
    (s.bootAddress up wasReset addr.val).get R.SDG_MGMT_SMB_ADDR = 0x58 + addr.val := by
  have haddr : ((s.set R.SDG_STATUS_STATE 0 (if up then 1 else 0)).set R.SDG_MGMT_SMB_ADDR 0 (0x58 + addr.val)).get R.SDG_MGMT_SMB_ADDR =
      0x58 + addr.val := (Hw.get_set_same _ _ _ _).trans (Nat.mod_eq_of_lt (by have := addr.isLt; change _ < 128; omega))
  unfold Hw.bootAddress
  dsimp only
  split
  · exact (Hw.get_set_ne _ _ (by decide)).trans haddr
  · exact haddr

theorem Hw.bootAddress_mgt (s : Hw) (up wasReset : Bool) (addr : Nat) : (s.bootAddress up wasReset addr).mgt = s.mgt := by
  unfold Hw.bootAddress
  dsimp only
  split <;> rfl

/-- What a boot shows and notes. -/
structure Hw.Booted (s : Hw) (x : Option Nat × Bool × Nat × Nat) (addr : Nat) (t : Hw) : Prop where
  count : t.get R.SDG_BOOT_COUNT_BOOT = min (s.get R.SDG_BOOT_COUNT_BOOT + 1) (2 ^ 32 - 1)
  sdgUp : t.mgt.sdgUp = (x.2.2.1 != 2)
  state : t.get R.SEC_BOOT_STATUS_STATE = x.2.2.1 % 4
  reason : t.get R.SEC_BOOT_STATUS_REASON = x.2.2.2 % 256
  pending : t.get R.SEC_FW_PENDING_PENDING = 0
  addr : t.get R.SDG_MGMT_SMB_ADDR = 0x58 + addr
  bootAt : t.mgt.bootAt = s.clk.now

theorem Hw.bootShown_booted (s : Hw) (x : Option Nat × Bool × Nat × Nat) (addr : Fin 4) : s.Booted x addr.val (s.bootShown x addr.val) := by
  unfold Hw.bootShown
  have haddr := fun u up wasReset => Hw.bootAddress_regsBut u up wasReset addr.val
  refine ⟨?_, ?_, ?_, ?_, ?_, Hw.bootAddress_addr _ _ _ _, ?_⟩
  · rw [(haddr _ _ _).get (by decide), (Hw.bootImages_regsBut _ _ _).get (by decide), (Hw.bootResult_regsBut _ _ _ _ _).get (by decide),
      Hw.bootCounted_count]
  · rw [Hw.bootAddress_mgt, Hw.bootImages_mgt]
    rfl
  · rw [(haddr _ _ _).get (by decide), (Hw.bootImages_regsBut _ _ _).get (by decide), Hw.bootResult_state]
  · rw [(haddr _ _ _).get (by decide), (Hw.bootImages_regsBut _ _ _).get (by decide), Hw.bootResult_reason]
  · rw [(haddr _ _ _).get (by decide), (Hw.bootImages_regsBut _ _ _).get (by decide), Hw.bootResult_pending]
  · rw [Hw.bootAddress_mgt, Hw.bootImages_mgt]
    exact congrArg Clock.now (s.bootCounted_clk _)

/-- Records taken late leave what the boot shows. -/
theorem Hw.Booted.of_condKeeps {s t u : Hw} {x : Option Nat × Bool × Nat × Nat} {addr : Nat} (h : s.Booted x addr t) (hkeeps : Hw.CondKeeps t u) :
    s.Booted x addr u where
  count := (hkeeps.flds.get_fld (by decide) (by decide)).trans h.count
  sdgUp := hkeeps.sdgUp.trans h.sdgUp
  state := (hkeeps.flds.get_fld (by decide) (by decide)).trans h.state
  reason := (hkeeps.flds.get_fld (by decide) (by decide)).trans h.reason
  pending := (hkeeps.flds.get_fld (by decide) (by decide)).trans h.pending
  addr := (hkeeps.flds.get_fld (by decide) (by decide)).trans h.addr
  bootAt := hkeeps.bootAt.trans h.bootAt

theorem Hw.bootDone_booted (s : Hw) (x : Option Nat × Bool × Nat × Nat) (addr : Fin 4) : s.Booted x addr.val (s.bootDone x addr.val) := by
  unfold Hw.bootDone
  split
  · exact (s.bootShown_booted x addr).of_condKeeps (Hw.drainBuffers_condKeeps _)
  · exact s.bootShown_booted x addr

/-! ## The boot of the device (R45, R320, R372) -/

theorem Hw.each_set_regs (s : Hw) (f : Fld) (v : Nat) {n : Nat} (xs : List Nat) (hn : n ∈ xs) :
    (s.each xs fun n h => h.set f n v).get f n = v % 2 ^ f.width := by
  have hkept (ys : List Nat) (t : Hw) (ht : t.get f n = v % 2 ^ f.width) : (t.each ys fun n h => h.set f n v).get f n = v % 2 ^ f.width := by
    induction ys generalizing t with
    | nil => exact ht
    | cons y ys ih =>
      refine ih (t.set f y v) ?_
      by_cases hy : n = y
      · rw [hy, Hw.get_set_same]
      · rw [Hw.get_set_ne _ _ (Fld.key_ne_inst hy), ht]
  induction xs generalizing s with
  | nil => exact absurd hn List.not_mem_nil
  | cons x xs ih =>
    rcases List.mem_cons.mp hn with rfl | hmem
    · exact hkept xs _ (Hw.get_set_same _ _ _ _)
    · exact ih _ hmem

/-- What the end of the device boot shows before frame 0 starts: a die image that changed, the versions that run, and the zero-fills. -/
def Hw.imagesChecked (s : Hw) (ok : Bool) : Hw :=
  if s.get R.SEC_BOOT_STATUS_STATE = 0 ∧ !ok then (s.set R.SEC_BOOT_STATUS_STATE 0 1).set R.SEC_BOOT_STATUS_REASON 0 0x04 else s

def Hw.imagesShown (s : Hw) : Hw :=
  let m := fun k => match s.get R.SEC_BOOT_STATUS_STATE, s.bootedBank with
    | 0, some p => fwManifest p k
    | _, _ => []
  ((s.showImage 2 (m 2)).showImage 3 (m 3)).showImage 4 (m 4)

def Hw.phaseRun (s : Hw) : Hw := { s with mgt := { s.mgt with phase := .run } }
def Hw.zeroFilled (s : Hw) : Hw := s.phaseRun.each (List.range 192) fun n h => h.set R.SPD_STATUS_ZEROING n 1

/-- The conditions in force at frame 0. -/
def Hw.conditioned (s : Hw) : Hw :=
  if s.is R.PWR_STATUS_SAG_WARN then (s.setTarget fAssured).limits else if s.mgt.pwr.in52.isNone then s.enterSag 0 else s.clocked

def Hw.deviceBooted (s : Hw) (ok : Bool) : Hw :=
  let h := ((s.imagesChecked ok).imagesShown).zeroFilled
  (h.startFrame 0 h.clk.now).conditioned

theorem exec_deviceBootComplete {s : State} (ok : Bool) (hboot : s.hw.mgt.phase = .boot) (hserved : (s.hw.mgt.sdgUp || s.hw.rom) = true) :
    exec (.deviceBootComplete ok) s = .next { s with hw := s.hw.deviceBooted ok } := by
  change execDeviceBootComplete ok s = _
  exact s.next_hw_congr (if_neg (by simp [hboot, hserved]))

theorem Hw.conditioned_condKeeps (s : Hw) : Hw.CondKeeps s s.conditioned := by
  unfold Hw.conditioned
  split
  · exact ((Hw.CondKeeps.refl s).setTarget _).trans (Hw.limits_condKeeps _)
  · split
    · exact s.enterSag_condKeeps 0
    · exact s.clocked_condKeeps

/-- The fields that the boot writes from the check of the images on, conditions apart. -/
def bootFlds : List Fld :=
  [R.SEC_IMG_VER_VERSION, R.SEC_IMG_SVN_SDG, R.SEC_IMG_SVN_SEQ, R.SEC_IMG_SVN_LNK, R.SEC_IMG_SVN_HUB, R.SPD_STATUS_ZEROING]

theorem Hw.showImage_fieldsBut (s : Hw) {k : Nat} (hk : k < 5) (m : Bytes) : Hw.FieldsBut bootFlds s (s.showImage k m) := by
  unfold Hw.showImage
  refine (s.fieldsBut_set _ (by decide) (by omega)).trans (Hw.fieldsBut_set _ _ ?_ (by decide))
  repeat' split
  all_goals decide

theorem Hw.imagesShown_fieldsBut (s : Hw) : Hw.FieldsBut bootFlds s s.imagesShown := by
  unfold Hw.imagesShown
  exact ((s.showImage_fieldsBut (by decide) _).trans (Hw.showImage_fieldsBut _ (by decide) _)).trans (Hw.showImage_fieldsBut _ (by decide) _)

theorem Hw.imagesShown_clk (s : Hw) : s.imagesShown.clk = s.clk := by
  rw [Hw.imagesShown, Hw.showImage_clk, Hw.showImage_clk, Hw.showImage_clk]

theorem Hw.zeroFilled_fieldsBut (s : Hw) : Hw.FieldsBut bootFlds s s.zeroFilled := by
  have hfill : Hw.FieldsBut bootFlds s.phaseRun s.zeroFilled :=
    Hw.each_rel (P := Hw.FieldsBut bootFlds) (.refl _) (fun _ _ _ => .trans) s.phaseRun fun n hn t =>
      t.fieldsBut_set 1 (by decide) (by have := List.mem_range.mp hn; omega)
  exact hfill

theorem Hw.zeroFilled_zeroing (s : Hw) (n : StallId) : s.zeroFilled.get R.SPD_STATUS_ZEROING n = 1 :=
  Hw.each_set_regs _ _ _ _ (List.mem_range.mpr n.isLt)

theorem Hw.zeroFilled_clk_phase (s : Hw) : s.zeroFilled.clk = s.clk ∧ s.zeroFilled.mgt.phase = .run :=
  Hw.each_rel (P := fun a b => b.clk = a.clk ∧ b.mgt.phase = a.mgt.phase) (fun _ => ⟨rfl, rfl⟩)
    (fun _ _ _ h k => ⟨k.1.trans h.1, k.2.trans h.2⟩) s.phaseRun fun _ _ _ => ⟨rfl, rfl⟩

theorem Hw.imagesChecked_clk (s : Hw) (ok : Bool) : (s.imagesChecked ok).clk = s.clk := by
  unfold Hw.imagesChecked
  split <;> rfl

theorem Hw.traceAdd_regs (s : Hw) (k a b c d e : Nat) : (s.traceAdd k a b c d e).regs = s.regs := by
  unfold Hw.traceAdd
  dsimp only
  split <;> rfl

theorem Hw.traceAdd_clk (s : Hw) (k a b c d e : Nat) : (s.traceAdd k a b c d e).clk = s.clk := by
  unfold Hw.traceAdd
  dsimp only
  split <;> rfl

theorem Hw.traceAdd_phase (s : Hw) (k a b c d e : Nat) : (s.traceAdd k a b c d e).mgt.phase = s.mgt.phase := by
  unfold Hw.traceAdd
  dsimp only
  split <;> rfl

/-- The start of a frame shows it and runs the tick from there. -/
theorem Hw.startFrame_fieldsBut (s : Hw) (f t : Nat) : Hw.FieldsBut [R.FSQ_FRAME_FRAME, R.FSQ_TICK_SUBTICK] s (s.startFrame f t) := by
  have hclk (c : Clock) : Hw.FieldsBut [R.FSQ_FRAME_FRAME, R.FSQ_TICK_SUBTICK] s
      ((({ s with clk := c } : Hw).set R.FSQ_FRAME_FRAME 0 f).set R.FSQ_TICK_SUBTICK 0 0) :=
    (Hw.fieldsBut_set { s with clk := c } f (by decide) (by decide)).trans (Hw.fieldsBut_set _ 0 (by decide) (by decide))
  intro d k hk
  exact (congrArg (Tbl.get d k) (Hw.traceAdd_regs _ _ _ _ _ _ _)).trans (hclk _ d k hk)

theorem Hw.startFrame_clk (s : Hw) (f t : Nat) : (s.startFrame f t).clk.running = true ∧ (s.startFrame f t).clk.frame = f ∧
    (s.startFrame f t).clk.frameStart = t := by
  unfold Hw.startFrame
  rw [Hw.traceAdd_clk]
  exact ⟨rfl, rfl, rfl⟩

theorem Hw.startFrame_phase (s : Hw) (f t : Nat) : (s.startFrame f t).mgt.phase = s.mgt.phase := by
  rw [Hw.startFrame, Hw.traceAdd_phase]
  rfl

/-- Everything after the check of the die images leaves the boot status. -/
theorem Hw.deviceBooted_fieldsBut (s : Hw) (ok : Bool) :
    Hw.FieldsBut (bootFlds ++ [R.FSQ_FRAME_FRAME, R.FSQ_TICK_SUBTICK] ++ condFlds) (s.imagesChecked ok) (s.deviceBooted ok) := by
  have himages := ((s.imagesChecked ok).imagesShown_fieldsBut.trans (Hw.zeroFilled_fieldsBut _)).mono
    (gs := bootFlds ++ [R.FSQ_FRAME_FRAME, R.FSQ_TICK_SUBTICK] ++ condFlds) fun f hf => List.mem_append_left _ (List.mem_append_left _ hf)
  refine (himages.trans ((Hw.startFrame_fieldsBut _ _ _).mono fun f hf => ?_)).trans ((Hw.conditioned_condKeeps _).flds.mono fun f hf => ?_)
  · exact List.mem_append_left _ (List.mem_append_right _ hf)
  · exact List.mem_append_right _ hf

theorem Hw.deviceBooted_phase (s : Hw) (ok : Bool) : (s.deviceBooted ok).mgt.phase = .run := by
  rw [Hw.deviceBooted, (Hw.conditioned_condKeeps _).phase, Hw.startFrame_phase]
  exact (Hw.zeroFilled_clk_phase _).2

theorem Hw.deviceBooted_zeroing (s : Hw) (ok : Bool) (n : StallId) : (s.deviceBooted ok).get R.SPD_STATUS_ZEROING n = 1 := by
  have hn : n.val < 65536 := Nat.lt_trans n.isLt (by decide)
  rw [Hw.deviceBooted, (Hw.conditioned_condKeeps _).flds.get_fld (by decide) hn, (Hw.startFrame_fieldsBut _ _ _).get_fld (by decide) hn,
    Hw.zeroFilled_zeroing]

theorem Hw.deviceBooted_clk (s : Hw) (ok : Bool) : (s.deviceBooted ok).clk.running = true ∧ (s.deviceBooted ok).clk.frame = 0 ∧
    (s.deviceBooted ok).clk.frameStart = s.clk.now := by
  obtain ⟨hrunning, hframe, hstart⟩ := Hw.startFrame_clk ((s.imagesChecked ok).imagesShown).zeroFilled 0
    ((s.imagesChecked ok).imagesShown).zeroFilled.clk.now
  have hnow : ((s.imagesChecked ok).imagesShown).zeroFilled.clk = s.clk := by
    rw [(Hw.zeroFilled_clk_phase _).1, Hw.imagesShown_clk, Hw.imagesChecked_clk]
  rw [Hw.deviceBooted, (Hw.conditioned_condKeeps _).clk]
  exact ⟨hrunning, hframe, hstart.trans (congrArg Clock.now hnow)⟩

/-- A die image that changed gives LIMITED with reason DIGEST. -/
theorem Hw.deviceBooted_digest {s : Hw} (hnormal : s.get R.SEC_BOOT_STATUS_STATE = 0) :
    (s.deviceBooted false).get R.SEC_BOOT_STATUS_STATE = 1 ∧ (s.deviceBooted false).get R.SEC_BOOT_STATUS_REASON = 4 := by
  have hchecked : s.imagesChecked false = (s.set R.SEC_BOOT_STATUS_STATE 0 1).set R.SEC_BOOT_STATUS_REASON 0 0x04 := if_pos ⟨hnormal, rfl⟩
  rw [(s.deviceBooted_fieldsBut false).get_fld (by decide) (by decide), (s.deviceBooted_fieldsBut false).get_fld (by decide) (by decide), hchecked]
  exact ⟨(Hw.get_set_ne _ _ (by decide)).trans (Hw.get_set_same _ _ _ _), Hw.get_set_same _ _ _ _⟩

end Sys2Proof.Machine
end

section
/-! SUPPORT. Power-on, links, the loss of supply, and O43. -/

namespace Sys2Proof.Machine

/-! ## Power-on, links and the loss of supply (R320, R338, R400, R404) -/

theorem exec_supplyOn {s : State} (hdark : s.hw.mgt.phase = .dark) : ∃ m, exec .supplyOn s = .next { s with hw.mgt := m } ∧
    m.phase = .reset ∧ m.pwr.charged = none ∧ m.rst.cause = s.hw.mgt.rst.cause ∧ m.rst.clear = some s.hw.clk.now :=
  ⟨_, s.next_hw_congr (if_pos hdark), rfl, rfl, rfl, rfl⟩

theorem exec_inrushDone {s : State} (hlit : s.hw.lit = true) (hcharging : s.hw.mgt.pwr.charged = none) :
    exec .inrushDone s = .next { s with hw := s.hw.modPwr fun p => { p with charged := some s.hw.clk.now } } :=
  s.next_hw_congr (if_pos ⟨hlit, hcharging⟩)

theorem exec_criticalCooldown {s : State} (hphase : s.hw.mgt.phase = .reset) (hhot : s.hw.mgt.rst.hot = true) :
    exec .criticalCooldown s = .next { s with hw.mgt.rst := { s.hw.mgt.rst with clear := some s.hw.clk.now, hot := false } } :=
  s.next_hw_congr (if_pos ⟨hphase, hhot⟩)

theorem exec_deviceRelease {s : State} {a b c d : Nat} (hphase : s.hw.mgt.phase = .reset) (hcharged : s.hw.mgt.pwr.charged = some a)
    (h48 : s.hw.mgt.pwr.in48 = some b) (h65 : s.hw.mgt.pwr.in65 = some c) (hclear : s.hw.mgt.rst.clear = some d) :
    exec .deviceRelease s =
      .next { s with hw := (s.hw.reach (max (max a b) (max c d) + 1000000)).modMgt fun m => { m with phase := .boot } } := by
  change execDeviceRelease s = _
  refine s.next_hw_congr ?_
  simp only [hphase, hcharged, h48, h65, hclear]
  rfl

/-- The registers of a port that a trained link sets. -/
def Hw.linkTrained (s : Hw) (up width rate : Fld) (lanes r : Nat) : Hw := ((s.set up 0 1).set width 0 lanes).set rate 0 r

theorem Hw.linkTrained_regsBut (s : Hw) (up width rate : Fld) (lanes r : Nat) :
    Hw.RegsBut [up.key 0, width.key 0, rate.key 0] s (s.linkTrained up width rate lanes r) :=
  (((Hw.RegsBut.refl _ s).set 1 (by simp)).set lanes (by simp)).set r (by simp)

/-- The hardware with a port's link trained, and with a port's reset pin released. -/
def Hw.linkShown (s : Hw) (port lanes rate : Nat) : Hw :=
  if port = 0 then s.linkTrained R.HIF_PORT_P0_UP R.HIF_PORT_P0_WIDTH R.HIF_PORT_P0_RATE lanes rate
  else s.linkTrained R.HIF_PORT_P1_UP R.HIF_PORT_P1_WIDTH R.HIF_PORT_P1_RATE lanes rate

def Hw.pinReleased (s : Hw) (port : Nat) (bifur : Bool) : Hw :=
  let h : Hw := { s with dev := { s.dev with ports := port :: s.dev.ports } }
  if port = 0 then h.set R.HIF_PORT_BIFUR 0 (if bifur then 1 else 0) else h

/-- The three fields of a trained port read what was written. -/
theorem Hw.linkTrained_get (s : Hw) {up width rate : Fld} (lanes : Fin 17) (r : Fin 3) (hup : up.width = 1) (hwidth : width.width = 5)
    (hrate : rate.width = 2) (huw : up.key 0 ≠ width.key 0) (hur : up.key 0 ≠ rate.key 0) (hwr : width.key 0 ≠ rate.key 0) :
    (s.linkTrained up width rate lanes.val r.val).get up = 1 ∧ (s.linkTrained up width rate lanes.val r.val).get width = lanes.val ∧
      (s.linkTrained up width rate lanes.val r.val).get rate = r.val := by
  unfold Hw.linkTrained
  refine ⟨?_, ?_, ?_⟩
  · rw [Hw.get_set_ne _ _ hur, Hw.get_set_ne _ _ huw, Hw.get_set_same, hup]
    rfl
  · rw [Hw.get_set_ne _ _ hwr, Hw.get_set_same, hwidth, Nat.mod_eq_of_lt (by have := lanes.isLt; omega)]
  · rw [Hw.get_set_same, hrate, Nat.mod_eq_of_lt (by have := r.isLt; omega)]

theorem exec_cxlLinkTrained {s : State} {port : Fin 2} {lanes : Fin 17} {rate : Fin 3} (hrun : s.hw.mgt.phase = .run)
    (hport : s.hw.dev.ports.contains port.val = true) (htwo : port.val = 1 → s.hw.is R.HIF_PORT_BIFUR = true)
    (hlanes : lanes.val ∈ [2, 4, 8] ∨ (lanes.val = 16 ∧ s.hw.is R.HIF_PORT_BIFUR = false)) (hrate : rate.val ≠ 0) :
    exec (.cxlLinkTrained port lanes rate) s = .next { s with hw := s.hw.linkShown port.val lanes.val rate.val } := by
  have hside : port.val = 0 ∨ s.hw.is R.HIF_PORT_BIFUR = true := by
    rcases Nat.lt_or_ge port.val 1 with h | h
    · exact .inl (by omega)
    · exact .inr (htwo (by have := port.isLt; omega))
  have hfits : lanes.val = 2 ∨ lanes.val = 4 ∨ lanes.val = 8 ∨ (lanes.val = 16 ∧ (!s.hw.is R.HIF_PORT_BIFUR) = true) := by
    simpa [or_assoc] using hlanes
  change execCxlLinkTrained port lanes rate s = _
  exact s.next_hw_congr (if_pos ⟨hrun, hport, hside, hfits, hrate⟩)

theorem exec_perstDeassert {s : State} {port : Fin 2} (bifur : Bool) (hlit : s.hw.lit = true) (hnew : s.hw.dev.ports.contains port.val = false) :
    exec (.perstDeassert port bifur) s = .next { s with hw := s.hw.pinReleased port.val bifur } := by
  change execPerstDeassert port bifur s = _
  exact s.next_hw_congr (if_neg (by rw [hlit, hnew]; decide))

/-- Nothing of the hardware is left but flash and fuses. -/
def Hw.supplyLost (s : Hw) : Hw :=
  let m := s.mgt
  let banks := match m.update with
    | some u => if u.busy then Tbl.erase u.slot m.banks else m.banks
    | none => m.banks
  let s := s.resetFields fun i => flashFlds.any fun f => f.id == i
  { s with latch := [], dev := {}, clk := { now := s.clk.now },
           mgt := { phase := .dark, dumps := m.dumps, shorts := m.shorts, keys := m.keys, banks := banks, passed := m.passed, active := m.active,
                    token := m.token, spoilt := m.spoilt, log := { flash := m.log.flash }, rst := { cause := m.rst.cause } } }

theorem exec_supplyLoss {s : State} (hlit : s.hw.lit = true) :
    exec .supplyLoss s = .next { s with hw := s.hw.supplyLost, mem := s.mem.apply [.zero 0 (2 ^ 48)] } := by
  change execSupplyLoss s = _
  unfold execSupplyLoss State.run
  simp only [hlit, Bool.not_true, Bool.false_eq_true, if_false]
  rfl

/-- A register that flash or fuses hold stays. -/
theorem Hw.supplyLost_get (s : Hw) {f : Fld} (hf : (flashFlds.any fun g => g.id == f.id) = true) : s.supplyLost.get f = s.get f :=
  Tbl.get_filter_of_kept _ (fun _ => by simpa only [f.key_div (by decide : 0 < 65536)] using hf) s.regs

theorem Hw.linkShown_regsBut (s : Hw) (port lanes rate : Nat) :
    Hw.RegsBut (if port = 0 then [R.HIF_PORT_P0_UP.key 0, R.HIF_PORT_P0_WIDTH.key 0, R.HIF_PORT_P0_RATE.key 0]
      else [R.HIF_PORT_P1_UP.key 0, R.HIF_PORT_P1_WIDTH.key 0, R.HIF_PORT_P1_RATE.key 0]) s (s.linkShown port lanes rate) := by
  unfold Hw.linkShown
  split
  · exact Hw.linkTrained_regsBut _ _ _ _ _ _
  · exact Hw.linkTrained_regsBut _ _ _ _ _ _

/-- What the boot of the sheepdog and the boot of the device leave, with the hardware that does so left open. -/
theorem exec_sheepdogBoot_booted {s : State} (ad : Fin 4) (hlit : s.hw.lit = true) (hdown : s.hw.mgt.sdgUp = false) (hrom : s.hw.rom = false) :
    ∃ h : Hw, exec (.sheepdogBoot ad) s = .next { s with hw := h } ∧ s.hw.Booted (s.hw.romBoot s.hw.bootBank) ad.val h :=
  ⟨_, exec_sheepdogBoot ad hlit hdown hrom, s.hw.bootDone_booted _ ad⟩

theorem exec_deviceBootComplete_booted {s : State} (ok : Bool) (hboot : s.hw.mgt.phase = .boot) (hserved : (s.hw.mgt.sdgUp || s.hw.rom) = true) :
    ∃ h : Hw, exec (.deviceBootComplete ok) s = .next { s with hw := h } ∧ h.mgt.phase = .run ∧
      (∀ n : StallId, h.get R.SPD_STATUS_ZEROING n = 1) ∧ (h.clk.running = true ∧ h.clk.frame = 0 ∧ h.clk.frameStart = s.hw.clk.now) ∧
      (s.hw.get R.SEC_BOOT_STATUS_STATE = 0 → ok = false → h.get R.SEC_BOOT_STATUS_STATE = 1 ∧ h.get R.SEC_BOOT_STATUS_REASON = 4) := by
  refine ⟨_, exec_deviceBootComplete ok hboot hserved, s.hw.deviceBooted_phase ok, s.hw.deviceBooted_zeroing ok, s.hw.deviceBooted_clk ok, ?_⟩
  rintro hnormal rfl
  exact Hw.deviceBooted_digest hnormal

/-- Settles O43: each command's hardware is one of the functions above. -/
theorem bootSequence : Obligations.BootSequence := by
  unfold Obligations.BootSequence
  refine ⟨?_, ?_, ?_, ?_, ?_, ?_, ?_, ?_, ?_⟩
  · intro s hdark
    obtain ⟨m, hexec, hphase, hcharged, hcause, hclear⟩ := exec_supplyOn hdark
    exact ⟨_, hexec, hphase, hcharged, hcause, hclear, State.frame_of_regsBut (.refl _ _)⟩
  · intro s hlit hcharging
    exact ⟨_, exec_inrushDone hlit hcharging, rfl, State.frame_of_regsBut (.refl _ _)⟩
  · intro s hphase hhot
    exact ⟨_, exec_criticalCooldown hphase hhot, rfl, rfl, hphase, State.frame_of_regsBut (.refl _ _)⟩
  · intro a b c d s hphase hcharged h48 h65 hclear
    exact ⟨_, exec_deviceRelease hphase hcharged h48 h65 hclear, rfl, rfl, State.frame_of_regsBut (.refl _ _)⟩
  · intro ad s hlit hdown hrom
    obtain ⟨h, hexec, hboot⟩ := exec_sheepdogBoot_booted ad hlit hdown hrom
    exact ⟨_, hexec, hboot.count, hboot.sdgUp, hboot.state, hboot.reason, hboot.pending, hboot.addr, hboot.bootAt, rfl, rfl⟩
  · intro ok s hboot hserved
    obtain ⟨h, hexec, hphase, hzeroing, ⟨hrunning, hframe, hstart⟩, hdigest⟩ := exec_deviceBootComplete_booted ok hboot hserved
    exact ⟨_, hexec, hphase, hzeroing, hrunning, hframe, hstart, hdigest, rfl, rfl⟩
  · intro port lanes rate s hrun hport htwo hlanes hrate
    refine ⟨_, exec_cxlLinkTrained hrun hport htwo hlanes hrate, fun h0 => ?_, fun h1 => ?_,
      State.frame_of_regsBut (s.hw.linkShown_regsBut _ _ _)⟩
    · rw [Hw.linkShown, if_pos h0]
      exact s.hw.linkTrained_get lanes rate rfl rfl rfl (by decide) (by decide) (by decide)
    · rw [Hw.linkShown, if_neg (by omega)]
      exact s.hw.linkTrained_get lanes rate rfl rfl rfl (by decide) (by decide) (by decide)
  · intro port bifur s hlit hnew
    refine ⟨_, exec_perstDeassert bifur hlit hnew, ?_, fun h0 => ?_, State.frame_of_regsBut ?_⟩
    · rw [Hw.pinReleased]
      split <;> rfl
    · rw [Hw.pinReleased, if_pos h0, Hw.is, Hw.get_set_same]
      cases bifur <;> rfl
    · rw [Hw.pinReleased]
      split
      · exact (Hw.RegsBut.of_regs_eq (.refl _ s.hw) rfl).set _ (by decide)
      · exact (Hw.RegsBut.refl _ s.hw).of_regs_eq rfl
  · intro s hlit
    refine ⟨_, exec_supplyLoss hlit, rfl, rfl, rfl, rfl, rfl, rfl, rfl, rfl, s.hw.supplyLost_get (by decide), s.hw.supplyLost_get (by decide),
      fun a ha => ?_, fun a => rfl, fun d k hk => Tbl.get_filter_of_dropped d (fun _ => hk) s.hw.regs, rfl⟩
    have hzero : [Post.zero 0 (2 ^ 48)].findSome? (Post.devByte a) = some 0#8 := by
      rw [List.findSome?_cons, Post.devByte, if_pos ⟨Nat.zero_le a, by omega⟩]
    exact (Mem.get_dev_apply s.mem [Post.zero 0 (2 ^ 48)] a).trans (by rw [hzero, Option.getD_some])

end Sys2Proof.Machine
end

section
/-! SUPPORT. A yoke packet that a state outside the reading of O30 answers otherwise. -/

namespace Sys2Proof.Machine

/-! ## A DIRECT packet for an address above the scratchpads (R302) -/

/-- An address above the scratchpads. The model asks there whether stall `203 * 65536` is being zero-filled, and register keys are 65,536
a field. -/
def directAddr : Nat := spdBase + 203 * 65536 * spdSlot

theorem zeroing_key_directAddr : R.SPD_STATUS_ZEROING.key ((directAddr - spdBase) / spdSlot) = R.YOK_RX_BYTES_BYTES.key 0 := by decide

/-- One byte for pen 0 at `directAddr`, sent by device 7 to device 5 on the yoke. -/
def directPkt : Pkt := { typ := 5, tc := 1, src := 7, dst := 5, addr := directAddr, payload := [1#8] }

/-- A running module, device 5, whose pen 0 is yoked to device 7 over link 0. A loft range of the pen reaches `directAddr`, LOFT_TIB shows
a loft that does too, and no byte of the yoke has been received. -/
def strayDirect : State :=
  { hw := { regs := [(R.LNK_STATUS_STATE.key 0, 2), (R.TRS_DEVICE_DEVICE_ID.key 0, 5), (R.HIF_MODULE_ID_LOFT_TIB.key 0, 1000),
              (R.YOK_RX_BYTES_BYTES.key 0, 0)]
            dev := { truss := some { bareTruss with
              pens := [(0, { barePen with loft := [⟨directAddr / granule - loftBase / granule, 1⟩] })]
              ports := [⟨0, 0, 1⟩]
              yoke := some ⟨7, 0, false, 1, 1, 0, []⟩ } }
            mgt := { phase := .run } } }

theorem directPkt_reads : strayDirect.hw.Reads 0 directPkt.bytes true directPkt := by decide +kernel

/-- The packet's own bytes, counted first, read as a zero-fill of the stall: its byte is held. -/
theorem direct_strayDirect_held {t : State} (h : exec (.direct 0 directPkt.bytes true false) strayDirect = .next t) :
    t.devByte (directPkt.addr + 0) = 0#8 := by
  obtain rfl := Host.Outcome.next.inj h
  decide +kernel

/-- Refutes O30: the address of a DIRECT packet and the pen's ranges are free in the statement. For one above every scratchpad the model
reads, as the zero-fill of its stall, the count of received bytes that the packet has just raised, and holds the byte that the statement
has written. -/
theorem not_yokeData : ¬ Obligations.YokeData := by
  unfold Obligations.YokeData
  rintro ⟨hdirect, -⟩
  obtain ⟨t, ht, hbytes, -⟩ := hdirect 0 directPkt.bytes true false strayDirect directPkt 0 directPkt_reads (by decide) (by decide) (by decide)
    (by decide) (by decide) (by decide) (by decide) (by decide) (by decide) (by decide) (by decide)
  exact absurd ((direct_strayDirect_held ht).symm.trans (hbytes 0 (by decide))) (by decide)

end Sys2Proof.Machine
end

section
/-! SUPPORT. Every command answers; table words; and array commands, a TRIT_COMBINE and a CVD_LOAD that read a scratchpad row which the
model takes for a loft line. -/

namespace Sys2Proof.Machine

/-! ## Every command answers (R111, R343) -/

/-- Settles O3: every command is a run. -/
theorem everyCommandAnswersAndKeepsQueue : Obligations.EveryCommandAnswersAndKeepsQueue := by
  unfold Obligations.EveryCommandAnswersAndKeepsQueue
  intro c s
  obtain ⟨t, _, hexec, hqueue, -⟩ := exec_cases c s
  exact ⟨t, hexec, hqueue⟩

/-! ## Table words and patterns (R102) -/

/-- Bits that lie below bit `n` do not see what stands from there on. -/
theorem bits_mod_two_pow (v : Nat) {lo w n : Nat} (h : lo + w ≤ n) : bits (v % 2 ^ n) lo w = bits v lo w := by
  refine Nat.eq_of_testBit_eq fun i => ?_
  simp only [bits, Nat.testBit_mod_two_pow, Nat.testBit_shiftRight]
  by_cases hi : i < w
  · simp [hi, show lo + i < n by omega]
  · simp [hi]

/-- The two's-complement value of 4 bits. -/
theorem signed_four (v : Nat) : -8 ≤ signed 4 v ∧ signed 4 v < 8 ∧ signed 4 v % 16 = ((v % 16 : Nat) : Int) := by
  unfold signed
  norm_num only
  split <;> omega

/-- Adding up the powers of two that `c` picks gives the number whose bits `c` tells. -/
theorem foldl_add_two_pow (c : Nat → Prop) [DecidablePred c] (n : Nat) :
    (List.range n).foldl (fun m j => if c j then m + 2 ^ j else m) 0 < 2 ^ n ∧
      ∀ j < n, ((List.range n).foldl (fun m j => if c j then m + 2 ^ j else m) 0).testBit j = decide (c j) := by
  induction n with
  | zero => exact ⟨Nat.one_pos, fun j hj => absurd hj (Nat.not_lt_zero j)⟩
  | succ n ih =>
    obtain ⟨hlt, hbits⟩ := ih
    rw [List.range_succ, List.foldl_append, List.foldl_cons, List.foldl_nil]
    generalize (List.range n).foldl (fun m j => if c j then m + 2 ^ j else m) 0 = v at hlt hbits ⊢
    have hpow : 2 ^ (n + 1) = 2 ^ n + 2 ^ n := by omega
    split
    next hc =>
      refine ⟨by omega, fun j hj => ?_⟩
      rw [Nat.add_comm v]
      rcases Nat.lt_succ_iff_lt_or_eq.mp hj with hj | rfl
      · rw [Nat.testBit_two_pow_add_gt hj, hbits j hj]
      · rw [Nat.testBit_two_pow_add_eq, Nat.testBit_lt_two_pow hlt]
        simp [hc]
    next hc =>
      refine ⟨by omega, fun j hj => ?_⟩
      rcases Nat.lt_succ_iff_lt_or_eq.mp hj with hj | rfl
      · exact hbits j hj
      · rw [Nat.testBit_lt_two_pow hlt]
        simp [hc]

/-- Settles O9: an entry is the two's-complement value of its four bits, and a pattern's bits are the plane bits of its inputs. -/
theorem tableWords : Obligations.TableWords := by
  unfold Obligations.TableWords
  refine ⟨fun w i hi => ?_, fun wid p row kMax q j hj hin => ?_⟩
  · obtain ⟨hlow, hhigh, hmod⟩ := signed_four (bits w (4 * i) 4)
    refine ⟨?_, hlow, hhigh, hmod.trans ?_⟩
    · rw [lutEntry, lutEntry, bits_mod_two_pow w (by omega)]
    · exact congrArg Nat.cast (by rw [bits, Nat.shiftRight_eq_div_pow, show 2 ^ 4 = 16 from rfl, Nat.mod_mod])
  · obtain ⟨hlt, hbits⟩ := foldl_add_two_pow (fun j => 4 * q + j < kMax ∧ bit row (wid * (4 * q + j) + p) = true) 4
    refine ⟨hlt, (hbits j hj).trans ?_⟩
    simp [hin, bit]

/-! ## Commands that read a scratchpad row with a bit error -/

/-- LUT_ACC of four 1-bit inputs and one column into bank 4, with 256 columns a pass: table words at offset 0, inputs at offset 128 (Table 4.6). -/
def lutAccFirstRow : Bytes :=
  [0x22#8, 0x10#8, 0#8, 1#8] ++ leBytes 2 4 ++ leBytes 2 1 ++ zeros 4 ++ leBytes 4 0 ++ leBytes 4 128 ++ leBytes 4 64 ++ zeros 8 ++
    leBytes 4 400 ++ leBytes 2 0xFFFF ++ leBytes 2 0xFFFF ++ leBytes 2 0xFFFF ++ zeros 22

theorem lutAcc_loftOverScratchpad_counts {t : State} (h : exec (.lutAcc 0 firstIssue lutAccFirstRow) (loftOverScratchpad 1) = .next t) :
    t.hw.get R.MHB_LOFT_ECC_CE 0 = 1 := by
  obtain rfl := Host.Outcome.next.inj h
  decide +kernel

/-- Refutes O15: with LOFT_TIB free, as in the refutation of O17, the read of the table words advances MHB_LOFT_ECC_CE, which is none of
the registers of the table path. -/
theorem not_arrayCommandFrames : ¬ Obligations.ArrayCommandFrames := by
  unfold Obligations.ArrayCommandFrames
  rintro ⟨-, hlut, -, -⟩
  obtain ⟨t, ht, -, -, -, -, -, -, hregs⟩ := hlut 0 firstIssue lutAccFirstRow (loftOverScratchpad 1) (firstPlace 1)
    (by decide) (by decide) (by decide) (by decide) (by decide)
  have hsame := loftOverScratchpad_regsBut_count hregs (by decide)
  have hcounted := lutAcc_loftOverScratchpad_counts ht
  omega

/-- TRIT_COMBINE of one plane of one column at offset 0 into the word at offset 64. -/
def combineFirstRow : TritCombine :=
  { planes := 1, tM1 := 0, n := 1, inRegion := 0, inOff := 0, planeStride := 0, inStride := 0, oRegion := 0, oOff := 64, oStride := 0,
    outFmt := 0, boundCyc := 400, slotIn := 0xFFFF, slotOut := 0xFFFF }

theorem tritCombine_loftOverScratchpad_counts {t : State} (h : exec (.tritCombine 0 firstIssue combineFirstRow) (loftOverScratchpad 4) = .next t) :
    t.hw.get R.MHB_LOFT_ECC_CE 0 = 1 := by
  obtain rfl := Host.Outcome.next.inj h
  decide +kernel

/-- Refutes O16: with LOFT_TIB free, as in the refutation of O17, the read of the plane advances MHB_LOFT_ECC_CE, so that the command
does not leave every other register alone. -/
theorem not_tritPlaneRecombination : ¬ Obligations.TritPlaneRecombination := by
  unfold Obligations.TritPlaneRecombination
  rintro ⟨-, hframe⟩
  obtain ⟨t, ht, -, -, -, hregs⟩ := hframe 0 firstIssue combineFirstRow (loftOverScratchpad 4) (firstPlace 4)
    (by decide) (by decide) (by decide) (by decide)
  have hsame := loftOverScratchpad_regsBut_count hregs (by decide)
  have hcounted := tritCombine_loftOverScratchpad_counts ht
  omega

/-- CVD_LOAD of descriptor 0 from offset 0. -/
def cvdLoadFirstRow : CvdLoad := { index := 0, region := 0, off := 0 }

theorem cvdLoad_loftOverScratchpad_counts {t : State} (h : exec (.cvdLoad 0 firstIssue cvdLoadFirstRow) (loftOverScratchpad 4) = .next t) :
    t.hw.get R.MHB_LOFT_ECC_CE 0 = 1 := by
  obtain rfl := Host.Outcome.next.inj h
  decide +kernel

/-- Refutes O18: with LOFT_TIB free, as in the refutation of O17, the read of the descriptor advances MHB_LOFT_ECC_CE, which is none of
the registers of the load. -/
theorem not_descriptorLoad : ¬ Obligations.DescriptorLoad := by
  unfold Obligations.DescriptorLoad
  rintro ⟨hload, -⟩
  obtain ⟨t, ht, -, -, -, -, hregs⟩ := hload 0 firstIssue cvdLoadFirstRow (loftOverScratchpad 4) (firstPlace 4)
    (by decide) (by decide) (by decide) (by decide)
  have hsame := loftOverScratchpad_regsBut_count hregs (by decide)
  have hcounted := cvdLoad_loftOverScratchpad_counts ht
  omega

end Sys2Proof.Machine
end

section
/-! SUPPORT. The arithmetic of the dense array: rows of numbers, planes, a lane group over a token, the trits of a
quintet tile and the rows of a bank. -/
namespace Sys2Proof.Machine

/-! ## Rows of numbers -/

/-- The row of the numbers `g 0` to `g (n - 1)`. -/
def vec (n : Nat) (g : Nat → Int) : List Int := (List.range n).map g

@[simp] theorem length_vec (n : Nat) (g : Nat → Int) : (vec n g).length = n := by simp [vec]

theorem vec_congr {n : Nat} {g h : Nat → Int} (heq : ∀ c < n, g c = h c) : vec n g = vec n h :=
  List.map_congr_left fun c hc => heq c (List.mem_range.mp hc)

theorem replicate_eq_vec (n : Nat) (x : Int) : List.replicate n x = vec n fun _ => x := by simp [vec]

theorem map_vec (n : Nat) (g f : Nat → Int) (op : Int → Int) (h : ∀ c, op (g c) = f c) : (vec n g).map op = vec n f := by
  simp [vec, h]

theorem zipWith_vec (n : Nat) (g h : Nat → Int) (op : Int → Int → Int) :
    List.zipWith op (vec n g) (vec n h) = vec n fun c => op (g c) (h c) := by
  simp [vec, List.zipWith_map, List.zipWith_self]

theorem addVec_vec (n : Nat) (g h : Nat → Int) : addVec (vec n g) (vec n h) = vec n fun c => g c + h c := zipWith_vec n g h (· + ·)

theorem satVec_vec (n : Nat) (g h : Nat → Int) : (satVec (vec n g) (vec n h)).1 = vec n fun c => (saturate 32 (g c + h c)).1 := by
  rw [satVec, zipWith_vec]
  simp [vec]

theorem saturate_of_abs_lt {x : Int} (h : |x| < 2 ^ 31) : (saturate 32 x).1 = x := by
  obtain ⟨hlow, hhigh⟩ := abs_lt.mp h
  unfold saturate
  norm_num only
  rw [if_neg (by omega), if_neg (by omega)]

/-! ## Lists over a range -/

theorem zip_range_map {α : Type} (n : Nat) (f : Nat → α) :
    ((List.range n).map f).zip (List.range n) = (List.range n).map fun i => (f i, i) :=
  List.ext_getElem (by simp) fun i hi _ => by simp

theorem drop_map_range {α : Type} (k n : Nat) (f : Nat → α) : ((List.range n).map f).drop k = (List.range (n - k)).map fun i => f (k + i) :=
  List.ext_getElem (by simp) fun i hi _ => by simp

theorem take_map_range {α : Type} (k n : Nat) (f : Nat → α) : ((List.range n).map f).take k = (List.range (min k n)).map f :=
  List.ext_getElem (by simp) fun i hi _ => by simp

/-- A quotient that is rounded up falls by one with each divisor taken off. -/
theorem cdiv_sub {n k fuel : Nat} (hk : 0 < k) (h : cdiv n k = fuel + 1) : 0 < n ∧ cdiv (n - k) k = fuel := by
  have hn : 0 < n := by
    refine Nat.pos_of_ne_zero fun h0 => ?_
    rw [h0, cdiv, Nat.zero_add, Nat.div_eq_of_lt (by omega)] at h
    omega
  refine ⟨hn, ?_⟩
  rcases Nat.lt_or_ge n k with hlt | hge
  · rw [cdiv, show n + k - 1 = n - 1 + k by omega, Nat.add_div_right _ hk, Nat.div_eq_of_lt (by omega)] at h
    rw [cdiv, Nat.div_eq_of_lt (by omega)]
    omega
  · rw [cdiv, show n + k - 1 = n - k + k - 1 + k by omega, Nat.add_div_right _ hk] at h
    exact Nat.succ.inj h

theorem chunks_succ {α : Type} (k fuel : Nat) {xs : List α} (h : xs ≠ []) : chunks k (fuel + 1) xs = xs.take k :: chunks k fuel (xs.drop k) := by
  cases xs with
  | nil => exact absurd rfl h
  | cons x xs => rfl

/-- A list over a range cut into pieces of `k`. -/
theorem chunks_range {α : Type} {k : Nat} (hk : 0 < k) (fuel n : Nat) (f : Nat → α) (hfuel : cdiv n k = fuel) :
    chunks k fuel ((List.range n).map f) = (List.range fuel).map fun l => (List.range (min k (n - k * l))).map fun i => f (k * l + i) := by
  induction fuel generalizing n f with
  | zero => rfl
  | succ fuel ih =>
    obtain ⟨hn, hrest⟩ := cdiv_sub hk hfuel
    rw [chunks_succ k fuel (by simp; omega), drop_map_range, take_map_range, ih _ _ hrest, List.range_succ_eq_map, List.map_cons, List.map_map]
    refine congrArg₂ List.cons (by simp) (List.map_congr_left fun l _ => ?_)
    rw [Function.comp_apply, Nat.mul_succ, Nat.sub_sub, Nat.add_comm k]
    exact List.map_congr_left fun i _ => by rw [← Nat.add_assoc, Nat.add_comm k]

theorem sum_range_take_drop (k n : Nat) (F : Nat → Int) :
    ∑ i ∈ Finset.range (min k n), F i + ∑ i ∈ Finset.range (n - k), F (k + i) = ∑ i ∈ Finset.range n, F i := by
  rcases Nat.le_total n k with h | h
  · rw [Nat.min_eq_right h, Nat.sub_eq_zero_of_le h, Finset.sum_range_zero, Int.add_zero]
  · rw [Nat.min_eq_left h, ← Finset.sum_range_add, Nat.add_sub_cancel' h]

/-- The pieces' sums make up the whole sum. -/
theorem sum_chunks {k : Nat} (hk : 0 < k) (fuel n : Nat) (F : Nat → Int) (hfuel : cdiv n k = fuel) :
    ∑ l ∈ Finset.range fuel, ∑ i ∈ Finset.range (min k (n - k * l)), F (k * l + i) = ∑ i ∈ Finset.range n, F i := by
  induction fuel generalizing n F with
  | zero =>
    have hn : n = 0 := by
      refine Nat.eq_zero_of_not_pos fun hn => ?_
      have := Nat.div_pos (a := n + k - 1) (b := k) (by omega) hk
      rw [cdiv] at hfuel
      omega
    rw [hn]
    rfl
  | succ fuel ih =>
    obtain ⟨-, hrest⟩ := cdiv_sub hk hfuel
    rw [Finset.sum_range_succ', Int.add_comm, ← sum_range_take_drop k n F, ← ih _ (fun i => F (k + i)) hrest]
    refine congrArg₂ (· + ·) (by simp) (Finset.sum_congr rfl fun l _ => ?_)
    rw [Nat.mul_succ, Nat.sub_sub, Nat.add_comm k]
    exact Finset.sum_congr rfl fun i _ => by rw [← Nat.add_assoc, Nat.add_comm k]

/-! ## Planes (R85, R86, R89, R97) -/

/-- Bit `j` of `a` as a number, and the weight of plane `p` of values of `wid` bits. -/
def bitVal (a j : Nat) : Int := if bit a j then 1 else 0
def planeWeight (sgn : Bool) (wid p : Nat) : Int := if sgn && p + 1 == wid then -2 ^ p else 2 ^ p

/-- What the planes `ps` give of value `j` of an activation row. -/
def planesVal (sgn : Bool) (wid a j : Nat) (ps : List Nat) : Int := (ps.map fun p => planeWeight sgn wid p * bitVal a (wid * j + p)).sum

theorem abs_planeWeight (sgn : Bool) (wid p : Nat) : |planeWeight sgn wid p| = 2 ^ p := by
  unfold planeWeight
  split <;> simp

theorem abs_bitVal_le (a j : Nat) : |bitVal a j| ≤ 1 := by
  unfold bitVal
  split <;> simp

theorem planesVal_concat (sgn : Bool) (wid a j : Nat) (ps : List Nat) (p : Nat) :
    planesVal sgn wid a j (ps ++ [p]) = planesVal sgn wid a j ps + planeWeight sgn wid p * bitVal a (wid * j + p) := by
  simp [planesVal]

theorem abs_planesVal_le (sgn : Bool) (wid a j : Nat) (ps : List Nat) : |planesVal sgn wid a j ps| ≤ (ps.map fun p => (2 : Int) ^ p).sum := by
  induction ps using List.reverseRecOn with
  | nil => simp [planesVal]
  | append_singleton ps p ih =>
    have hp : |planeWeight sgn wid p * bitVal a (wid * j + p)| ≤ 2 ^ p := by
      rw [abs_mul, abs_planeWeight]
      exact mul_le_of_le_one_right (by positivity) (abs_bitVal_le _ _)
    rw [planesVal_concat, List.map_append, List.sum_append, List.map_singleton, List.sum_singleton]
    exact (abs_add_le _ _).trans (add_le_add ih hp)

theorem bitVal_eq_div_mod (a j : Nat) : bitVal a j = ((a / 2 ^ j % 2 : Nat) : Int) := by
  rw [← Nat.toNat_testBit, bitVal, bit]
  cases a.testBit j <;> rfl

/-- The bits from `o` on, as a number. -/
theorem sum_bits (a o k : Nat) : ∑ p ∈ Finset.range k, 2 ^ p * bitVal a (o + p) = ((a / 2 ^ o % 2 ^ k : Nat) : Int) := by
  induction k with
  | zero => simp [Nat.mod_one]
  | succ k ih =>
    rw [Finset.sum_range_succ, ih, Nat.mod_pow_succ, bitVal_eq_div_mod, Nat.div_div_eq_div_mul, ← Nat.pow_add]
    push_cast
    rfl

theorem sum_planesDown (wid : Nat) (F : Nat → Int) : ((planesDown wid wid).map F).sum = ∑ p ∈ Finset.range wid, F p := by
  rw [← Finset.sum_range_reflect, planesDown, List.map_map]
  rfl

/-- Value `j` of activation row `a`: `wid` bits, in two's complement where `sgn` says so. -/
def actOf (sgn : Bool) (wid a j : Nat) : Int :=
  let v := a / 2 ^ (wid * j) % 2 ^ wid
  if sgn && decide (2 ^ (wid - 1) ≤ v) then (v : Int) - (2 : Int) ^ wid else v

/-- All planes together give the value. -/
theorem planesVal_planesDown (sgn : Bool) {wid : Nat} (hwid : wid ≠ 0) (a j : Nat) :
    planesVal sgn wid a j (planesDown wid wid) = actOf sgn wid a j := by
  obtain ⟨k, rfl⟩ := Nat.exists_eq_succ_of_ne_zero hwid
  have hlow : ∑ p ∈ Finset.range k, planeWeight sgn (k + 1) p * bitVal a ((k + 1) * j + p) =
      ((a / 2 ^ ((k + 1) * j) % 2 ^ k : Nat) : Int) := by
    rw [← sum_bits]
    refine Finset.sum_congr rfl fun p hp => ?_
    have hp := Finset.mem_range.mp hp
    rw [planeWeight, if_neg (by simp; omega)]
  rw [planesVal, sum_planesDown, Finset.sum_range_succ, hlow, bitVal_eq_div_mod, Nat.pow_add, ← Nat.div_div_eq_div_mul]
  unfold actOf planeWeight
  simp only [Nat.mod_pow_succ, Nat.succ_eq_add_one, Nat.add_sub_cancel, beq_self_eq_true, Bool.and_true]
  generalize a / 2 ^ ((k + 1) * j) = v
  have hmod := Nat.mod_lt v (Nat.two_pow_pos k)
  rcases Nat.mod_two_eq_zero_or_one (v / 2 ^ k) with h | h <;> cases sgn <;> simp [h, pow_succ]
  · omega
  · omega

/-! ## A lane group over a token (R89) -/

/-- The sum of the rows from value `k` on that plane `p` picks. -/
theorem planeSum_vec (cols wid p a k n : Nat) (w : Nat → Nat → Int) :
    planeSum cols wid p a k ((List.range n).map fun i => vec cols (w (k + i))) =
      vec cols fun c => ∑ i ∈ Finset.range n, bitVal a (wid * (k + i) + p) * w (k + i) c := by
  induction n generalizing k with
  | zero => exact replicate_eq_vec cols 0
  | succ n ih =>
    have hrest := ih (k + 1)
    simp only [Nat.add_right_comm k 1, Nat.add_assoc k _ 1] at hrest
    rw [List.range_succ_eq_map, List.map_cons, List.map_map, planeSum]
    simp only [Function.comp_def, Nat.succ_eq_add_one, hrest, Nat.add_zero]
    split
    next hbit =>
      rw [addVec_vec]
      refine vec_congr fun c _ => ?_
      rw [Finset.sum_range_succ', Int.add_comm]
      simp [bitVal, hbit]
    next hbit =>
      refine vec_congr fun c _ => ?_
      rw [Finset.sum_range_succ']
      simp [bitVal, hbit]

/-- What plane `p` adds to a lane group's partial where no block is shifted. -/
def planeDelta (cols wid : Nat) (sgn : Bool) (a k : Nat) (ws : List (List Int)) (p : Nat) : List Int :=
  let lo := (planeSum cols wid p a k (ws.take 32)).map (· * (2 : Int) ^ (p + 0))
  let hi := (planeSum cols wid p a (k + 32) (ws.drop 32)).map (· * (2 : Int) ^ (p + 0))
  let d := addVec lo hi
  if sgn && p + 1 == wid then d.map (- ·) else d

/-- The planes in order, the last one last. -/
theorem laneToken_concat (cols wid : Nat) (sgn skip : Bool) (a k : Nat) (ws : List (List Int)) (ps : List Nat) (p : Nat) :
    (laneToken cols wid sgn skip a k ws 0 0 (ps ++ [p])).1 =
      if skip && planeZero wid p a k ws.length then (laneToken cols wid sgn skip a k ws 0 0 ps).1
      else (satVec (laneToken cols wid sgn skip a k ws 0 0 ps).1 (planeDelta cols wid sgn a k ws p)).1 := by
  rw [laneToken, List.foldl_append, List.foldl_cons, List.foldl_nil]
  split <;> rfl

section
variable (cols wid : Nat) (sgn skip : Bool) (a k n : Nat) (w : Nat → Nat → Int)

/-- The `n` weight rows of a lane group that starts at value `k`. -/
def laneRows : List (List Int) := (List.range n).map fun i => vec cols (w (k + i))

theorem planeDelta_laneRows (p : Nat) : planeDelta cols wid sgn a k (laneRows cols k n w) p =
    vec cols fun c => planeWeight sgn wid p * ∑ i ∈ Finset.range n, bitVal a (wid * (k + i) + p) * w (k + i) c := by
  have hlo := planeSum_vec cols wid p a k (min 32 n) w
  have hhi := planeSum_vec cols wid p a (k + 32) (n - 32) w
  simp only [Nat.add_assoc k 32] at hhi
  have hsum : ∀ c, _ := fun c => sum_range_take_drop 32 n fun i => bitVal a (wid * (k + i) + p) * w (k + i) c
  unfold planeDelta laneRows planeWeight
  rw [take_map_range, drop_map_range, hlo, hhi, map_vec cols _ _ _ fun _ => rfl, map_vec cols _ _ _ fun _ => rfl]
  dsimp only
  rw [addVec_vec]
  split
  · rw [map_vec cols _ _ _ fun _ => rfl]
    exact vec_congr fun c _ => by rw [← hsum c]; ring
  · exact vec_congr fun c _ => by rw [← hsum c]; ring

/-- Zero planes skipped or not, the planes `ps` add what they give of each value times its weight. -/
theorem laneToken_laneRows {ps : List Nat} (hn : n ≤ 64) (hw : ∀ j c, |w j c| ≤ 1) (hps : (ps.map fun p => (2 : Int) ^ p).sum < 2 ^ 25) :
    (laneToken cols wid sgn skip a k (laneRows cols k n w) 0 0 ps).1 =
      vec cols fun c => ∑ i ∈ Finset.range n, w (k + i) c * planesVal sgn wid a (k + i) ps := by
  induction ps using List.reverseRecOn with
  | nil => simp [laneToken, planesVal, replicate_eq_vec]
  | append_singleton ps p ih =>
    have hsplit : ∀ c, ∑ i ∈ Finset.range n, w (k + i) c * planesVal sgn wid a (k + i) (ps ++ [p]) =
        ∑ i ∈ Finset.range n, w (k + i) c * planesVal sgn wid a (k + i) ps +
          planeWeight sgn wid p * ∑ i ∈ Finset.range n, bitVal a (wid * (k + i) + p) * w (k + i) c := fun c => by
      rw [Finset.mul_sum, ← Finset.sum_add_distrib]
      exact Finset.sum_congr rfl fun i _ => by rw [planesVal_concat]; ring
    have hbound : ∀ c, |∑ i ∈ Finset.range n, w (k + i) c * planesVal sgn wid a (k + i) (ps ++ [p])| < 2 ^ 31 := fun c => by
      rw [List.map_append, List.sum_append, List.map_singleton, List.sum_singleton] at hps
      have hterm : ∀ i ∈ Finset.range n, |w (k + i) c * planesVal sgn wid a (k + i) (ps ++ [p])| ≤ 2 ^ 25 - 1 := fun i _ => by
        have hval := abs_planesVal_le sgn wid a (k + i) (ps ++ [p])
        rw [List.map_append, List.sum_append, List.map_singleton, List.sum_singleton] at hval
        rw [abs_mul]
        exact (mul_le_of_le_one_left (abs_nonneg _) (hw _ _)).trans (by omega)
      have hsum := (Finset.abs_sum_le_sum_abs _ _).trans (Finset.sum_le_card_nsmul _ _ _ hterm)
      rw [Finset.card_range, nsmul_eq_mul] at hsum
      omega
    have hpow : (0 : Int) < 2 ^ p := by positivity
    rw [List.map_append, List.sum_append, List.map_singleton, List.sum_singleton] at hps
    rw [laneToken_concat, ih (by omega), planeDelta_laneRows, satVec_vec]
    split
    next hskip =>
      obtain ⟨-, hzero⟩ := (Bool.and_eq_true _ _).mp hskip
      have hbits : ∀ i ∈ Finset.range n, bitVal a (wid * (k + i) + p) = 0 := fun i hi => by
        have hlen : (laneRows cols k n w).length = n := by simp [laneRows]
        rw [hlen, planeZero, List.all_eq_true] at hzero
        have hbit := hzero i (List.mem_range.mpr (Finset.mem_range.mp hi))
        rw [Bool.not_eq_true'] at hbit
        rw [bitVal, hbit]
        rfl
      refine vec_congr fun c _ => ?_
      have hnone : ∑ i ∈ Finset.range n, bitVal a (wid * (k + i) + p) * w (k + i) c = 0 :=
        Finset.sum_eq_zero fun i hi => by rw [hbits i hi, Int.zero_mul]
      rw [hsplit c, hnone, Int.mul_zero, Int.add_zero]
    next => exact vec_congr fun c _ => by rw [← hsplit c, saturate_of_abs_lt (hbound c)]

/-- All the planes of values of `wid` bits weigh less than 2^16. -/
theorem sum_two_pow_planesDown (hwid : wid ≤ 16) : ((planesDown wid wid).map fun p => (2 : Int) ^ p).sum < 2 ^ 25 := by
  rw [sum_planesDown]
  have hsum : ∑ p ∈ Finset.range wid, (2 : Int) ^ p = 2 ^ wid - 1 := by
    simpa using geom_sum_mul (2 : Int) wid
  have hpow : (2 : Int) ^ wid ≤ 2 ^ 16 := pow_le_pow_right₀ (by decide) hwid
  omega

/-- A lane group's partial is the exact dot product of its values and weights. -/
theorem laneToken_exact (h0 : wid ≠ 0) (h16 : wid ≤ 16) (hn : n ≤ 64) (hw : ∀ j c, |w j c| ≤ 1) :
    (laneToken cols wid sgn skip a k (laneRows cols k n w) 0 0 (planesDown wid wid)).1 =
      vec cols fun c => ∑ i ∈ Finset.range n, w (k + i) c * actOf sgn wid a (k + i) := by
  rw [laneToken_laneRows cols wid sgn skip a k n w hn hw (sum_two_pow_planesDown wid h16)]
  simp only [planesVal_planesDown sgn h0]

end

theorem foldl_addVec (cols L : Nat) (G : Nat → Nat → Int) :
    (List.range L).foldl (fun v l => addVec v (vec cols (G l))) (List.replicate cols 0) = vec cols fun c => ∑ l ∈ Finset.range L, G l c := by
  induction L with
  | zero => exact replicate_eq_vec cols 0
  | succ L ih =>
    rw [List.range_succ, List.foldl_append, ih, List.foldl_cons, List.foldl_nil, addVec_vec]
    exact vec_congr fun c _ => (Finset.sum_range_succ _ _).symm

/-- A pass without block shifts gives each token the exact dot products of its values and the columns' weights. -/
theorem macPass_sums {cols wid t n : Nat} (sgn skip : Bool) (act : Nat → Nat) (w : Nat → Nat → Int) {shift : Nat → Nat → Nat}
    (hshift : ∀ u j, shift u j = 0) (h0 : wid ≠ 0) (h16 : wid ≤ 16) (hw : ∀ j c, |w j c| ≤ 1) :
    (macPass cols wid sgn skip ((List.range t).map act) ((List.range n).map fun k => vec cols (w k)) shift (planesDown wid wid)).sums =
      (List.range t).map fun u => vec cols fun c => ∑ k ∈ Finset.range n, w k c * actOf sgn wid (act u) k := by
  have hlane : ∀ u l, (laneToken cols wid sgn skip (act u) (64 * l) (laneRows cols (64 * l) (min 64 (n - 64 * l)) w) 0 0 (planesDown wid wid)).1 =
      vec cols fun c => ∑ i ∈ Finset.range (min 64 (n - 64 * l)), w (64 * l + i) c * actOf sgn wid (act u) (64 * l + i) := fun u l =>
    laneToken_exact cols wid sgn skip (act u) (64 * l) _ w h0 h16 (Nat.min_le_left _ _) hw
  have hchunks : chunks 64 (cdiv n 64) ((List.range n).map fun k => vec cols (w k)) =
      (List.range (cdiv n 64)).map fun l => laneRows cols (64 * l) (min 64 (n - 64 * l)) w := chunks_range (by decide) _ n _ rfl
  unfold macPass
  simp only [List.length_map, List.length_range, hchunks, zip_range_map, List.map_map, hshift]
  refine List.map_congr_left fun u _ => ?_
  simp only [Function.comp_def, List.foldl_map, hlane, foldl_addVec]
  exact vec_congr fun c _ => sum_chunks (by decide) _ n (fun k => w k c * actOf sgn wid (act u) k) rfl

/-! ## Quintet tiles (R81 to R83) -/

/-- Trit `i` of a quintet byte, 0 in a corrupt one. -/
def tritOf (b i : Nat) : Int := if 242 < b then 0 else ((b / 3 ^ i % 3 : Nat) : Int) - 1

theorem abs_tritOf_le (b i : Nat) : |tritOf b i| ≤ 1 := by
  unfold tritOf
  split
  · simp
  · rw [abs_le]
    omega

theorem getD_quintet (b : Nat) {i : Nat} (hi : i < 5) : (((quintet b).getD [0, 0, 0, 0, 0])[i]?).getD 0 = tritOf b i := by
  unfold quintet tritOf
  split
  · interval_cases i <;> rfl
  · simp [hi]

/-- The five rows of a group of 256 quintet bytes. -/
theorem groupRows_fst (b : Nat → Byte) :
    (groupRows ((List.range 256).map b)).1 = (List.range 5).map fun i => vec 256 fun c => tritOf (b c).toNat i := by
  unfold groupRows vec
  simp only [List.map_map]
  refine List.map_congr_left fun i hi => List.map_congr_left fun c _ => ?_
  exact getD_quintet _ (List.mem_range.mp hi)

theorem flatMap_range_five {α : Type} (F : Nat → Nat → α) (g : Nat) :
    (List.range g).flatMap (fun q => (List.range 5).map (F q)) = (List.range (5 * g)).map fun k => F (k / 5) (k % 5) := by
  induction g with
  | zero => rfl
  | succ g ih =>
    rw [List.range_succ (n := g), List.flatMap_append, ih, Nat.mul_succ, List.range_add, List.map_append, List.map_map]
    refine congrArg _ ?_
    rw [List.flatMap_cons, List.flatMap_nil, List.append_nil]
    refine List.map_congr_left fun i hi => ?_
    have hi := List.mem_range.mp hi
    rw [Function.comp_apply, Nat.mul_add_div (by decide), Nat.mul_add_mod, Nat.div_eq_of_lt hi, Nat.mod_eq_of_lt hi, Nat.add_zero]

/-- Row `k` of a tile holds digit `k mod 5` of the bytes of group `k / 5`. -/
theorem tileRows_fst (b : Nat → Byte) (rows : Nat) :
    (tileRows ((List.range (256 * cdiv rows 5)).map b) rows).1 =
      (List.range rows).map fun k => vec 256 fun c => tritOf (b (256 * (k / 5) + c)).toNat (k % 5) := by
  have hgroups : cdiv (256 * cdiv rows 5) 256 = cdiv rows 5 := by
    rw [cdiv, Nat.add_sub_assoc (by decide), Nat.mul_add_div (by decide), Nat.add_zero]
  have hgs : (chunks 256 (cdiv rows 5) ((List.range (256 * cdiv rows 5)).map b)).map groupRows =
      (List.range (cdiv rows 5)).map fun q => groupRows ((List.range 256).map fun c => b (256 * q + c)) := by
    rw [chunks_range (by decide) _ _ _ hgroups, List.map_map]
    refine List.map_congr_left fun q hq => ?_
    have hq := List.mem_range.mp hq
    rw [Function.comp_apply, show min 256 (256 * cdiv rows 5 - 256 * q) = 256 by omega]
  have hrows : min rows (5 * cdiv rows 5) = rows := Nat.min_eq_left (by unfold cdiv; omega)
  unfold tileRows
  simp only [hgs, List.flatMap_map, groupRows_fst, flatMap_range_five fun q i => vec 256 fun c => tritOf (b (256 * q + c)).toNat i]
  rw [take_map_range, hrows]

/-! ## The rows of a bank (R90, R93) -/

/-- A key that is listed with one value only reads that value. -/
theorem Tbl.get_of_mem_unique {α : Type} {d v : α} {k : Nat} {t : Tbl α} (huniq : ∀ y, (k, y) ∈ t → y = v)
    (hlisted : v = d ∨ (k, v) ∈ t) : Tbl.get d k t = v := by
  induction t with
  | nil =>
    rcases hlisted with rfl | h
    · rfl
    · cases h
  | cons x t ih =>
    obtain ⟨a, y⟩ := x
    rw [Tbl.get]
    split
    next ha =>
      subst ha
      exact huniq y List.mem_cons_self
    next ha =>
      refine ih (fun z hz => huniq z (List.mem_cons_of_mem _ hz)) (hlisted.imp_right fun h => ?_)
      rcases List.mem_cons.mp h with h | h
      · exact absurd (congrArg Prod.fst h).symm ha
      · exact h

theorem Bank.row_eq_vec (b : Bank) (u : Nat) : b.row u = vec 256 fun c => Tbl.get 0 (256 * u + c) b.acc := by
  unfold Bank.row
  refine vec_congr fun c hc => Tbl.get_filter_of_kept 0 (fun v => ?_) b.acc
  rw [beq_iff_eq, Nat.mul_add_div (by decide), Nat.div_eq_of_lt hc, Nat.add_zero]

/-- Rows of 256 numbers added to a bank's rows, each sum saturated to 32 bits once. -/
theorem Bank.addRows_fst (b : Bank) (t : Nat) (g : Nat → Nat → Int) : (b.addRows ((List.range t).map fun u => vec 256 (g u))).1 =
    (List.range t).map fun u => vec 256 fun c => (saturate 32 (Tbl.get 0 (256 * u + c) b.acc + g u c)).1 := by
  have htake : ∀ h, (vec 256 h).take 256 = vec 256 h := fun h => List.take_of_length_le (by simp)
  have hdrop : ∀ h, (vec 256 h).drop 256 = [] := fun h => List.drop_of_length_le (by simp)
  unfold Bank.addRows
  simp only [List.length_map, List.length_range, zip_range_map, List.map_map]
  refine List.map_congr_left fun u _ => ?_
  simp only [Function.comp_apply, length_vec, Bank.row_eq_vec, htake, hdrop, List.append_nil, satVec_vec]

theorem zip_range_vec (n : Nat) (g : Nat → Int) : (vec n g).zip (List.range n) = (List.range n).map fun c => (g c, c) := zip_range_map n g

/-- A row set reads as it was set. -/
theorem Bank.get_setRows (b : Bank) {t u c : Nat} (g : Nat → Nat → Int) (hu : u < t) (hc : c < 256) :
    Tbl.get 0 (256 * u + c) (b.setRows ((List.range t).map fun u => vec 256 (g u))) = g u c := by
  have hkey : ∀ y, (256 * u + c, y) ∈ b.setRows ((List.range t).map fun u => vec 256 (g u)) ↔ g u c ≠ 0 ∧ y = g u c := fun y => by
    unfold Bank.setRows
    simp only [List.length_map, List.length_range, zip_range_map, List.mem_append, List.flatMap_map, length_vec, zip_range_vec, List.mem_flatMap,
      List.mem_map, List.mem_filter, List.mem_range, decide_eq_true_eq]
    constructor
    · rintro (⟨v, -, -, ⟨⟨d, hd, rfl⟩, hne⟩, hpair⟩ | ⟨-, hold⟩)
      · obtain ⟨hplace, rfl⟩ := Prod.mk.inj hpair
        obtain ⟨rfl, rfl⟩ : v = u ∧ d = c := by dsimp only at hplace; omega
        exact ⟨by simpa using hne, rfl⟩
      · omega
    · rintro ⟨hne, rfl⟩
      exact .inl ⟨u, hu, (g u c, c), ⟨⟨c, hc, rfl⟩, by simpa using hne⟩, rfl⟩
  refine Tbl.get_of_mem_unique (fun y hy => ((hkey y).mp hy).2) ?_
  by_cases h0 : g u c = 0
  · exact .inl h0
  · exact .inr ((hkey _).mpr ⟨h0, rfl⟩)

end Sys2Proof.Machine
end

section
/-! SUPPORT. What a run keeps of the stalls while it counts, senses, puts bytes and closes a bank; the frame of a
command that runs; raw output rows. -/
namespace Sys2Proof.Machine

/-! ## What leaves every stall as it was -/

theorem Hw.each_stls {α : Type} (s : Hw) {xs : List α} {f : α → Hw → Hw} (h : ∀ x t, (f x t).dev.stls = t.dev.stls) :
    (s.each xs f).dev.stls = s.dev.stls :=
  Hw.each_rel (P := fun a b => b.dev.stls = a.dev.stls) (fun _ => rfl) (fun _ _ _ hst htu => htu.trans hst) s fun x _ t => h x t

@[simp] theorem Hw.incStl_stls (s : Hw) (f : Fld) (n k : Nat) : (s.incStl f n k).dev.stls = s.dev.stls := by
  unfold Hw.incStl
  split <;> rfl

@[simp] theorem Hw.lastErr_stls (s : Hw) (c : Cx) (code : Nat) : (s.lastErr c code).dev.stls = s.dev.stls := by
  unfold Hw.lastErr
  split <;> rfl

@[simp] theorem Hw.logCx_stls (s : Hw) (c : Cx) (e : Err) (addr slot detail : Nat) : (s.logCx c e addr slot detail).dev.stls = s.dev.stls :=
  Hw.log_dev_stls s e _

@[simp] theorem Hw.corrected_stls (s : Hw) (kind unit n : Nat) : (s.corrected kind unit n).dev.stls = s.dev.stls := by
  unfold Hw.corrected
  dsimp only
  split <;> rfl

@[simp] theorem Hw.alarm_stls (s : Hw) (n t : Nat) : (s.alarm n t).dev.stls = s.dev.stls := by
  unfold Hw.alarm
  split <;> rfl

@[simp] theorem Hw.lnsEvents_stls (s : Hw) (n t : Nat) (e : LnsEv) : (s.lnsEvents n t e).dev.stls = s.dev.stls := by
  unfold Hw.lnsEvents
  split <;> simp

@[simp] theorem Hw.passEvents_stls (s : Hw) (c : Cx) (tensor sat clamps ospBad ospSat : Nat) :
    (s.passEvents c tensor sat clamps ospBad ospSat).dev.stls = s.dev.stls := by
  unfold Hw.passEvents
  split <;> simp

@[simp] theorem Hw.quintetBad_stls (s : Hw) (c : Cx) (base : Nat) (offs : List Nat) : (s.quintetBad c base offs).dev.stls = s.dev.stls :=
  Hw.each_stls s fun o t => by simp

@[simp] theorem Hw.blamePoison_stls (s : Hw) (c : Cx) (m : Nat) : (s.blamePoison c m).dev.stls = s.dev.stls := by
  unfold Hw.blamePoison
  split
  · rfl
  · split <;> rfl

@[simp] theorem Hw.upset_stls (s : Hw) (us : List Upset) : (s.upset us).dev.stls = s.dev.stls :=
  Hw.each_stls s fun u t => by
    cases u.kind with
    | single => dsimp only; split <;> rfl
    | double => dsimp only; split <;> rfl
    | cached => rfl

@[simp] theorem Hw.metPorts_stls (s : Hw) (n eng : Nat) (i : Issue) : (s.metPorts n eng i).dev.stls = s.dev.stls := by
  unfold Hw.metPorts Hw.metBanks
  dsimp only
  split <;> simp

/-! ## What a chain's command reads of the stalls -/

/-- Regions, conversion descriptors, generators and accumulator banks of every stall are the same. -/
structure Hw.StallsKept (s t : Hw) : Prop where
  regions : ∀ m, (t.stl m).regions = (s.stl m).regions
  cvd : ∀ m, (t.stl m).cvd = (s.stl m).cvd
  gens : ∀ m, (t.stl m).gens = (s.stl m).gens
  banks : ∀ m, (t.stl m).banks = (s.stl m).banks

theorem Hw.StallsKept.refl (s : Hw) : Hw.StallsKept s s := ⟨fun _ => rfl, fun _ => rfl, fun _ => rfl, fun _ => rfl⟩

theorem Hw.StallsKept.trans {s t u : Hw} (h : Hw.StallsKept s t) (k : Hw.StallsKept t u) : Hw.StallsKept s u :=
  ⟨fun m => (k.regions m).trans (h.regions m), fun m => (k.cvd m).trans (h.cvd m), fun m => (k.gens m).trans (h.gens m),
    fun m => (k.banks m).trans (h.banks m)⟩

theorem Hw.stallsKept_of_stls {s t : Hw} (h : t.dev.stls = s.dev.stls) : Hw.StallsKept s t := by
  constructor <;> intro m <;> rw [Hw.stl, Hw.stl, h]

theorem Hw.stallsKept_each {α : Type} (s : Hw) {xs : List α} {f : α → Hw → Hw} (h : ∀ x t, Hw.StallsKept t (f x t)) :
    Hw.StallsKept s (s.each xs f) := Hw.each_rel .refl (fun _ _ _ => .trans) s fun x _ t => h x t

theorem Hw.stallsKept_modStl (s : Hw) (n : Nat) {f : Stl → Stl} (hregions : ∀ x, (f x).regions = x.regions) (hcvd : ∀ x, (f x).cvd = x.cvd)
    (hgens : ∀ x, (f x).gens = x.gens) (hbanks : ∀ x, (f x).banks = x.banks) : Hw.StallsKept s (s.modStl n f) := by
  have hstl : ∀ m, (s.modStl n f).stl m = s.stl m ∨ (s.modStl n f).stl m = f (s.stl m) := fun m => by
    by_cases hm : m = n
    · exact .inr (by rw [hm, Hw.stl_modStl])
    · exact .inl (Hw.stl_modStl_ne s f hm)
  constructor <;> intro m <;> rcases hstl m with h | h <;> simp only [h, hregions, hcvd, hgens, hbanks]

theorem Hw.stallsKept_modSlot (s : Hw) (n i : Nat) (f : SlotSt → SlotSt) : Hw.StallsKept s (s.modSlot n i f) :=
  s.stallsKept_modStl n (fun _ => rfl) (fun _ => rfl) (fun _ => rfl) fun _ => rfl

theorem Hw.stallsKept_slotFault (s : Hw) (n i task : Nat) (ovr : Bool) : Hw.StallsKept s (s.slotFault n i task ovr) :=
  stallsKept_of_stls (by unfold Hw.slotFault; cases ovr <;> simp)

theorem Hw.stallsKept_writeStart (s : Hw) (n plan i task : Nat) : Hw.StallsKept s (s.writeStart n plan i task) := by
  unfold Hw.writeStart
  split
  · exact .refl s
  · split
    · exact (s.stallsKept_slotFault n i task true).trans (Hw.stallsKept_modSlot _ n i _)
    · exact .refl s

theorem Hw.stallsKept_writeDone (s : Hw) (n plan i : Nat) : Hw.StallsKept s (s.writeDone n plan i) := by
  unfold Hw.writeDone
  split
  · exact .refl s
  · exact s.stallsKept_modSlot n i _

theorem Hw.stallsKept_readDone (s : Hw) (n plan i : Nat) : Hw.StallsKept s (s.readDone n plan i) := by
  unfold Hw.readDone
  split
  · exact .refl s
  · exact s.stallsKept_modSlot n i _

theorem Hw.stallsKept_readStart (s : Hw) (n task : Nat) (is : List Nat) : Hw.StallsKept s (s.readStart n task is).1 := by
  induction is generalizing s with
  | nil => exact .refl s
  | cons i is ih =>
    unfold Hw.readStart
    split
    · exact ih s
    · dsimp only
      split
      · exact (s.stallsKept_slotFault n i task false).trans (ih _)
      · split
        · exact (s.stallsKept_modSlot n i _).trans (ih _)
        · exact ih s

theorem Hw.stallsKept_setPre (s : Hw) (n : Nat) (p : Option Prefetch) (v : Nat) :
    Hw.StallsKept s ((s.modStl n fun t => { t with pre := p }).set R.STL_STATUS_PREFETCH_VALID n v) :=
  (s.stallsKept_modStl n (f := fun t => { t with pre := p }) (fun _ => rfl) (fun _ => rfl) (fun _ => rfl) fun _ => rfl).trans
    (Hw.stallsKept_of_stls rfl)

theorem Hw.stallsKept_dropPrefetch (s : Hw) (c : Cx) : Hw.StallsKept s (s.dropPrefetch c) := by
  unfold Hw.dropPrefetch
  split
  · exact .refl s
  · exact (s.stallsKept_setPre c.n none 0).trans (Hw.stallsKept_of_stls (by simp))

theorem Hw.stallsKept_takePrefetch (s : Hw) (c : Cx) (cmd : Bytes) (slotW : Nat) : Hw.StallsKept s (s.takePrefetch c cmd slotW).1 := by
  unfold Hw.takePrefetch
  split
  · exact .refl s
  · split
    · exact (s.stallsKept_setPre c.n none 0).trans (Hw.stallsKept_of_stls (by simp))
    · exact s.stallsKept_dropPrefetch c

theorem Hw.stallsKept_startPrefetch (s : Hw) (n : Nat) : Hw.StallsKept s (s.startPrefetch n) := by
  unfold Hw.startPrefetch
  split
  · exact .refl s
  · split
    · exact .refl s
    · dsimp only
      split
      · exact s.stallsKept_setPre n _ 1
      · exact .refl s

theorem Hw.region_of_regions {s t : Hw} (h : ∀ m, (t.stl m).regions = (s.stl m).regions) (n eng task reg : Nat) :
    t.region n eng task reg = s.region n eng task reg := by
  rw [Hw.region, Hw.region, h]

theorem Hw.extAddr_of_regions {s t : Hw} (h : ∀ m, (t.stl m).regions = (s.stl m).regions) (n eng task : Nat) (x : Ext) :
    t.extAddr n eng task x = s.extAddr n eng task x := by
  rw [Hw.extAddr, Hw.extAddr, Hw.region_of_regions h]

theorem Hw.StallsKept.extAddr {s t : Hw} (h : Hw.StallsKept s t) (n eng task : Nat) (x : Ext) : t.extAddr n eng task x = s.extAddr n eng task x :=
  Hw.extAddr_of_regions h.regions n eng task x

theorem Hw.StallsKept.extFault {s t : Hw} (h : Hw.StallsKept s t) (c : Cx) (xs : List Ext) : t.extFault c xs = s.extFault c xs := by
  simp only [Hw.extFault, Hw.inBound, Hw.populated, h.extAddr, Hw.region_of_regions h.regions]

theorem Hw.StallsKept.bank {s t : Hw} (h : Hw.StallsKept s t) (n b : Nat) : t.bank n b = s.bank n b := by
  rw [Hw.bank, Hw.bank, h.banks]

theorem Hw.StallsKept.openBank {s t : Hw} (h : Hw.StallsKept s t) (c : Cx) (b op : Nat) : t.openBank c b op = s.openBank c b op := by
  rw [Hw.openBank, Hw.openBank, h.bank]

theorem Hw.StallsKept.bankGate {s t : Hw} (h : Hw.StallsKept s t) (c : Cx) (b op : Nat) : t.bankGate c b op = s.bankGate c b op := by
  rw [Hw.bankGate, Hw.bankGate, h.bank]

theorem Hw.StallsKept.cvdOf {s t : Hw} (h : Hw.StallsKept s t) (n fmt : Nat) : t.cvd n fmt = s.cvd n fmt := by
  rw [Hw.cvd, Hw.cvd, h.cvd]

theorem Hw.StallsKept.fmtGen {s t : Hw} (h : Hw.StallsKept s t) (n fmt : Nat) : t.fmtGen n fmt = s.fmtGen n fmt := by
  rw [Hw.fmtGen, Hw.fmtGen, h.cvdOf]

theorem Hw.StallsKept.genOk {s t : Hw} (h : Hw.StallsKept s t) (n g eng : Nat) : t.genOk n g eng = s.genOk n g eng := by
  rw [Hw.genOk, Hw.genOk, h.gens]

theorem Hw.StallsKept.outExts {s t : Hw} (h : Hw.StallsKept s t) (n fmt reg oOff oStride rows cols : Nat) :
    t.outExts n fmt reg oOff oStride rows cols = s.outExts n fmt reg oOff oStride rows cols := by
  rw [Hw.outExts, Hw.outExts, h.cvdOf]

theorem Hw.StallsKept.fmtBad {s t : Hw} (h : Hw.StallsKept s t) (n fmt oOff oStride cols : Nat) :
    t.fmtBad n fmt oOff oStride cols = s.fmtBad n fmt oOff oStride cols := by
  rw [Hw.fmtBad, Hw.fmtBad, h.cvdOf]

/-! ## What a run reads before its command's work -/

/-- The stalls' regions and banks, the memory the command found and every byte of the device as the command sees it are the same. -/
structure Run.Prepared (r u : Run) : Prop where
  stalls : Hw.StallsKept r.hw u.hw
  mem : u.mem = r.mem
  byte : ∀ a, u.byte a = r.byte a

theorem Run.Prepared.refl (r : Run) : r.Prepared r := ⟨.refl _, rfl, fun _ => rfl⟩

theorem Run.Prepared.trans {r u v : Run} (h : r.Prepared u) (k : u.Prepared v) : r.Prepared v :=
  ⟨h.stalls.trans k.stalls, k.mem.trans h.mem, fun a => (k.byte a).trans (h.byte a)⟩

theorem Run.prepared_on (r : Run) {f : Hw → Hw} (h : Hw.StallsKept r.hw (f r.hw)) : r.Prepared (r.on f) := ⟨h, rfl, fun _ => rfl⟩

theorem Run.prepared_onStls (r : Run) {f : Hw → Hw} (h : (f r.hw).dev.stls = r.hw.dev.stls) : r.Prepared (r.on f) :=
  r.prepared_on (Hw.stallsKept_of_stls h)

theorem Run.prepared_each {α : Type} (r : Run) {xs : List α} {f : α → Run → Run} (h : ∀ x u, Run.Prepared u (f x u)) :
    r.Prepared (r.each xs f) := by
  induction xs generalizing r with
  | nil => exact .refl r
  | cons x xs ih => exact (h x r).trans (ih (f x r))

theorem Run.prepared_setMark (r : Run) (l b : Nat) : r.Prepared (r.setMark l b) := by
  unfold Run.setMark
  split
  · exact .refl r
  · exact ⟨.refl _, rfl, fun _ => rfl⟩

theorem Run.prepared_markWrite (r : Run) (a n : Nat) (mk : Nat → Nat) : r.Prepared (r.markWrite a n mk) :=
  r.prepared_each fun l u => u.prepared_setMark l _

theorem Run.prepared_senseLine (r : Run) (l e : Nat) : r.Prepared (r.senseLine l e) := by
  have hpoison : ∀ {f : Hw → Hw}, (∀ s : Hw, (f s).dev.stls = s.dev.stls) →
      r.Prepared (((r.setMark l (r.mark l ||| 1)).on fun s => { s with dev.soft := Tbl.erase l s.dev.soft }).on f) := fun hf =>
    ((r.prepared_setMark l _).trans (Run.prepared_onStls _ rfl)).trans (Run.prepared_onStls _ (hf _))
  unfold Run.senseLine
  dsimp only
  split
  · split
    · exact r.prepared_onStls (by simp)
    · exact hpoison fun s => by simp
  · split
    · exact r.prepared_onStls (by simp)
    · exact hpoison fun s => by simp
  · split
    · exact r.prepared_onStls rfl
    · exact hpoison fun s => by simp
  · exact .refl r

theorem Hw.rowCorrected_stls (s : Hw) (n k : Nat) : ((s.inc R.SPD_ECC_CE n k).corrected 0 n k).dev.stls = s.dev.stls := by
  rw [Hw.corrected_stls, Hw.inc_dev]

theorem Hw.rowPoisoned_stls (s : Hw) (l n off addr : Nat) :
    (((({ s with dev.softW := s.dev.softW.filter fun kv => kv.1 / 8 != l || kv.2 == 1 } : Hw).inc R.SPD_ECC_UE n).set
      R.SPD_ECC_ADDR_OFFSET n off).log E.SPD_UE { kind := 0, unit := n, pen := (s.penOf n).getD 0xFF, addr := addr }).dev.stls = s.dev.stls := by
  rw [Hw.log_dev_stls, Hw.set_dev, Hw.inc_dev]

theorem Run.prepared_senseRow (r : Run) (l : Nat) (ws : List (Nat × Nat)) : r.Prepared (r.senseRow l ws) := by
  unfold Run.senseRow
  dsimp only
  split
  · exact ((r.prepared_onStls (Hw.rowCorrected_stls _ _ _)).trans (Run.prepared_setMark _ l _)).trans
      (Run.prepared_onStls _ (Hw.rowPoisoned_stls _ _ _ _ _))
  · exact r.prepared_onStls (Hw.rowCorrected_stls _ _ _)

theorem Run.prepared_sense (r : Run) (a n : Nat) : r.Prepared (r.sense a n) := by
  have hlines : r.Prepared (r.each (r.hw.softIn a n) fun kv r => r.senseLine kv.1 kv.2) := r.prepared_each fun kv u => u.prepared_senseLine kv.1 kv.2
  have hrows : ∀ (v : Run) (xs : List Nat) (ws : List (Nat × Nat)),
      v.Prepared (v.each xs fun l r => r.senseRow l (ws.filter fun kv => kv.1 / 8 == l)) := fun v _ _ =>
    v.prepared_each fun l u => u.prepared_senseRow l _
  exact hlines.trans (hrows _ _ _)

theorem Run.prepared_softWrite (r : Run) (a n : Nat) : r.Prepared (r.softWrite a n) := by
  unfold Run.softWrite
  dsimp only
  refine .trans (r.prepared_each fun kv u => ?_) (Run.prepared_onStls _ ?_)
  rotate_left
  · rfl
  split
  · exact u.prepared_onStls rfl
  · exact u.prepared_senseLine kv.1 kv.2

theorem Run.Prepared.read {r u : Run} (h : r.Prepared u) (a n : Nat) : u.read a n = r.read a n := by
  simp only [Run.read, h.byte]

theorem Run.Prepared.ext {r u : Run} (h : r.Prepared u) (c : Cx) (x : Ext) : u.ext c x = r.ext c x := by
  rw [Run.ext, Run.ext, h.stalls.extAddr, h.read]

/-! ## Bytes stored -/

/-- Bytes stored read back; every other byte reads as before. -/
theorem Run.byte_store (r : Run) (a : Nat) (bs : Bytes) (b x : Nat) :
    (r.store a bs b).byte x = (if a ≤ x then bs[x - a]? else none).getD (r.byte x) := by
  have hsoft := r.prepared_softWrite a bs.length
  rw [Run.store, Run.storeBy, (Run.prepared_markWrite _ a bs.length _).byte x, ← hsoft.byte x, Run.write]
  split
  next hnil => simp [hnil]
  next =>
    rw [Run.byte, Run.post_posts, List.findSome?_cons, Post.devByte, Run.post_mem, Run.byte]
    cases (if a ≤ x then bs[x - a]? else none) <;> rfl

theorem Run.store_stalls (r : Run) (a : Nat) (bs : Bytes) (b : Nat) : Hw.StallsKept r.hw (r.store a bs b).hw ∧ (r.store a bs b).mem = r.mem := by
  have hsoft := r.prepared_softWrite a bs.length
  have hmark := Run.prepared_markWrite ((r.softWrite a bs.length).write a bs) a bs.length fun _ => b
  have hmem : ((r.softWrite a bs.length).write a bs).mem = (r.softWrite a bs.length).mem := by
    unfold Run.write
    split <;> rfl
  refine ⟨hsoft.stalls.trans ?_, hmark.mem.trans (hmem.trans hsoft.mem)⟩
  have hstalls := hmark.stalls
  rw [Run.write_hw] at hstalls
  exact hstalls

/-! ## Good commands (R177, R181, R182) -/

/-- A command whose extents are all in bound and populated does its work on a run that reads as it did at issue, and what it does after
leaves the stalls' banks as the work left them. -/
theorem Run.command_runs {r : Run} {c : Cx} {ins outs : List Ext} (inSlots outSlots : List Nat) (body : Nat → Run → Run × Nat)
    (hfault : r.hw.extFault c (ins ++ outs) = {}) :
    ∃ q m f, r.Prepared q ∧ (∀ s : Hw, Hw.StallsKept s (f s)) ∧ r.command c ins outs inSlots outSlots body = (body m q).1.on f := by
  have hnone : (r.hw.extFault c (ins ++ outs)).none? = true := by rw [hfault]; rfl
  unfold Run.command Run.commandOn
  simp only [hnone, Bool.not_true, Bool.false_eq_true, if_false]
  refine ⟨_, _, _, ?_, ?_, rfl⟩
  · refine .trans (Run.prepared_on r (f := fun s => (s.readStart c.n c.taskWord inSlots.eraseDups).1.each outSlots fun i s =>
      s.writeStart c.n c.plan i c.taskWord) ?_) (Run.prepared_each _ fun x u => u.prepared_sense _ _)
    exact (Hw.stallsKept_readStart _ _ _ _).trans (Hw.stallsKept_each _ fun i t => t.stallsKept_writeStart _ _ _ _)
  · exact fun s => ((Hw.stallsKept_of_stls (by simp)).trans (Hw.stallsKept_each _ fun i t => t.stallsKept_readDone _ _ _)).trans
      (Hw.stallsKept_each _ fun i t => t.stallsKept_writeDone _ _ _)

/-! ## Raw output rows (R95) -/

/-- The bytes of a row of raw outputs: 32 bits each, little-endian. -/
def rawBytes (xs : List Int) : Bytes := xs.flatMap fun x => leBytes 4 (unsigned 32 x)

theorem length_rawBytes (n : Nat) (g : Nat → Int) : (rawBytes (vec n g)).length = 4 * n := by
  simp [rawBytes, vec, List.length_flatMap, leBytes, Function.comp_def, Nat.mul_comm]

/-- Byte `j` of number `c` of a raw row. -/
theorem getElem?_rawBytes {n c j : Nat} (g : Nat → Int) (hc : c < n) (hj : j < 4) :
    (rawBytes (vec n g))[4 * c + j]? = (leBytes 4 (unsigned 32 (g c)))[j]? := by
  induction n with
  | zero => omega
  | succ n ih =>
    have hsplit : rawBytes (vec (n + 1) g) = rawBytes (vec n g) ++ leBytes 4 (unsigned 32 (g n)) := by
      rw [rawBytes, vec, List.range_succ, List.map_append, List.flatMap_append]
      exact congrArg _ (List.append_nil _)
    rw [hsplit]
    rcases Nat.lt_succ_iff_lt_or_eq.mp hc with hlt | rfl
    · rw [List.getElem?_append_left (by rw [length_rawBytes]; omega), ih hlt]
    · rw [List.getElem?_append_right (by rw [length_rawBytes]; omega), length_rawBytes, Nat.add_sub_cancel_left]

theorem leNat_leBytes (n v : Nat) : leNat (leBytes n v) = v % 256 ^ n := by
  induction n generalizing v with
  | zero => simp [leBytes, leNat, Nat.mod_one]
  | succ n ih =>
    have hpow : 256 ^ (n + 1) = 256 * 256 ^ n := Nat.pow_succ'
    rw [leBytes, leNat, ih, BitVec.toNat_ofNat, hpow, Nat.mod_mul]

theorem unsigned_lt (w : Nat) (x : Int) : unsigned w x < 2 ^ w := by
  have hpos : (0 : Int) < (2 ^ w : Nat) := by positivity
  have hlow := Int.emod_nonneg x hpos.ne'
  have hhigh := Int.emod_lt_of_pos x hpos
  unfold unsigned
  omega

/-- The bytes of a row are put where the row lies. -/
theorem Run.putRow_raw (r : Run) (c : Cx) (reg off row : Nat) (d : Cvd) (blocks : List Nat) (base : Nat) (xs : List Int) (m : Nat) :
    r.putRow c 0 reg off row d blocks base (xs.map Val.int) m = (r.putExt c reg off (rawBytes xs) m, {}) := by
  unfold Run.putRow rawBytes
  simp only [List.flatMap_map]

/-- The events of an output conversion counted, with the range alarm of tensor `t`. -/
def Hw.convEvents (s : Hw) (n t : Nat) (ev : ConvEv) : Hw :=
  let s := ((s.incStl R.STL_NARROW_CONV_SAT n ev.clamp).incStl R.STL_NARROW_OSP_OVERFLOW n ev.ovr).incStl R.STL_OSP_USED n ev.used
  let s := s.lnsEvents n t ev.lns
  if ev.clamp + ev.ovr = 0 then s else s.alarm n t

theorem Hw.convEvents_stls (s : Hw) (n t : Nat) (ev : ConvEv) : (s.convEvents n t ev).dev.stls = s.dev.stls := by
  unfold Hw.convEvents
  split <;> simp

/-- Raw rows are put one after the other. -/
theorem Run.putRows_raw (r : Run) (c : Cx) (reg off stride t : Nat) (row : Nat → List Int) (m : Nat) :
    ∃ b ev, (r.putRows c 0 reg off stride ((List.range t).map fun u => (row u).map Val.int) m).1 =
      (r.each (List.range t) fun u r => r.putExt c reg (off + u * stride) (rawBytes (row u)) b).on fun s => s.convEvents c.n 63 ev := by
  unfold Run.putRows
  simp only [List.length_map, List.length_range, zip_range_map, List.foldl_map, Run.putRow_raw, Nat.zero_mod, if_true,
    Cvd.raw, Bool.false_eq_true, if_false]
  exact ⟨m ||| 0, _, congrArg (Run.on · _) (List.foldl_hom Prod.fst fun _ _ => rfl).symm⟩

theorem Run.putExt_stalls (r : Run) (c : Cx) (reg off : Nat) (bs : Bytes) (b : Nat) :
    Hw.StallsKept r.hw (r.putExt c reg off bs b).hw ∧ (r.putExt c reg off bs b).mem = r.mem := r.store_stalls _ bs b

/-- Rows at a stride that leaves room for each: every byte of every row reads as it was put. -/
theorem Run.each_putExt (r : Run) (c : Cx) (reg off stride t : Nat) (B : Nat → Bytes) (b : Nat) (hroom : ∀ u, (B u).length ≤ stride) :
    let q := r.each (List.range t) fun u r => r.putExt c reg (off + u * stride) (B u) b
    Hw.StallsKept r.hw q.hw ∧ q.mem = r.mem ∧ ∀ u < t, ∀ j x, (B u)[j]? = some x →
      q.byte (r.hw.extAddr c.n c.eng c.tk ⟨reg, off + u * stride, 0⟩ + j) = x := by
  induction t with
  | zero => exact ⟨.refl _, rfl, fun u hu => absurd hu (Nat.not_lt_zero u)⟩
  | succ t ih =>
    obtain ⟨hstalls, hmem, hbytes⟩ := ih
    have hlast : (r.each (List.range (t + 1)) fun u r => r.putExt c reg (off + u * stride) (B u) b) =
        (r.each (List.range t) fun u r => r.putExt c reg (off + u * stride) (B u) b).putExt c reg (off + t * stride) (B t) b := by
      rw [Run.each, List.range_succ, List.foldl_append]
      rfl
    rw [hlast]
    generalize (r.each (List.range t) fun u r => r.putExt c reg (off + u * stride) (B u) b) = q at hstalls hmem hbytes ⊢
    obtain ⟨hput, hputMem⟩ := q.putExt_stalls c reg (off + t * stride) (B t) b
    refine ⟨hstalls.trans hput, hputMem.trans hmem, fun u hu j x hx => ?_⟩
    have haddr : ∀ v len, q.hw.extAddr c.n c.eng c.tk ⟨reg, off + v * stride, len⟩ =
        spdAddr c.n + (r.hw.region c.n c.eng c.tk reg).1 + (off + v * stride) := fun v len => hstalls.extAddr _ _ _ _
    rw [Run.putExt, haddr, Run.byte_store, Hw.extAddr]
    dsimp only
    rcases Nat.lt_succ_iff_lt_or_eq.mp hu with hlt | rfl
    · have hj : j < stride := Nat.lt_of_lt_of_le (List.getElem?_eq_some_iff.mp hx).1 (hroom u)
      have hbelow : u * stride + stride ≤ t * stride := Nat.succ_mul u stride ▸ Nat.mul_le_mul_right stride hlt
      rw [if_neg (by omega)]
      exact hbytes u hlt j x hx
    · rw [if_pos (by omega), Nat.add_sub_cancel_left, hx]
      rfl

/-! ## The end of a chain's command (R90, R94) -/

theorem Hw.showBanks_stls (s : Hw) (n : Nat) : (s.showBanks n).dev.stls = s.dev.stls := rfl

theorem Hw.bank_setBank (s : Hw) (n b : Nat) (x : Bank) : (s.setBank n b x).bank n b = x := by
  rw [Hw.setBank, Hw.bank, Hw.stl, Hw.showBanks_stls, ← Hw.stl, Hw.stl_modStl]
  exact Tbl.get_set_same _ _ _ _

theorem Hw.regions_setBank (s : Hw) (n b : Nat) (x : Bank) (m : Nat) : ((s.setBank n b x).stl m).regions = (s.stl m).regions := by
  rw [Hw.setBank, Hw.stl, Hw.showBanks_stls, ← Hw.stl]
  by_cases hm : m = n
  · rw [hm, Hw.stl_modStl]
  · rw [Hw.stl_modStl_ne _ _ hm]

/-- The bank as a chain's command leaves it: its rows set, the operands' poison joined. -/
def Bank.closed (b : Bank) (rows : List (List Int)) (m : Nat) : Bank := { b with acc := b.setRows rows, poison := b.poison ||| m }

theorem Run.closeBank_keeps {op : Nat} (hop : op < 2) (r : Run) (c : Cx) (b : Nat) (bank : Bank) (rows : List (List Int))
    (cols fmt reg off stride m : Nat) :
    (r.closeBank c b op bank rows cols fmt reg off stride m).1 = r.on fun s => s.setBank c.n b (bank.closed rows m) := by
  unfold Run.closeBank
  rw [if_neg (by omega)]
  rfl

theorem Run.closeBank_writesOut {op : Nat} (hop : op = 2 ∨ op = 3) (r : Run) (c : Cx) (b : Nat) (bank : Bank) (rows : List (List Int))
    (cols fmt reg off stride m : Nat) :
    (r.closeBank c b op bank rows cols fmt reg off stride m).1 =
      (r.putRows c fmt reg off stride (rows.map fun x => (x.take cols).map Val.int) (bank.closed rows m).poison).1.on
        fun s => s.setBank c.n b { bank.closed rows m with owner := none } := by
  unfold Run.closeBank
  rw [if_pos hop]
  rfl

end Sys2Proof.Machine
end

section
/-! SUPPORT. TDA_MAC adds exact dot products; the theorem at the end settles the obligation its comment names. -/
namespace Sys2Proof.Machine

/-! ## The accumulation of a TDA_MAC (R89, R90, R93, R97) -/

/-- The exact dot product of token `u` of a TDA_MAC and column `col`, of the bytes a run reads. -/
def Run.tdaDot (r : Run) (c : Cx) (f : TdaMac) (u col : Nat) : Int :=
  ∑ k ∈ Finset.range f.rows, tritOf (r.byte (r.hw.extAddr c.n c.eng c.tk f.wExt + (256 * (k / 5) + col))).toNat (k % 5) *
    actOf f.sgn f.wid (leNat (r.ext c ⟨f.aReg, f.aOff + u * f.aStr, valBytes f.rows f.wid⟩)) k

/-- The accumulator of token `u` and column `col` that a TDA_MAC leaves. -/
def Run.tdaSum (r : Run) (c : Cx) (f : TdaMac) (u col : Nat) : Int :=
  (saturate 32 (Tbl.get 0 (256 * u + col) (r.hw.openBank c f.bank f.op).acc + r.tdaDot c f u col)).1

/-- Without block scales and outlier slots a TDA_MAC ends its chain's command with the exact sums, each saturated once. -/
theorem Run.tdaBody_exact (r : Run) {c : Cx} {f : TdaMac} (pre : Bool) (m : Nat) (hbsc : f.bsc = false) (hosp : f.osp = false)
    (h0 : f.wid ≠ 0) (h16 : f.wid ≤ 16) :
    ∃ (v : Run) (m' : Nat), (∀ n, (v.hw.stl n).regions = (r.hw.stl n).regions) ∧ v.mem = r.mem ∧ (∀ a, v.byte a = r.byte a) ∧
      Run.tdaBody c f pre m r = v.closeBank c f.bank f.op (r.hw.openBank c f.bank f.op)
        ((List.range f.t).map fun u => vec 256 (r.tdaSum c f u)) 256 f.fmt f.oReg f.oOff f.oStr m' := by
  have hstart : ∀ n, (((r.on fun s => (s.setBank c.n f.bank (r.hw.openBank c f.bank f.op)).startPrefetch c.n).hw.stl n).regions) =
      (r.hw.stl n).regions :=
    fun n => ((Hw.stallsKept_startPrefetch _ c.n).regions n).trans (Hw.regions_setBank _ _ _ _ n)
  have hacts : (r.on fun s => (s.setBank c.n f.bank (r.hw.openBank c f.bank f.op)).startPrefetch c.n).actRows c f.aExts =
      (List.range f.t).map fun u => leNat (r.ext c ⟨f.aReg, f.aOff + u * f.aStr, valBytes f.rows f.wid⟩) := by
    rw [Run.actRows, TdaMac.aExts, rowExts, List.map_map]
    refine List.map_congr_left fun u _ => congrArg leNat ?_
    rw [Run.ext, Run.ext, Hw.extAddr_of_regions hstart]
    rfl
  have hweights : (tileRows (r.ext c f.wExt) f.rows).1 = (List.range f.rows).map fun k => vec 256 fun col =>
      tritOf (r.byte (r.hw.extAddr c.n c.eng c.tk f.wExt + (256 * (k / 5) + col))).toNat (k % 5) := tileRows_fst _ f.rows
  have hshift : ∀ u j, shiftAt (shiftsOf f.bexp []).1 u j = 0 := fun _ _ => rfl
  have hx : f.xExts = [] := by rw [TdaMac.xExts, hbsc]; rfl
  unfold Run.tdaBody
  simp only [hbsc, hosp, hx, List.map_nil, Bool.or_false, Bool.false_eq_true, if_false, hacts, hweights,
    macPass_sums f.sgn _ _ _ hshift h0 h16 fun _ _ => abs_tritOf_le _ _, Bank.addRows_fst]
  refine ⟨_, _, fun n => ?_, ?_, fun a => ?_, rfl⟩
  · exact ((Hw.stallsKept_of_stls (by simp)).regions n).trans (hstart n)
  · rfl
  · rfl

/-! ## A TDA_MAC in its place -/

theorem TdaMac.wid_of_not_bad {f : TdaMac} {s : Hw} {n : Nat} {cmd : Bytes} (h : f.bad s n cmd = false) : f.wid ≠ 0 ∧ f.wid ≤ 16 := by
  simp only [TdaMac.bad, Bool.or_eq_false_iff, decide_eq_false_iff_not] at h
  have h0 : ¬f.wid = 0 := by tauto
  have h16 : ¬16 < f.wid := by tauto
  exact ⟨h0, Nat.le_of_not_lt h16⟩

/-- A TDA_MAC whose fields are good and whose extents, bank and generator allow it does its work on a run that reads as it did at issue. -/
theorem Run.tdaMac_runs {r : Run} {c : Cx} {cmd : Bytes} (hbad : (TdaMac.of cmd).bad r.hw c.n cmd = false)
    (hfault : r.hw.extFault c ((TdaMac.of cmd).wExt :: ((TdaMac.of cmd).aExts ++ (TdaMac.of cmd).xExts ++ (TdaMac.of cmd).ospExts) ++
      (TdaMac.of cmd).outs r.hw c.n) = {})
    (hgate : r.hw.bankGate c (TdaMac.of cmd).bank (TdaMac.of cmd).op = .go)
    (hgen : writesOut (TdaMac.of cmd).op = true → (r.hw.fmtGen c.n (TdaMac.of cmd).fmt).all (fun g => r.hw.genOk c.n g c.eng) = true) :
    ∃ q m pre f, r.Prepared q ∧ (∀ s : Hw, Hw.StallsKept s (f s)) ∧ r.tdaMac c cmd = (Run.tdaBody c (TdaMac.of cmd) pre m q).1.on f := by
  have htake := r.hw.stallsKept_takePrefetch c cmd (TdaMac.of cmd).slotW
  have hnone : (if writesOut (TdaMac.of cmd).op then (r.hw.fmtGen c.n (TdaMac.of cmd).fmt).filter fun g => !(r.hw.genOk c.n g c.eng)
      else none) = none := by
    split
    next hw =>
      rw [Option.filter_eq_none_iff]
      intro g hg
      have hall := hgen hw
      rw [hg] at hall
      simpa using hall
    next => rfl
  have hstart : r.Prepared { r with hw := (r.hw.takePrefetch c cmd (TdaMac.of cmd).slotW).1 } := ⟨htake, rfl, fun _ => rfl⟩
  obtain ⟨q, m, f, hq, hf, hcommand⟩ := Run.command_runs (r := { r with hw := (r.hw.takePrefetch c cmd (TdaMac.of cmd).slotW).1 })
    [(TdaMac.of cmd).slotW, (TdaMac.of cmd).slotA] (TdaMac.of cmd).outSlots
    (Run.tdaBody c (TdaMac.of cmd) (r.hw.takePrefetch c cmd (TdaMac.of cmd).slotW).2) ((htake.extFault c _).trans hfault)
  refine ⟨q, m, (r.hw.takePrefetch c cmd (TdaMac.of cmd).slotW).2, f, hstart.trans hq, hf, ?_⟩
  rw [← hcommand]
  unfold Run.tdaMac
  simp only [hbad, hgate, hnone, Bool.false_eq_true, if_false]

theorem Hw.cx_place {s : Hw} {n eng : Nat} {i : Issue} {c : Cx} (h : s.cx n eng i = some c) : c.n = n ∧ c.eng = eng := by
  unfold Hw.cx at h
  split at h
  · cases h
  · split at h
    · cases h
    · obtain rfl := Option.some.inj h
      exact ⟨rfl, rfl⟩

/-- The run that a command of a stall's engine starts from: what it met at its ports is counted. -/
def State.issued (s : State) (n eng : Nat) (i : Issue) : Run := (⟨s.hw, s.mem, []⟩ : Run).on fun h => (h.upset i.upsets).metPorts n eng i

theorem State.prepared_issued (s : State) (n eng : Nat) (i : Issue) : Run.Prepared ⟨s.hw, s.mem, []⟩ (s.issued n eng i) :=
  Run.prepared_onStls _ (by simp)

/-- A command with a place answers the state that its run leaves; its bytes are those the run reads. -/
theorem State.runStall_next {s : State} {n eng : Nat} {i : Issue} {c : Cx} (f : Cx → Run → Run) (hcx : s.hw.cx n eng i = some c)
    (hmem : (f c (s.issued n eng i)).mem = s.mem) :
    ∃ t, s.runStall n eng i f = .next t ∧ t.hw = (f c (s.issued n eng i)).hw ∧ ∀ a, t.devByte a = (f c (s.issued n eng i)).byte a := by
  refine ⟨_, by unfold State.runStall State.run; simp only [hcx]; rfl, rfl, fun a => ?_⟩
  exact (Mem.get_dev_apply s.mem _ a).trans (by rw [Run.byte, hmem, State.issued])

theorem State.dotAt_eq_sum (s : State) (w a rows wid : Nat) (sgn : Bool) (col : Nat) : s.dotAt w a rows wid sgn col =
    ∑ k ∈ Finset.range rows, tritOf (s.devByte (w + (256 * (k / 5) + col))).toNat (k % 5) * actOf sgn wid (s.leAt a (valBytes rows wid)) k := by
  simp only [← Nat.add_assoc]
  rfl

/-- On a run that reads as the state does, the sums are those of the state's bytes. -/
theorem State.tdaSum_eq {s : State} {q : Run} (h : Run.Prepared ⟨s.hw, s.mem, []⟩ q) (c : Cx) (f : TdaMac) (u col : Nat) :
    q.tdaSum c f u col = (saturate 32 (Tbl.get 0 (256 * u + col) (s.hw.openBank c f.bank f.op).acc +
      s.dotAt (s.hw.extAddr c.n c.eng c.tk f.wExt) (s.hw.extAddr c.n c.eng c.tk ⟨f.aReg, f.aOff + u * f.aStr, 0⟩) f.rows f.wid f.sgn col)).1 := by
  have hbyte : ∀ a, q.byte a = s.devByte a := h.byte
  have hext : q.ext c ⟨f.aReg, f.aOff + u * f.aStr, valBytes f.rows f.wid⟩ = _ := h.ext c _
  rw [Run.tdaSum, Run.tdaDot, h.stalls.openBank, h.stalls.extAddr, hext, State.dotAt_eq_sum]
  simp only [hbyte]
  rfl

/-- The accumulator of token `u` and column `col` that a TDA_MAC leaves, of the bytes a state holds. -/
def State.tdaSum (s : State) (c : Cx) (f : TdaMac) (u col : Nat) : Int :=
  (saturate 32 (Tbl.get 0 (256 * u + col) (s.hw.openBank c f.bank f.op).acc +
    s.dotAt (s.hw.extAddr c.n c.eng c.tk f.wExt) (s.hw.extAddr c.n c.eng c.tk ⟨f.aReg, f.aOff + u * f.aStr, 0⟩) f.rows f.wid f.sgn col)).1

theorem Hw.StallsKept.tdaBad {s t : Hw} (h : Hw.StallsKept s t) (f : TdaMac) (n : Nat) (cmd : Bytes) : f.bad t n cmd = f.bad s n cmd := by
  rw [TdaMac.bad, TdaMac.bad, h.fmtBad]

theorem Hw.StallsKept.tdaOuts {s t : Hw} (h : Hw.StallsKept s t) (f : TdaMac) (n : Nat) : f.outs t n = f.outs s n := by
  rw [TdaMac.outs, TdaMac.outs, TdaMac.rowsOut, TdaMac.rowsOut, h.outExts]

theorem length_leBytes (n v : Nat) : (leBytes n v).length = n := by
  induction n generalizing v with
  | zero => rfl
  | succ n ih => rw [leBytes, List.length_cons, ih]

/-- Bytes that stand as `leBytes` puts them read back as the number. -/
theorem State.leAt_of_leBytes {t : State} {a n v : Nat} (h : ∀ j x, (leBytes n v)[j]? = some x → t.devByte (a + j) = x) :
    t.leAt a n = v % 256 ^ n := by
  rw [← leNat_leBytes, State.leAt]
  refine congrArg leNat (List.ext_getElem (by simp [length_leBytes]) fun j _ hj => ?_)
  rw [List.getElem_map, List.getElem_range]
  exact h j _ (List.getElem?_eq_getElem hj)

/-! ## TDA_MAC computes exact dot products -/

section
variable {n : StallId} {i : Issue} {cmd : Bytes} {s : State} {c : Cx}
  (hcx : s.hw.cx n 0 i = some c)
  (hbad : (TdaMac.of cmd).bad s.hw n cmd = false)
  (hfault : s.hw.extFault c ((TdaMac.of cmd).wExt :: ((TdaMac.of cmd).aExts ++ (TdaMac.of cmd).xExts ++ (TdaMac.of cmd).ospExts) ++
    (TdaMac.of cmd).outs s.hw n) = {})
  (hgate : s.hw.bankGate c (TdaMac.of cmd).bank (TdaMac.of cmd).op = .go)
  (hgen : writesOut (TdaMac.of cmd).op = true → (s.hw.fmtGen n (TdaMac.of cmd).fmt).all (fun g => s.hw.genOk n g 0) = true)
  (hbsc : (TdaMac.of cmd).bsc = false) (hosp : (TdaMac.of cmd).osp = false)
include hcx hbad hfault hgate hgen hbsc hosp

/-- The command ends with its bank closed over the exact sums; the run up to there has written no byte. -/
theorem State.tdaMac_closes : ∃ (v : Run) (m : Nat) (f : Hw → Hw),
    (∀ k, (v.hw.stl k).regions = (s.hw.stl k).regions) ∧ v.mem = s.mem ∧ (∀ h : Hw, Hw.StallsKept h (f h)) ∧
      (s.issued n 0 i).tdaMac c cmd = (v.closeBank c (TdaMac.of cmd).bank (TdaMac.of cmd).op
        (s.hw.openBank c (TdaMac.of cmd).bank (TdaMac.of cmd).op)
        ((List.range (TdaMac.of cmd).t).map fun u => vec 256 (s.tdaSum c (TdaMac.of cmd) u)) 256 (TdaMac.of cmd).fmt (TdaMac.of cmd).oReg
        (TdaMac.of cmd).oOff (TdaMac.of cmd).oStr m).1.on f := by
  obtain ⟨hn, heng⟩ := Hw.cx_place hcx
  obtain ⟨h0, h16⟩ := TdaMac.wid_of_not_bad hbad
  have hissued := s.prepared_issued n 0 i
  have hstalls : Hw.StallsKept s.hw (s.issued n 0 i).hw := hissued.stalls
  rw [← hn] at hbad hfault hgen
  rw [← heng] at hgen
  obtain ⟨q, m, pre, f, hq, hf, hmac⟩ := Run.tdaMac_runs ((hstalls.tdaBad _ _ _).trans hbad)
    (by rw [hstalls.tdaOuts, hstalls.extFault, hfault]) ((hstalls.bankGate _ _ _).trans hgate)
    (by simpa only [hstalls.fmtGen, hstalls.genOk] using hgen)
  obtain ⟨v, m', hregions, hmem, -, hbody⟩ := q.tdaBody_exact pre m hbsc hosp h0 h16
  have hprep := hissued.trans hq
  refine ⟨v, m', f, fun k => (hregions k).trans (hprep.stalls.regions k), hmem.trans hprep.mem, hf, ?_⟩
  rw [hmac, hbody, hprep.stalls.openBank]
  simp only [funext₂ (State.tdaSum_eq hprep c (TdaMac.of cmd))]
  rfl

/-- Under ACC_OP 0 and 1 the bank holds the exact sums. -/
theorem exec_tdaMac_accumulates (hop : (TdaMac.of cmd).op < 2) {u col : Nat} (hu : u < (TdaMac.of cmd).t) (hcol : col < 256) :
    ∃ t, exec (.tdaMac n i cmd) s = .next t ∧
      Tbl.get 0 (256 * u + col) (t.hw.bank n (TdaMac.of cmd).bank).acc = s.tdaSum c (TdaMac.of cmd) u col := by
  obtain ⟨hn, -⟩ := Hw.cx_place hcx
  obtain ⟨v, m, f, -, hmem, hf, hmac⟩ := State.tdaMac_closes hcx hbad hfault hgate hgen hbsc hosp
  rw [Run.closeBank_keeps hop] at hmac
  obtain ⟨t, ht, hhw, -⟩ := State.runStall_next (fun c r => r.tdaMac c cmd) hcx (by rw [hmac, Run.on_mem, Run.on_mem, hmem])
  refine ⟨t, ht, ?_⟩
  rw [hhw, hmac, Run.on_hw, Run.on_hw, (hf _).bank, ← hn, Hw.bank_setBank]
  exact Bank.get_setRows _ _ hu hcol

/-- Under ACC_OP 2 and 3 a raw output holds the exact sums as 32-bit words, and the bank is free. -/
theorem exec_tdaMac_writesOut (hop : (TdaMac.of cmd).op = 2 ∨ (TdaMac.of cmd).op = 3) (hfmt : (TdaMac.of cmd).fmt = 0)
    (hstride : 1024 ≤ (TdaMac.of cmd).oStr) {u col : Nat} (hu : u < (TdaMac.of cmd).t) (hcol : col < 256) :
    ∃ t, exec (.tdaMac n i cmd) s = .next t ∧
      t.leAt (s.hw.extAddr n 0 c.tk ⟨(TdaMac.of cmd).oReg, (TdaMac.of cmd).oOff + u * (TdaMac.of cmd).oStr, 0⟩ + 4 * col) 4 =
        unsigned 32 (s.tdaSum c (TdaMac.of cmd) u col) ∧
      (t.hw.bank n (TdaMac.of cmd).bank).owner = none := by
  obtain ⟨hn, heng⟩ := Hw.cx_place hcx
  obtain ⟨v, m, f, hregions, hmem, hf, hmac⟩ := State.tdaMac_closes hcx hbad hfault hgate hgen hbsc hosp
  have htake : ∀ g, (vec 256 g).take 256 = vec 256 g := fun g => List.take_of_length_le (by simp)
  have hroom : ∀ u, (rawBytes (vec 256 (s.tdaSum c (TdaMac.of cmd) u))).length ≤ (TdaMac.of cmd).oStr := fun u => by
    rw [length_rawBytes]
    exact hstride
  rw [Run.closeBank_writesOut hop, hfmt, List.map_map] at hmac
  simp only [Function.comp_def, htake] at hmac
  obtain ⟨b, ev, hput⟩ := v.putRows_raw c (TdaMac.of cmd).oReg (TdaMac.of cmd).oOff (TdaMac.of cmd).oStr (TdaMac.of cmd).t
    (fun u => vec 256 (s.tdaSum c (TdaMac.of cmd) u)) _
  rw [hput] at hmac
  obtain ⟨-, hputMem, hbytes⟩ := v.each_putExt c (TdaMac.of cmd).oReg (TdaMac.of cmd).oOff (TdaMac.of cmd).oStr (TdaMac.of cmd).t
    (fun u => rawBytes (vec 256 (s.tdaSum c (TdaMac.of cmd) u))) b hroom
  obtain ⟨t, ht, hhw, hdev⟩ := State.runStall_next (fun c r => r.tdaMac c cmd) hcx (by
    rw [hmac, Run.on_mem, Run.on_mem, Run.on_mem, hputMem, hmem])
  refine ⟨t, ht, ?_, ?_⟩
  · refine (State.leAt_of_leBytes fun j x hx => ?_).trans (Nat.mod_eq_of_lt (unsigned_lt 32 _))
    have hj : j < 4 := (List.getElem?_eq_some_iff.mp hx).1
    rw [hdev, hmac, Nat.add_assoc, ← hn, ← heng, ← Hw.extAddr_of_regions hregions]
    exact hbytes u hu (4 * col + j) x ((getElem?_rawBytes _ hcol hj).trans hx)
  · rw [hhw, hmac, Run.on_hw, Run.on_hw, (hf _).bank, ← hn, Hw.bank_setBank]

end

/-- Settles O14: planes and lane groups never leave 32 bits, so that only the sum into the bank saturates. -/
theorem denseArrayExactProducts : Obligations.DenseArrayExactProducts := by
  unfold Obligations.DenseArrayExactProducts
  refine ⟨fun n i cmd s c u col hcx hbad hfault hgate hgen hbsc hosp hop hu hcol => ?_,
    fun n i cmd s c u col hcx hbad hfault hgate hgen hbsc hosp hop hfmt hstride hu hcol => ?_⟩
  · obtain ⟨t, ht, hacc⟩ := exec_tdaMac_accumulates hcx hbad hfault hgate hgen hbsc hosp hop hu hcol
    obtain ⟨hn, heng⟩ := Hw.cx_place hcx
    refine ⟨t, ht, hacc.trans ?_⟩
    rw [State.tdaSum, hn, heng]
  · have hop : (TdaMac.of cmd).op = 2 ∨ (TdaMac.of cmd).op = 3 := by
      have hlt : (TdaMac.of cmd).op < 4 := Nat.mod_lt _ (by decide)
      omega
    obtain ⟨t, ht, hword, hfree⟩ := exec_tdaMac_writesOut hcx hbad hfault hgate hgen hbsc hosp hop hfmt hstride hu hcol
    obtain ⟨hn, heng⟩ := Hw.cx_place hcx
    refine ⟨t, ht, hword.trans ?_, hfree⟩
    rw [State.tdaSum, hn, heng]

end Sys2Proof.Machine
end
